-- ==== Sys2Proof/Word.lean ====
section
/-! DEFINITION. The word types of the ZQ4120 and their plainest arithmetic (R7, R94). -/

namespace Sys2Proof

/-- A register of the engine subsystem: 32 bits (R94). -/
abbrev Word := BitVec 32

/-- One byte of memory; every structure in memory is little-endian (R7). -/
abbrev Byte := BitVec 8

/-- Half of a device access: 16 bits. -/
abbrev Half := BitVec 16

/-- A 64-bit word: designated counters and record payload words (R98, R421). -/
abbrev DWord := BitVec 64

end Sys2Proof
end

