-- ==== Sys2Proof/Syntax.lean ====
section
/-! DEFINITION. The commands of the ZQ4120 as a block: one constructor for each row of the table, with the operands
this model gives it. The table gives its rows no bits and names no operands, so the operands are the model's own (log 4):
what the outside world supplies with the event (a sampled value, a received frame, the outcome of analogue or
cryptographic work that the spec does not reduce to bits). -/

namespace Sys2Proof

/-- What the memory's code finds on a read (R88, R89). -/
inductive MemErr where
  | good | corrected | uncorrectable
  deriving DecidableEq, Repr

/-- What an L2 lookup finds besides the line (R80). -/
inductive L2Err where
  | good | correctable | uncorrectable
  /-- A tag parity error in a way of the set looked up. -/
  | tag (way : Fin 16)
  deriving DecidableEq, Repr

/-- The atomic operations of the A extension (R69, R84). -/
inductive AmoOp where
  | swap | add | xor | and | or | min | max | minu | maxu | lr | sc
  deriving DecidableEq, Repr

/-- What orders a hart's earlier stores, or its fetches after them (R74, R83, R91): `cbo.clean`, `fence w,w` and `fence.i`. -/
inductive FenceOp where
  | cboClean | fenceWW | fenceI
  deriving DecidableEq, Repr

/-- What the boot flash does on a command sent to it, as its opcode says there (R107, R127): nothing that lasts, a program of the
bytes written, or an erase of the 64 KiB sector addressed. -/
inductive FlashEffect where
  | none | program | erase
  deriving DecidableEq, Repr

/-- An NVMe command capsule: the fields of its submission queue entry and its in-capsule data (R136, R143). -/
structure Capsule where
  opc : Nat
  cid : Nat
  nsid : Nat := 0
  fctype : Nat := 0
  cdw10 : Nat := 0
  cdw11 : Nat := 0
  cdw12 : Nat := 0
  cdw13 : Nat := 0
  cdw14 : Nat := 0
  cdw15 : Nat := 0
  /-- FUSE of Dword 0: 0 for a normal command (R143). -/
  fuse : Nat := 0
  data : List Byte := []
  deriving DecidableEq, Repr

/-- The options of a received SYN, its window and whether it offers ECN (R134). -/
structure TcpOpts where
  mss : Option Nat := none
  wscale : Option Nat := none
  tsval : Option Nat := none
  sackOk : Bool := false
  ecn : Bool := false
  wnd : Nat := 65535
  deriving DecidableEq, Repr

/-- A received TCP segment for a context, without a PDU's in-order data (R134): its acknowledgement and window field, its
SACK blocks, ECE, CWR and the CE mark of its packet, its timestamp, the round trip it measures in ms, and the sequence
number and length of data that arrives out of order. -/
structure AckSeg where
  ack : Nat
  wnd : Nat := 65535
  sack : List (Nat × Nat) := []
  ece : Bool := false
  cwr : Bool := false
  ce : Bool := false
  tsval : Option Nat := none
  rtt : Option Nat := none
  data : Option (Nat × Nat) := none
  deriving DecidableEq, Repr

/-- What the host engine learns of a received Ethernet frame (R130, R132, R133). -/
structure EthFrame where
  /-- The frame from its destination MAC address, without its FCS. -/
  bytes : List Byte
  fcsOk : Bool := true
  /-- Clause 31 PAUSE with its time, in quanta. -/
  pause : Option Nat := none
  /-- The 802.1Q tag's VLAN identifier, and whether a second tag follows it. -/
  vlan : Option Nat := none
  secondTag : Bool := false
  /-- The IPv4 header checksum, or the TCP checksum of a segment for hardware, is right. -/
  sumOk : Bool := true
  /-- Addressed to the port: its MAC address, broadcast, or a group it listens to. -/
  forPort : Bool := true
  /-- A TCP segment for a listener or a context. -/
  hardware : Bool := false
  /-- An IPv4 fragment or an IPv6 packet with a Fragment or other extension header. -/
  fragment : Bool := false
  /-- IPv4 options. -/
  options : Bool := false
  /-- ICMP Fragmentation Needed or Packet Too Big for a context: its number and the path MTU. -/
  pmtu : Option (Nat × Nat) := none
  /-- FEC codewords corrected and not correctable since the last frame (R158). -/
  fecCorr : Nat := 0
  fecUncorr : Nat := 0
  deriving DecidableEq, Repr

/-- The format record that firmware keeps (R145, R149, R166, R467): the actuators in its list, the zones of each
actuator, their capacities and surfaces, the conventional capacity of each actuator in blocks, the surfaces of
conventional 256 MiB units by namespace and unit, and the LBA format of each namespace. Lists are in order; capacities
and surfaces not listed are 65,536 blocks and head 0. -/
structure Fmt where
  /-- NS_LAYOUT of the configuration block. -/
  layout : Nat := 0
  acts : List Nat := []
  zones : List Nat := []
  zcap : List (Nat × Nat) := []
  heads : List (Nat × Nat) := []
  conv : List Nat := []
  cheads : List ((Nat × Nat) × Nat) := []
  lbaf : List (Nat × Nat) := []
  deriving DecidableEq, Repr

/-- An NVMe-MI or MCTP control message received over SMBus, reassembled (R157). -/
structure MiMessage where
  /-- 0 MCTP control, 1 NVMe-MI command, 2 tunnelled admin command. -/
  kind : Nat
  /-- The 7-bit SMBus address it is sent to. -/
  addr : Nat := 0x1D
  opcode : Nat
  dword0 : Nat := 0
  dword1 : Nat := 0
  size : Nat := 0
  pecOk : Bool := true
  /-- The controller addressed. -/
  ctrl : Nat := 0
  /-- The admin command of a tunnelled message. -/
  admin : Option Capsule := none
  deriving DecidableEq, Repr

/-- A link frame (R202–R204): header, payload bytes, CRC, AUX and MARKER. On the line, and so in a command, the first three
are scrambled. -/
structure LinkFrame where
  header : Nat
  payload : List Byte
  crc : Nat
  aux : Nat := 0
  marker : Nat
  deriving DecidableEq, Repr

/-- A cell of the write stream (R276, R280): channel bit `k` of a fragment of an armed sector, or a cell that writes nothing,
with the level the lane gives it. -/
inductive WCell where
  | gap (level : Bool)
  | bit (slot : Fin 2048) (frag : Fin 4) (k : Nat)
  deriving DecidableEq, Repr

/-- What a sync search is for (R246, R266, R286, R443): a sector of a lane's read operation, a written sector at the verify
reader or in read-back, a deferred-decode entry's new search, or the entry that a lane replays. -/
inductive SyncFor where
  | read (n : Fin 4) (slot : Nat)
  | verify (n : Fin 4) (slot : Nat)
  | deferred (entry : Nat)
  | replay
  deriving DecidableEq, Repr

/-- A microword as the control store holds it, but for its operation (R378), and what its SECDED showed (R388). -/
structure MWord where
  opd : Fin 2097152
  wait : Fin 4
  cond : Fin 64
  next : Fin 8192
  err : MemErr := .good
  deriving DecidableEq, Repr

/-- An accelerometer's three axes as read, 16-bit two's complement (R314). -/
structure AccRaw where
  x : Int
  y : Int
  z : Int
  deriving DecidableEq, Repr

/-- What the power driver measures for a status frame (R332): VCM current, spindle speed, bits [4:0] of byte 7, and
whether the heads are on the ramp. -/
structure DrvMeas where
  vcmI : Fin 65536
  spin : Fin 65536
  flags : Fin 32
  parked : Bool
  deriving DecidableEq, Repr
/-- Where a loop tick of an actuator falls (R285, R346, R348, R360): the frames to the next gated cell and those since the last
one, while there are any; the µs to the operation's first gated cell, 0 from then on, and whether its last one has passed; in a
keep-out, in a gap between gated runs that holds one, in a tick in which a gated cell reaches the writer, at the end of a servo
field that is a boundary. -/
structure TickIn where
  next : Option Nat := none
  since : Option Nat := none
  first : Option Nat := none
  done : Bool := false
  keepout : Bool := false
  gapKeepout : Bool := false
  gated : Bool := false
  boundary : Bool := false
  deriving DecidableEq, Repr

/-- A command to the block. -/
inductive Instr where
  /-- CORE_POWER_UP (R61): VDD_CORE rises through 60 % of nominal and the whole device is reset, including the timebase. -/
  | corePowerUp (torn : List Nat) (old : List Nat) (levels : Fin 128)
  /-- SUPPLY_MONITOR_TRIP (R52): A monitored rail stays below 92 % of nominal for 0.5 µs and starts the power-fail sequence with cause MONITOR. -/
  | supplyMonitorTrip (rail : Fin 3)
  /-- PWR_FAIL_N_LOW (R63): PWR_FAIL_N has been low for 1.0 µs and the power-fail sequence is recognized. -/
  | pwrFailNLow (low : Bool) (recognized : Bool)
  /-- RESET_ENTERED (R63): 45–55 µs after recognition the device enters reset with Tandem lanes silent and outputs in their reset state. -/
  | resetEntered
  /-- RESTART (R63): 10 ms after PWR_FAIL_N is high and the cause has gone, with rails up, the device leaves reset. -/
  | restart
  /-- REFERENCE_LOSS (R54): The CLK_REF count per CLK_AON cycle falls below 2,000; the power-fail sequence runs and reset follows with cause REFLOSS. -/
  | referenceLoss
  /-- REFERENCE_RETURN (R54): The CLK_REF count has been within ±1 % of nominal for 1 ms and the device leaves reference-loss reset. -/
  | referenceReturn
  /-- AON_XTAL_TIMEOUT (R55): No 32.768 kHz oscillation is found within 500 ms and CLK_AON runs from the internal oscillator. -/
  | aonXtalTimeout
  /-- CRYSTAL_START (R55): A crystal that starts late is taken into use without shortening or repeating a CLK_AON cycle. -/
  | crystalStart
  /-- THERMAL_SAMPLE (R58): Every 1 ms the eight sensors are sampled and TMAX is updated. -/
  | thermalSample (temps : List Int)
  /-- THERMAL_TRIP_RELEASE (R60): TMAX has read below +110.0 °C for 1 s and the device leaves thermal reset. -/
  | thermalTripRelease
  /-- WATCHDOG_TIMEOUT (R68): No kick arrives within TIMEOUT while the watchdog is enabled and the device resets with cause WDOG. -/
  | watchdogTimeout
  /-- WDOG_KICK (R68): A write of 0x6B1D to SYS_WDOG_KICK restarts the watchdog count with the TIMEOUT now held. -/
  | wdogKick (value : Nat)
  /-- WDOG_CFG_WRITE (R68): A write to SYS_WDOG_CFG sets TIMEOUT and, on setting ENABLE, starts the first timeout and locks ENABLE. -/
  | wdogCfgWrite (value : Nat)
  /-- SOFT_RST (R67): A write of SOFT_RST with KEY 0x5A starts a soft reset through the power-fail sequence; another KEY only makes a record. -/
  | softRst (value : Nat)
  /-- RST_N_LOW (R62): RST_N low for 100 ns resets the device after the MRAM burst in flight completes. -/
  | rstNLow
  /-- RST_N_RELEASE (R70): Reset is released; only hart 0 runs from the boot ROM and every other hart is held. -/
  | rstNRelease
  /-- PLLS_LOCKED (R62): The PLLs report lock after reset release and boot may start. -/
  | pllsLocked
  /-- JTAG_TRST (R61): JTAG_TRST_N low resets the TAP controller only. -/
  | jtagTrst (low : Bool)
  /-- CORE_RUN (R70): Setting or clearing a CORE_RUN bit releases a hart at its SYS_HARTBOOT address or stops it after its current instruction. -/
  | coreRun (cluster : Fin 8) (core : Fin 8) (run : Bool)
  /-- ISOLATE (R71): Setting or clearing CLU_CTL.ISOLATE fences a cluster from the fabric or lifts the fence within 2 µs. -/
  | isolate (cluster : Fin 8) (on : Bool)
  /-- MTIMECMP_WRITE (R73): A write to the high word of SYS_MTIMECMPh makes the new compare value take effect. -/
  | mtimecmpWrite (hart : Fin 64) (high : Nat)
  /-- MACHINE_TIMER_INTERRUPT (R73): The monotonic timebase reaches a hart's compare value and its machine timer interrupt becomes pending. -/
  | machineTimerInterrupt (hart : Fin 64)
  /-- L2_READ_MISS (R77): A read miss starts a fill, merges with a fill in flight or waits behind the requester's outstanding miss. -/
  | l2ReadMiss (cluster : Fin 8) (req : Fin 16) (addr : Nat) (size : Fin 4) (l1Parity : Bool) (tag : Option (Fin 16)) (err : MemErr)
  /-- L2_FILL_RETURN (R79): Fill data returns, a victim is chosen under the mask then in force and the line is allocated or not. -/
  | l2FillReturn (cluster : Fin 8) (addr : Nat) (pick : Nat) (l1Way : Option (Fin 4)) (err : MemErr)
  /-- L2_STORE (R78): A store goes to memory, updates a hit line and merges into a fill in flight. -/
  | l2Store (cluster : Fin 8) (core : Fin 8) (addr : Nat) (bytes : List Byte) (err : L2Err)
  /-- L2_HIT (R80): A lookup hits and correctable or uncorrectable errors are handled and counted. -/
  | l2Hit (cluster : Fin 8) (req : Fin 16) (addr : Nat) (size : Fin 4) (l1Parity : Bool) (err : L2Err) (mem : MemErr) (l1Way : Option (Fin 4))
  /-- L2_DISABLE (R82): Writing L2_CTL.ENABLE 0 invalidates every line and sends all accesses to memory. -/
  | l2Disable (cluster : Fin 8)
  /-- L2_ENABLE (R82): Writing L2_CTL.ENABLE 1 starts the cache empty. -/
  | l2Enable (cluster : Fin 8)
  /-- CBO_INVAL (R79): cbo.inval or cbo.flush invalidates a line and makes a fill in flight deliver without allocating. -/
  | cboInval (cluster : Fin 8) (addr : Nat)
  /-- CBO_CLEAN (R83): cbo.clean waits until the hart's earlier stores have reached memory. -/
  | cboClean (hart : Fin 64) (addr : Nat) (op : FenceOp)
  /-- ATOMIC_OPERATION (R84): An atomic operation or LR/SC is performed at the memory controller after invalidating the cluster's copy. -/
  | atomicOperation (hart : Fin 64) (op : AmoOp) (wide : Bool) (addr : Nat) (value : Nat) (err : MemErr)
  /-- REGISTER_WRITE (R97): A write to a register with no behaviour of its own is performed under the access-type, width and alignment rules. -/
  | registerWrite (source : Fin 64) (a : BitVec 40) (size : Fin 4) (v : BitVec 64)
  /-- COUNTER_LOW_READ (R98): A read of a designated 64-bit counter's low word snapshots the counter and latches its high word. -/
  | counterLowRead (source : Fin 64) (a : BitVec 40) (wide : Bool)
  /-- IND_ADDR_WRITE (R101): A write to IND_ADDR, served in turn, selects space, unit and offset and clears TIMEOUT. -/
  | indAddrWrite (c : Fin 8) (source : Fin 128) (v : BitVec 32)
  /-- IND_DATA_READ (R99): A read of IND_DATA performs one indirect read at the selected place and advances the offset. -/
  | indDataRead (c : Fin 8) (source : Fin 128)
  /-- IND_DATA_WRITE (R99): A write of IND_DATA performs one indirect write at the selected place and advances the offset. -/
  | indDataWrite (c : Fin 8) (source : Fin 128) (v : BitVec 32)
  /-- IND_TIMEOUT (R100): An indirect access gets no answer within 4 µs, returns 0xFFFF_FFFF and sets TIMEOUT. -/
  | indTimeout (c : Fin 8)
  /-- BUS_TIMEOUT (R102): A direct access outside the IND bridge has no answer within 10 µs and gets an error response of kind BUS_TIMEOUT. -/
  | busTimeout (source : Fin 65) (a : BitVec 40) (size : Fin 4) (write : Bool)
  /-- DRAM_SCRUB (R88): The DRAM scrubber reads each usable block once per period and corrects or counts errors. -/
  | dramScrub (corrected : List Nat) (bad : List Nat)
  /-- MRAM_SCRUB (R89): The MRAM scrubber rewrites every block at least once every 30 days. -/
  | mramScrub (corrected : List Nat) (bad : List Nat)
  /-- DRAM_CFG_LOCK (R103): Writing SYS_DRAM_CFG.LOCKED 1 with a valid configuration fixes RATE and CAP and puts DRAM in service. -/
  | dramCfgLock (value : Nat)
  /-- MRAM_REGION_LOCK (R90): Writing SYS_MRAM_REGION.LOCKED 1 fixes the MRAM regions and lets Caisson and the Strata mirror start. -/
  | mramRegionLock (value : Nat)
  /-- BOOT_SEQUENCE (R113): The boot ROM chooses slots, verifies, loads and hands over to firmware, or reports a boot failure. -/
  | bootSequence (trains : Fin 4) (copies : Fin 4) (time : Nat)
  /-- FLASH_TIMEOUT (R105): A flash command gets no answer within 10 ms and the slot fails with code 0xC. -/
  | flashTimeout (slot : Fin 2)
  /-- BOOT_RETRY (R119): 1 s after a failed boot round the whole sequence is retried, and after the third failure the device halts. -/
  | bootRetry
  /-- OSPI_COMMAND (R128): Writing SYS_OSPI_CMD.GO starts a flash command, or is discarded with a record while BUSY. -/
  | ospiCommand (value : Nat)
  /-- OSPI_DATA_READ (R127): A read of SYS_OSPI_DATA removes 4 bytes from the FIFO. -/
  | ospiDataRead (source : Fin 128)
  /-- OSPI_DATA_WRITE (R127): A write of SYS_OSPI_DATA appends 4 bytes to the FIFO. -/
  | ospiDataWrite (value : BitVec 32)
  /-- HEAD_DISCOVERY (R124): Firmware releases a preamplifier, waits for lock and reads its identity and head status to class the actuator. -/
  | headDiscovery (n : Fin 4) (step : Fin 4) (head : Fin 8)
  /-- LINK_UP (R129): Auto-negotiation and training finish and a host port's link comes up at the highest common rate. -/
  | linkUp (port : Fin 2) (partner : Nat) (rs528 : Bool) (baseR : Bool)
  /-- LINK_DOWN (R131): A host port loses PCS lock and its link goes down. -/
  | linkDown (port : Fin 2)
  /-- PORT_FAILED (R131): The link has stayed down for 2 s; the port is failed and every context on it is ended. -/
  | portFailed (port : Fin 2)
  /-- FRAME_RECEIVE (R130): An Ethernet frame is received, filtered and passed to hardware TCP or the slow-path ring, or dropped. -/
  | frameReceive (port : Fin 2) (frame : EthFrame)
  /-- SLOW_PATH_TRANSMIT (R133): Firmware advances the transmit FW_IDX and the hardware sends the slow-path frames passed. -/
  | slowPathTransmit (fwIdx : Fin 1024)
  /-- SYN (R135): A SYN to a listener takes a connection context or is answered with RST when none is free. -/
  | syn (port : Fin 2) (entry : Fin 6) (disc : Bool) (mac : Nat) (ip : Nat) (peerPort : Nat) (isn : Nat) (opts : TcpOpts)
  /-- TCP_ACK (R134): A TCP acknowledgement arrives and frees acknowledged read data's staging buffer. -/
  | tcpAck (ctx : Nat) (seg : AckSeg)
  /-- RETRANSMISSION_TIMEOUT (R134): The TCP retransmission timer expires and the segment is resent. -/
  | retransmissionTimeout (ctx : Nat)
  /-- USER_TIMEOUT (R134): A segment stays unacknowledged for 30 s or 15 retransmissions and the connection is reset. -/
  | userTimeout (ctx : Nat)
  /-- DELAYED_ACK (R134): The 0.5 ms delayed-ACK timer expires and an acknowledgement is sent. -/
  | delayedAck (ctx : Nat)
  /-- TCP_FIN_RST (R152): A TCP FIN or RST from the host ends the connection. -/
  | tcpFinRst (ctx : Nat) (rst : Bool)
  /-- ICREQ (R137): An ICReq PDU is received and answered with ICResp under the transport choices. -/
  | icreq (ctx : Nat) (pfv : Nat) (hpda : Nat) (maxR2t : Nat) (hdgst : Bool) (ddgst : Bool)
  /-- ICREQ_TIMEOUT (R135): No ICReq within 10 s of opening, or no Connect within 10 s of ICResp, resets the connection. -/
  | icreqTimeout (ctx : Nat)
  /-- CONNECT (R136): A Fabrics Connect creates an admin, discovery or I/O queue or completes with an error status. -/
  | connect
  /-- CAPSULE_CMD (R136): A CapsuleCmd PDU is received and buffered in its context until intake. -/
  | capsuleCmd (ctx : Nat) (capsule : Capsule) (hdrOk : Bool) (dataOk : Bool)
  /-- H2C_DATA (R140): An H2CData PDU is received and its data placed into the write's reserved journal space. -/
  | h2cData (ctx : Nat) (cid : Nat) (tag : Nat) (off : Nat) (bytes : List Byte) (hdrOk : Bool) (dataOk : Bool)
  /-- H2C_TERM_REQ (R138): An H2CTermReq from the host ends the connection. -/
  | h2cTermReq (ctx : Nat)
  /-- HOST_DATA_TIMEOUT (R141): An R2T's data has not all arrived within 4 s and the connection is ended. -/
  | hostDataTimeout (ctx : Nat) (tag : Nat)
  /-- KEEP_ALIVE_EXPIRY (R153): No command arrives on a controller within KATO and the controller is ended. -/
  | keepAliveExpiry (ctrl : Nat)
  /-- DISCOVERY_IDLE_CLOSE (R154): A discovery connection with KATO 0 is closed 60 s after its last command. -/
  | discoveryIdleClose (ctx : Nat)
  /-- CDC_REGISTRATION (R155): Firmware registers, updates or deregisters the device's entries with a centralized discovery controller. -/
  | cdcRegistration (cdc : Fin 2) (task : Nat)
  /-- CDC_RETRY (R155): After a lost CDC connection the registration is retried with a doubling wait of up to 64 s. -/
  | cdcRetry (cdc : Fin 2) (succeeds : Bool)
  /-- NVME_MI_MESSAGE (R157): An NVMe-MI message over MCTP over SMBus is reassembled and answered within 1 s. -/
  | nvmeMiMessage (m : MiMessage)
  /-- PORT_ENABLE (R158): Setting HOST_CTL.Pp_EN starts auto-negotiation on a port. -/
  | portEnable (port : Fin 2)
  /-- PORT_DISABLE (R158): Clearing HOST_CTL.Pp_EN fails the port at once. -/
  | portDisable (port : Fin 2)
  /-- ADDRESS_ENTRY_CLEAR (R152): Clearing VALID of an address entry ends every connection on it. -/
  | addressEntryClear (port : Fin 2) (entry : Fin 6)
  /-- ANATT_EXPIRY (R151): 40 s after a group entered Change, an actuator not back in service is declared UNAVAILABLE. -/
  | anattExpiry (group : Nat)
  /-- PROPERTY_GET (R143): The Fabrics Property Get command returns a controller property. -/
  | propertyGet
  /-- PROPERTY_SET (R143): The Fabrics Property Set command writes a controller property. -/
  | propertySet
  /-- CONTROLLER_RESET (R184): Property Set of CC.EN to 0 ends every queue of the controller. -/
  | controllerReset
  /-- SHUTDOWN (R184): Property Set of CC.SHN stops intake for the controller's queues. -/
  | shutdown
  /-- SHUTDOWN_COMPLETE (R184): Every command of a shutting-down controller has committed, completed or been discarded and CSTS.SHST reads complete. -/
  | shutdownComplete (ctrl : Nat)
  /-- DISCONNECT (R152): The Fabrics Disconnect command ends the connection. -/
  | disconnect
  /-- IDENTIFY (R142): The Identify command returns controller or namespace data. -/
  | identify
  /-- GET_LOG_PAGE (R144): The Get Log Page command returns a supported log page as one snapshot. -/
  | getLogPage
  /-- DISCOVERY_LOG (R154): Get Log Page 70h on a discovery controller returns the subsystem and discovery entries. -/
  | discoveryLog
  /-- STRATA_WINDOW_LOG (R433): Log 0xC3 at offset 0 takes a new mirror snapshot, and at later offsets continues it. -/
  | strataWindowLog
  /-- CAPTURE_INDEX_LOG (R442): Log 0xC4 with LSP 0 returns the capture header and stream descriptors. -/
  | captureIndexLog
  /-- CAPTURE_STREAM_LOG (R442): Log 0xC4 with LSP 1–4 reads a frozen stream's items or fails for a running one. -/
  | captureStreamLog
  /-- REPLAY_OUTPUT_LOG (R442): Log 0xC4 with LSP 5 reads the output area of the last replay. -/
  | replayOutputLog
  /-- SET_FEATURES (R144): Set Features writes a supported feature, or fails with Save set. -/
  | setFeatures
  /-- POWER_MANAGEMENT (R187): Set Features Power Management selects a power state and starts its entry or exit. -/
  | powerManagement
  /-- KEEP_ALIVE_TIMER (R153): Set Features Keep Alive Timer sets KATO, rounding or rejecting values. -/
  | keepAliveTimer
  /-- SET_TIMESTAMP (R434): Set Features Timestamp sets the wall clock and opens a new epoch. -/
  | setTimestamp
  /-- GET_FEATURES (R144): Get Features returns a supported feature's value. -/
  | getFeatures
  /-- GET_TIMESTAMP (R434): Get Features Timestamp returns WALL_NOW with its origin. -/
  | getTimestamp
  /-- KEEP_ALIVE (R153): The Keep Alive command restarts the controller's keep-alive timer. -/
  | keepAlive
  /-- ASYNCHRONOUS_EVENT_REQUEST (R148): An Asynchronous Event Request is held until an event is posted to it. -/
  | asynchronousEventRequest
  /-- ABORT (R183): Abort aborts the named command if it has not taken effect, else reports it not aborted. -/
  | abort
  /-- FIRMWARE_IMAGE_DOWNLOAD (R146): Firmware Image Download writes image data into the slot that is not running. -/
  | firmwareImageDownload
  /-- FW_COMMIT_STORE (R146): Firmware Commit CA 000b verifies and stores the image in the slot. -/
  | fwCommitStore
  /-- FW_COMMIT_STORE_TRIAL (R146): Firmware Commit CA 001b stores the image and names the slot for trial at the next reset. -/
  | fwCommitStoreTrial
  /-- FW_COMMIT_TRIAL (R146): Firmware Commit CA 010b names an existing slot for trial at the next reset. -/
  | fwCommitTrial
  /-- FW_COMMIT_ACTIVATE (R186): Firmware Commit CA 011b activates an existing slot without reset. -/
  | fwCommitActivate
  /-- SEC_SEND_NONCE (R463): Security Send SPSP 0x0001 holds a 32-byte nonce for the controller. -/
  | secSendNonce
  /-- SEC_SEND_KEY_MGMT (R463): Security Send SPSP 0x0003 submits a key management object. -/
  | secSendKeyMgmt
  /-- SEC_SEND_TOKEN (R463): Security Send SPSP 0x0004 submits a debug or RMA token. -/
  | secSendToken
  /-- SEC_RECV_PROTOCOLS (R463): Security Receive SECP 0x00 returns the supported protocols. -/
  | secRecvProtocols
  /-- SEC_RECV_REPORT (R463): Security Receive SPSP 0x0001 returns a report signed over the held nonce, which is consumed. -/
  | secRecvReport
  /-- SEC_RECV_CERTIFICATE (R463): Security Receive SPSP 0x0002 returns the identity certificate. -/
  | secRecvCertificate
  /-- SEC_RECV_CHALLENGE (R463): Security Receive SPSP 0x0004 returns the present challenge. -/
  | secRecvChallenge
  /-- DEVICE_SELF_TEST (R143): The Device Self-test command runs and reports a device self-test. -/
  | deviceSelfTest (result : Nat)
  /-- FORMAT_NVM (R185): Format NVM is taken in and I/O to its namespace completes with Format In Progress until it completes. -/
  | formatNvm
  /-- FORMAT_TAKES_EFFECT (R185): Format NVM takes effect after earlier commands, freeing every record and resetting every zone. -/
  | formatTakesEffect (seq : Nat)
  /-- READ (R162): The Read command reads blocks from the journal, staging buffers or medium in intake order. -/
  | read
  /-- WRITE (R163): The Write command is checked against the intake write pointer and reserves journal space. -/
  | write
  /-- FLUSH (R182): The Flush command waits for earlier write-pool commands of its namespace. -/
  | flush
  /-- FLUSH_COMPLETE (R182): Every earlier write-pool command of the namespace has taken effect or been discarded and Flush completes. -/
  | flushComplete (seq : Nat)
  /-- WRITE_ZEROES (R170): The Write Zeroes command reserves entry records without data slots. -/
  | writeZeroes
  /-- VERIFY (R162): The Verify command reads and checks blocks without transferring data. -/
  | verify
  /-- ZONE_APPEND (R163): Zone Append is given its LBA at the intake write pointer. -/
  | zoneAppend
  /-- ZONE_CLOSE (R180): Zone Management Send Close closes a zone or fails on a state that forbids it. -/
  | zoneClose
  /-- ZONE_FINISH (R172): Zone Management Send Finish makes a zone Full without voiding its records. -/
  | zoneFinish
  /-- ZONE_OPEN (R178): Zone Management Send Open explicitly opens a zone within the open and active limits. -/
  | zoneOpen
  /-- ZONE_RESET (R193): Zone Management Send Reset voids the zone's records and resolves its deferred errors. -/
  | zoneReset
  /-- ZONE_OFFLINE (R181): Zone Management Send Offline takes a Read Only zone offline and frees its records. -/
  | zoneOffline
  /-- SET_ZONE_DESCRIPTOR_EXT (R180): Zone Management Send Set Zone Descriptor Extension completes with Invalid Field in Command. -/
  | setZoneDescriptorExt
  /-- ZONE_MANAGEMENT_RECEIVE (R143): Zone Management Receive returns the zone report. -/
  | zoneManagementReceive
  /-- INTAKE (R159): A buffered capsule finds a free command slot, is stamped with the next intake number and checked against zone state. -/
  | intake (ctx : Nat)
  /-- JOURNAL_RESERVATION (R170): A waiting write-pool command is granted its entry records and data slots in intake order. -/
  | journalReservation
  /-- READ_SOURCE_CHOICE (R162): Once overlapping earlier writes have taken effect, a read chooses the source of each block. -/
  | readSourceChoice (seq : Nat)
  /-- RECOVERY_COMPLETE (R174): Journal recovery ends, CMD_STATE.RECOVERED reads 1 and intake may start. -/
  | recoveryComplete (fmt : Fmt) (allowed : List Nat)
  /-- PAUSE (R186): Writing CMD_CTL.PAUSE stops or restarts intake for firmware activation. -/
  | pause (on : Bool)
  /-- PAUSE_EXPIRY (R186): PAUSE has been set for 1 ms and the command engine clears it and makes a record. -/
  | pauseExpiry
  /-- POWER_STATE_ENTRY (R187): At the decision to enter PS1–PS4, new track operations stop and STOP is set on idled actuators. -/
  | powerStateEntry (active : List (Fin 4))
  /-- SAFE_POINT (R187): A power-state entry reaches a safe point, where it continues or is abandoned. -/
  | safePoint
  /-- POWER_STATE_EXIT (R188): An exit from a power state completes and the device rests in the operational state. -/
  | powerStateExit
  /-- SCHEDULER_DISPATCH (R194): An actuator's scheduler starts its next track operation from the window under ageing and destage rules. -/
  | schedulerDispatch (n : Fin 4) (pick : Nat)
  /-- AGE_BOUND_EXCEEDED (R195): A command's media work exceeds 2 s; a record is made and the rank 5 breach count rises. -/
  | ageBoundExceeded (seq : Nat)
  /-- PATROL_PASS (R196): Patrol reads each Full, Closed and conventional zone per period and flags weak zones. -/
  | patrolPass (n : Fin 4)
  /-- UPSTREAM_FRAME (R210): An upstream HSL frame is received, checked and its samples, erasure marks and AUX unit delivered. -/
  | upstreamFrame (n : Fin 4) (lane : Fin 3) (frame : LinkFrame) (dropped dropA dropB : Nat)
  /-- DOWNSTREAM_FRAME (R212): Every 20 ns the controller sends a downstream frame with write symbols, demands and a control word. -/
  | downstreamFrame (n : Fin 4) (cells : List WCell) (next : Bool) (sbr ratio : Nat)
  /-- PA_DOWNSTREAM_FRAME (R214): The preamplifier receives a downstream frame and applies its demands, head and write symbols. -/
  | paDownstreamFrame (n : Fin 4) (frame : LinkFrame) (emitted : Nat) (settled : Bool)
  /-- PA_REQUEST (R220): The preamplifier receives a control request and replies with the same TAG within 1.5 µs. -/
  | paRequest (n : Fin 4)
  /-- CONTROL_REQUEST (R221): The HSL block serves a preamplifier register access by sending a control request. -/
  | controlRequest (n : Fin 4)
  /-- CONTROL_REPLY (R221): A control-frame reply arrives and completes the access, or is discarded as duplicate or late. -/
  | controlReply (n : Fin 4)
  /-- CONTROL_RESEND (R221): No reply within 1.8 µs and the request is resent once with the same TAG. -/
  | controlResend (n : Fin 4)
  /-- CONTROL_GIVE_UP (R221): No reply 1.8 µs after the resend and the access completes as a timeout. -/
  | controlGiveUp (n : Fin 4)
  /-- PA_STATUS (R219): A STATUS control frame arrives and updates HSL_PA_STAT and the safe and abort views. -/
  | paStatus (n : Fin 4)
  /-- PA_SENSE (R219): A SENSE control frame arrives with assist and heater sense values. -/
  | paSense (n : Fin 4)
  /-- LANE_ACQUIRED (R222): An upstream lane finds MARKER 8 times in a row and enters TRAIN. -/
  | laneAcquired (n : Fin 4) (lane : Fin 3)
  /-- LANE_UP (R222): A lane completes training and becomes UP. -/
  | laneUp (n : Fin 4) (lane : Fin 4)
  /-- LANE_LOST (R222): A lane leaves UP on missing markers, errored frames or CDR unlock, and reacquires. -/
  | laneLost (n : Fin 4) (lane : Fin 4)
  /-- LANE_FAILED (R222): A lane not UP within its lock bound becomes FAILED. -/
  | laneFailed (n : Fin 4) (lane : Fin 4)
  /-- HSL_EN (R232): Writing HSL_CTL.EN starts or stops training of HSLn.D and puts every lane OFF when cleared. -/
  | hslEn (n : Fin 4) (on : Bool)
  /-- PA_RUN (R227): Writing HSL_CTL.PA_RUN drives PAn_RST_N high or low. -/
  | paRun (n : Fin 4) (on : Bool)
  /-- MGT_SAFE (R226): Writing HSL_CTL.MGT_SAFE pulls or releases PAn_MGT. -/
  | mgtSafe (n : Fin 4) (on : Bool)
  /-- RX_EN (R222): Writing an RX_EN bit turns an upstream receiver on or off, restarting a FAILED lane. -/
  | rxEn (n : Fin 4) (lane : Fin 3) (on : Bool)
  /-- PA_FAULT_N (R227): PAn_FAULT_N changes level and PA_FAULT follows. -/
  | paFaultN (n : Fin 4) (faults : Fin 32)
  /-- SYNC_WINDOW_END (R247): At the end of the sync window the lane forms and ranks a sector's candidates. -/
  | syncWindowEnd (f : SyncFor)
  /-- DECODER_GRANT (R259): A free Garnet decoder is granted to the highest-class waiting request. -/
  | decoderGrant
  /-- GLOBAL_ITERATION_END (R257): A decoder finishes a global iteration and the decode stops at syndrome zero or its limit. -/
  | globalIterationEnd (k : Fin 12)
  /-- POSITION_RECORD (R251): A per-wedge position record arrives at a lane or sequencer and updates IN and IN_W judgements. -/
  | positionRecord (x : Fin 2) (n : Fin 4)
  /-- SAMPLE_MEMORY_TIMEOUT (R260): An unresolved sector's samples would be overwritten or 8 sector times pass and it fails on the fly. -/
  | sampleMemoryTimeout (n : Fin 4) (slot : Fin 2048)
  /-- VERIFY_TIMEOUT (R288): An unresolved verify decode reaches its sample memory bound and the sector is classed FAIL. -/
  | verifyTimeout (n : Fin 4) (slot : Fin 2048)
  /-- DEFERRED_DECODE_TIMEOUT (R266): A deferred decode not resolved within 50 ms ends and its entry awaits re-read. -/
  | deferredDecodeTimeout (e : Fin 4096)
  /-- DDB_RD_ADVANCE (R264): Firmware advances CHAN_DDB_RD, freeing entries and abandoning any not final. -/
  | ddbRdAdvance (rd : Fin 4096) (ended : Bool)
  /-- DDB_CFG_WRITE (R272): A write to CHAN_DDB_BASE or CHAN_DDB_CFG takes effect, or while DDB_EN is 1 is discarded with a record. -/
  | ddbCfgWrite (base : Bool) (v : BitVec 32)
  /-- ACCELEROMETER_PERIOD (R314): Every PERIOD µs the enabled accelerometers are read and a sample set is delivered. -/
  | accelerometerPeriod (r0 r1 : AccRaw)
  /-- ACCEL_INT (R296): An enabled ACCEL_INTx input rises or falls, holding the shock inhibit while high. -/
  | accelInt (input : Fin 2) (high : Bool)
  /-- SHOCK_HOLD_END (R297): SHOCK_HOLD passes after the last input and the inhibit ends, restarting write streams. -/
  | shockHoldEnd
  /-- SHOCK_EN (R299): Writing WRn_CTL.SHOCK_EN takes effect at once for that actuator. -/
  | shockEn (n : Fin 4) (on : Bool)
  /-- WEDGE_COMPUTATION (R312): At the end of a burst window each island demodulates the wedge, computes the law and prepares the output frame. -/
  | wedgeComputation (x : Fin 2) (n : Fin 4) (samTime : Nat) (late : Bool) (err : MemErr)
  /-- DEADLINE_CUTOFF (R326): 0.50 µs after the burst window an incomplete output is sent as a MISSED frame. -/
  | deadlineCutoff (x : Fin 2) (n : Fin 4)
  /-- PARKED_COMMAND (R317): A write to BAS_ACTn_CMD with MODE PARKED arms a park command. -/
  | parkedCommand (x : Fin 2) (n : Fin 4) (bank now : Bool) (apply : Fin 1024)
  /-- MANUAL_COMMAND (R317): A write to BAS_ACTn_CMD with MODE MANUAL arms a manual command. -/
  | manualCommand (x : Fin 2) (n : Fin 4) (bank now : Bool) (apply : Fin 1024)
  /-- SEEK_COMMAND (R317): A write to BAS_ACTn_CMD with MODE SEEK arms a seek command. -/
  | seekCommand (x : Fin 2) (n : Fin 4) (bank now : Bool) (apply : Fin 1024)
  /-- SPINDLE_FRAME (R330): Every 1.0 ms each island sends a spindle frame carrying BAS_SPIN_CMD. -/
  | spindleFrame (x : Fin 2)
  /-- FREE_RUNNING_FRAME (R325): A parked or hunting-manual actuator's frame is sent at the nominal wedge period. -/
  | freeRunningFrame (x : Fin 2) (n : Fin 4)
  /-- STATUS_FRAME (R332): A Tandem status frame arrives on TLS and is delivered to the registers and island A. -/
  | statusFrame (good : Bool)
  /-- DRIVER_FRAME (R331): The power driver accepts a valid frame, or drops and compares a duplicate. -/
  | driverFrame (lane : Fin 2) (good : Bool) (m : DrvMeas)
  /-- DRIVER_FRAME_TIMEOUT (R331): No valid frame for an actuator for 2.0 ms and the driver retracts it. -/
  | driverFrameTimeout (n : Fin 4)
  /-- DRIVER_STATUS_PERIOD (R331): Every 1.0 ms the driver sends a status frame for each actuator it serves. -/
  | driverStatusPeriod (m : List DrvMeas)
  /-- BAS_CFG_LOCK (R338): Writing BAS_CFG.LOCKED 1 with valid values fixes WEDGES and RPM and computes N. -/
  | basCfgLock (x : Fin 2) (wedges : Fin 2048) (rpm : Fin 8192)
  /-- LOOP_TICK (R343): Every 1.0 µs each assist and heater loop updates its set-point, integrator and demand. -/
  | loopTick (ins : List TickIn)
  /-- HEATER_RECORD_TIMEOUT (R346): No position record for 4 wedge periods disables the heater loop. -/
  | heaterRecordTimeout (n : Fin 4)
  /-- T_D_UPDATE (R354): Every 100 ms the drive temperature is updated from override, sensors or held. -/
  | tDUpdate
  /-- I3C_SENSOR_READ (R355): An enabled I3C sensor is read once per period and its validity updated. -/
  | i3cSensorRead (k : Fin 4) (raw : Option (BitVec 16))
  /-- I3C_EN (R355): Setting I3C_CTL.EN sends SETDASA and DISEC to every enabled sensor. -/
  | i3cEn (on : Bool) (scl : Fin 16)
  /-- CAL_COMMIT (R359): A write to CAL_COMMIT starts a check of the head's staging block. -/
  | calCommit (h : Fin 32) (restore : Bool)
  /-- COMMIT_CHECK_DONE (R359): The check ends, rejecting the block or setting CAL_PENDING. -/
  | commitCheckDone
  /-- CAL_EXCHANGE (R360): At the first boundary after acceptance the active and staging blocks exchange. -/
  | calExchange (h : Fin 32) (field : Bool)
  /-- CAL_TRIP_CLR (R352): A write to CAL_TRIP_CLR clears a head's assist or heater trip. -/
  | calTripClr (h : Fin 32) (ast htr : Bool)
  /-- NOP (R379): The NOP microword does nothing and moves to NEXT. -/
  | mwNop (n : Fin 4) (w : MWord)
  /-- LDI (R379): LDI loads a zero-extended immediate into Gd. -/
  | mwLdi (n : Fin 4) (w : MWord)
  /-- LDHI (R379): LDHI loads Gd[31:16]. -/
  | mwLdhi (n : Fin 4) (w : MWord)
  /-- MOV (R379): MOV copies Ga into Gd. -/
  | mwMov (n : Fin 4) (w : MWord)
  /-- ADDI (R379): ADDI adds a signed immediate and sets the flags. -/
  | mwAddi (n : Fin 4) (w : MWord)
  /-- ADD (R379): ADD adds two registers and sets the flags. -/
  | mwAdd (n : Fin 4) (w : MWord)
  /-- SUB (R379): SUB subtracts two registers and sets the flags. -/
  | mwSub (n : Fin 4) (w : MWord)
  /-- AND (R379): AND combines two registers bitwise and sets the flags. -/
  | mwAnd (n : Fin 4) (w : MWord)
  /-- OR (R379): OR combines two registers bitwise and sets the flags. -/
  | mwOr (n : Fin 4) (w : MWord)
  /-- CMP (R379): CMP sets flags from Ga − Gb. -/
  | mwCmp (n : Fin 4) (w : MWord)
  /-- CMPI (R379): CMPI sets flags from Ga − simm13. -/
  | mwCmpi (n : Fin 4) (w : MWord)
  /-- BRT (R379): BRT branches to target if COND is true. -/
  | mwBrt (n : Fin 4) (w : MWord)
  /-- BRF (R379): BRF branches to target if COND is false. -/
  | mwBrf (n : Fin 4) (w : MWord)
  /-- CALL (R379): CALL pushes NEXT and goes to target. -/
  | mwCall (n : Fin 4) (w : MWord)
  /-- RET (R379): RET pops the return stack and goes there. -/
  | mwRet (n : Fin 4) (w : MWord)
  /-- LDF (R380): LDF loads a descriptor field into Gd. -/
  | mwLdf (n : Fin 4) (w : MWord)
  /-- TMR (R379): TMR starts or stops timer T0 or T1 and clears its latch. -/
  | mwTmr (n : Fin 4) (w : MWord)
  /-- CLR (R383): CLR clears a condition's event latch. -/
  | mwClr (n : Fin 4) (w : MWord)
  /-- SELHD (R379): SELHD requests a head. -/
  | mwSelhd (n : Fin 4) (w : MWord)
  /-- LDSECT (R372): LDSECT loads the layout entry at the pointer and advances it, or raises a layout error. -/
  | mwLdsect (n : Fin 4) (w : MWord)
  /-- ARMF (R373): ARMF arms the next fragment of the loaded sector in the lane. -/
  | mwArmf (n : Fin 4) (w : MWord)
  /-- POPRES (R375): POPRES pops a result word into Gd and writes it to the result array. -/
  | mwPopres (n : Fin 4) (w : MWord)
  /-- REV (R292): REV begins a write revolution or applies the revolution limit. -/
  | mwRev (n : Fin 4) (w : MWord)
  /-- RDBACK (R289): RDBACK begins the read-back revolution. -/
  | mwRdback (n : Fin 4) (w : MWord)
  /-- SLOT (R379): SLOT reads the state of a write slot into Gd. -/
  | mwSlot (n : Fin 4) (w : MWord)
  /-- SETSECT (R379): SETSECT sets the layout pointer to FIRST + Ga. -/
  | mwSetsect (n : Fin 4) (w : MWord)
  /-- SIGNAL (R379): SIGNAL makes a Strata record from the sequencer. -/
  | mwSignal (n : Fin 4) (w : MWord)
  /-- DONE (R376): DONE ends the operation and writes its completion record. -/
  | mwDone (n : Fin 4) (w : MWord)
  /-- FETCH (R370): FETCH waits for a descriptor, checks it and accepts or rejects it, then dispatches. -/
  | mwFetch (n : Fin 4) (w : MWord)
  /-- SEQ_TIMER_EXPIRY (R377): A sequencer timer T0 or T1 expires and sets its latch. -/
  | seqTimerExpiry (n : Fin 4) (t1 : Bool)
  /-- FRAGMENT_BEGUN (R373): An armed fragment's first bit reaches the head, leaves the arm queue, or is missed as a slip. -/
  | fragmentBegun (n : Fin 4) (late : Bool) (sbr : Nat)
  /-- SECT_PASSED (R381): An armed sector's last bit passes the head and its latch is set. -/
  | sectPassed (n : Fin 4) (slot : Fin 2048)
  /-- OP_LIMIT_EXPIRY (R385): An operation runs for SEQ_OP_LIMIT and is forced to end with STATUS 0x08. -/
  | opLimitExpiry (n : Fin 4)
  /-- SEQ_EN (R396): Writing SEQ_CTL.EN starts the sequencer at ENTRY, or holds it at reset and forces an end. -/
  | seqEn (n : Fin 4) (on : Bool)
  /-- STOP (R394): Writing SEQ_CTL.STOP makes STOP_REQ true until the operation ends. -/
  | stop (n : Fin 4)
  /-- PATCH_LOAD (R390): Writing SEQ_PLOAD_CTL.GO starts loading and verifying a patch object into a bank. -/
  | patchLoad (n : Fin 4) (bank : Fin 2)
  /-- PATCH_LOAD_COMPLETE (R390): A patch load ends with the bank VALID or FAILED. -/
  | patchLoadComplete (n : Fin 4)
  /-- BANK_SWITCH_REQUEST (R392): A write to SEQ_BANK_SEL requests a bank switch, or is refused for a bank not VALID. -/
  | bankSwitchRequest (n : Fin 4) (sel : Fin 4)
  /-- BANK_SWITCH (R391): A pending switch applies at the first boundary not held. -/
  | bankSwitch (n : Fin 4)
  /-- CS_SNAPSHOT (R396): Writing SEQ_CS_ADDR snapshots a control store word into the data registers. -/
  | csSnapshot (n : Fin 4) (a : Fin 8192)
  /-- ISLAND_RAIL_FAULT (R414): An island rail monitor trips and the island is failed. -/
  | islandRailFault (x : Fin 2) (good : Bool)
  /-- ISLAND_CLOCK_FAULT (R414): An island's CLK_SPIN leaves 400–464 MHz for 1 µs and the island is failed. -/
  | islandClockFault (x : Fin 2) (good : Bool) (stopped : Bool)
  /-- CROSSLINK_FRAME (R404): A frame from the peer over the cross-link is compared and a disagreement orders golden checks. -/
  | crosslinkFrame (x : Fin 2) (n : Fin 4)
  /-- GOLDEN_CHECK_DONE (R404): A golden check ends; a failing island is failed, or DISAGREE rises when both pass. -/
  | goldenCheckDone (x : Fin 2) (pass : Bool)
  /-- PERIODIC_GOLDEN_CHECK (R415): Every 1 s each island runs a golden check. -/
  | periodicGoldenCheck (x : Fin 2)
  /-- FAIL_ISLAND (R402): Writing FAIL_x in RED_ISL_CMD declares an island failed or is refused. -/
  | failIsland (x : Fin 2)
  /-- REJOIN_ISLAND (R405): Writing REJOIN_x moves an island from FAILED or LOCKED_OUT to RESETTING. -/
  | rejoinIsland (x : Fin 2)
  /-- AUTO_REJOIN (R405): With AUTO_REJOIN, once the fault's cause has gone the island moves to RESETTING. -/
  | autoRejoin (x : Fin 2)
  /-- REJOINING (R405): A RESETTING island with PLL lock, cross-link and a healthy peer starts the state copy. -/
  | rejoining (x : Fin 2)
  /-- REJOIN_COPY_DONE (R405): The peer's coefficients, registers and loop states have been copied and shadowing begins. -/
  | rejoinCopyDone (x : Fin 2)
  /-- SHADOW_COMPLETE (R405): REJOIN_REVS revolutions shadowed without difference and the island becomes HEALTHY. -/
  | shadowComplete (x : Fin 2)
  /-- CROSSLINK_DOWN (R407): Nothing arrives over the cross-link for 10 µs and it is declared down. -/
  | crosslinkDown
  /-- CROSSLINK_FAILBACK (R407): The cross-link has been up for 100 ms and its fault fails back. -/
  | crosslinkFailback
  /-- HEARTBEAT (R409): A write to RED_HBc restarts cluster c's heartbeat timeout. -/
  | heartbeat (cluster : Fin 8)
  /-- HEARTBEAT_TIMEOUT (R409): A cluster writes no heartbeat for HB_TIMEOUT and faults. -/
  | heartbeatTimeout (cluster : Fin 8)
  /-- SERVICE (R410): RED_CLU_CMD SERVICE moves a cluster to IN_SERVICE, completing a takeover. -/
  | service (source : Fin 64) (cluster : Fin 8)
  /-- STANDBY (R412): RED_CLU_CMD STANDBY makes a cluster the standby, lifting a test fence. -/
  | standby (source : Fin 64) (cluster : Fin 8)
  /-- OFF (R408): RED_CLU_CMD OFF takes a cluster out of use. -/
  | off (source : Fin 64) (cluster : Fin 8)
  /-- CLUSTER_FAIL (R409): RED_CLU_CMD FAIL declares a cluster fault, or fails a self-test. -/
  | clusterFail (source : Fin 64) (cluster : Fin 8)
  /-- RETEST (R412): RED_CLU_CMD RETEST sends a FAULTY cluster back to TESTING. -/
  | retest (source : Fin 64) (cluster : Fin 8)
  /-- SELF_TEST_TIMEOUT (R412): A cluster's self-test has not finished after 2 s and the cluster becomes FAULTY. -/
  | selfTestTimeout (cluster : Fin 8)
  /-- TANDEM_LANE_FAILBACK (R414): TLx_OK reads 1 in every status frame for 1 s and the lane fault fails back. -/
  | tandemLaneFailback (x : Fin 2)
  /-- STATUS_LANE_FAULT (R414): TLS_LOCK reads 0 while TLS_EN is 1 and island B is healthy, and the status lane fault is present. -/
  | statusLaneFault
  /-- DECODER_GOLDEN_DECODE (R415): Every 10 s a decoder runs a golden decode and is retired after two failures in a row. -/
  | decoderGoldenDecode (k : Fin 12) (pass : Bool)
  /-- RECORDER_TAKE (R424): The recorder takes a queued record and appends it to the SRAM ring. -/
  | recorderTake
  /-- MIRROR_COPY (R429): A record is copied to the MRAM mirror ring and MHEAD is raised. -/
  | mirrorCopy (err : MemErr)
  /-- SUPPRESSED (R427): A bucket with suppressed events regains a token and a SUPPRESSED record is made. -/
  | suppressed (src : Fin 64) (code : Fin 4096)
  /-- FW_RECORD (R425): A write to FWh_CMD makes a firmware record, or is rejected. -/
  | fwRecord (h : Fin 64) (v : Nat)
  /-- SNAP (R432): Writing STRATA_CTL.SNAP copies STRATA_HEAD and every source's last SEQ in one cycle. -/
  | snap
  /-- WSET (R434): Writing STRATA_CTL.WSET sets the wall clock from WALL_NEW in a new epoch. -/
  | wset
  /-- SRAM_SCRUB (R428): The Strata scrubber reads every SRAM word once per second. -/
  | sramScrub (corrected : Nat) (bad : Option (Fin 4194304))
  /-- RETEST_STRATA (R437): Writing STRATA_CTL.RETEST in mirror mode starts a march test of the SRAM. -/
  | retestStrata
  /-- RETEST_STRATA_DONE (R437): The SRAM test ends; on a pass the recorder leaves mirror mode. -/
  | retestStrataDone (pass : Bool)
  /-- CAPTURE_ENABLE (R438): Setting CAPk_CTL.EN starts a capture stream and restarts CAPk_WR. -/
  | captureEnable (k : Fin 4) (acts : Fin 16)
  /-- FIRE (R441): Writing CAP_TRIG.FIRE, or an enabled event, triggers a capture freeze. -/
  | fire
  /-- CAPTURE_FROZEN (R441): A stream's post-trigger span ends and it stops, and once all are frozen a record is made. -/
  | captureFrozen (k : Fin 4)
  /-- REARM (R441): Writing CAPk_CTL.REARM makes a frozen stream run again. -/
  | rearm (k : Fin 4)
  /-- BRANCH_SYNC_ITEM (R439): Every 1 ms each sequencer writes a sync item to the BRANCH stream. -/
  | branchSyncItem
  /-- LANE_REPLAY (R443): RPL_CTL.GO with KIND lane replays SECTOR entries on a channel lane. -/
  | laneReplay (n : Fin 4) (defer : Bool) (count : Fin 65536)
  /-- SERVO_REPLAY (R444): RPL_CTL.GO with KIND servo replays SERVO items on an island's actuator slot. -/
  | servoReplay (x : Fin 2) (n : Fin 4) (count : Fin 65536)
  /-- REPLAY_DONE (R443): A replay ends with its result and a REPLAY_DONE record. -/
  | replayDone (wedges : Nat)
  /-- REPLAY_ACK (R447): Writing RPL_CTL.ACK moves the replay state from DONE to IDLE. -/
  | replayAck
  /-- VERIFY_SLOT (R118): SEC command VERIFY_SLOT verifies a flash slot with every boot check except DRAM. -/
  | verifySlot (slot : Nat)
  /-- ACTIVATED (R462): SEC command ACTIVATED records the activated slot as the RUN measurement. -/
  | activated (slot : Nat)
  /-- SIGN_REPORT (R462): SEC command SIGN_REPORT takes the report fields and signs the attestation report. -/
  | signReport
  /-- KEY_MGMT (R458): SEC command KEY_MGMT programs or revokes a key slot in OTP. -/
  | keyMgmt (otpOk : Bool)
  /-- SVN_RAISE (R459): SEC command SVN_RAISE raises the image or microcode floors. -/
  | svnRaise (image : Fin 128) (mc : Fin 128) (otpOk : Bool)
  /-- LC_ADVANCE (R454): SEC command LC_ADVANCE programs a lifecycle advance taking effect at the next reset. -/
  | lcAdvance (target : Nat) (otpOk : Bool)
  /-- DEBUG_UNLOCK (R457): SEC command DEBUG_UNLOCK checks a debug token and opens debug until reset. -/
  | debugUnlock
  /-- GEN_IDENTITY (R460): SEC command GEN_IDENTITY draws the device-unique secret once in VENDOR. -/
  | genIdentity (otpOk : Bool)
  /-- CHALLENGE (R457): SEC command CHALLENGE outputs the present 32-byte challenge. -/
  | challenge
  /-- SEC_COMMAND_DONE (R465): A SEC command ends with its RESULT and DONE reads 1. -/
  | secCommandDone
  /-- IDENTITY_DERIVATION (R460): After reset release the identity key is derived and ID_READY reads 1. -/
  | identityDerivation
  /-- DEBUG_MODULE_ACCESS (R454): A JTAG debug module access is performed, or makes no bus access while locked. -/
  | debugModuleAccess (a : BitVec 40) (size : Fin 4) (v : Option (BitVec 64)) (err : MemErr)
  /-- STATUS_LANE_FAILBACK (R414): TLS_LOCK has read 1 for 1 s and the status lane fault 0x0011 fails back. -/
  | statusLaneFailback
  /-- COEFFICIENT_MEMORY_SCRUB (R415): Every 10 ms each island scrubs every coefficient memory word, correcting errors or failing the island on an uncorrectable one. -/
  | coefficientMemoryScrub (x : Fin 2) (corrected uncorrectable : Nat)
  /-- OSPI_COMMAND_END (R127): A flash command on the OSPI port ends, BUSY and GO clear, and waiting flash window reads proceed. -/
  | ospiCommandEnd (bytes : List Byte) (effect : FlashEffect)
  /-- RECEIVED_PAUSE_EXPIRY (R130): The pause time of a received PAUSE frame runs out and the port resumes transmitting, clearing PAUSED. -/
  | receivedPauseExpiry (port : Fin 2)
  /-- CORRECTABLE_RATE_FAILBACK (R414): The DRAM or MRAM correctable error rate has stayed below the threshold for 24 h and DRAM_CE_HIGH or MRAM_CE_HIGH clears. -/
  | correctableRateFailback (mram : Bool)
  /-- ELEMENT_CHECK_COMPLETE (R123): The preamplifier finishes the element check of a wired head and its PA_HEADSTAT field leaves 0b11. -/
  | elementCheckComplete (n : Fin 4) (head : Fin 8) (elems : Fin 64)
  /-- BAS_CTL_EN (R400): A write to BAS_CTL sets or clears an island's EN or ACT_EN, moving it between OFF and HEALTHY or FAILED. -/
  | basCtlEn (x : Fin 2) (en : Bool) (acts : Fin 16)
  /-- TANDEM_LANE_ENABLE (R339): A write to TDM_CTL enables a Tandem output lane or the status receiver, or sends the lane to electrical idle. -/
  | tandemLaneEnable (tl0 tl1 tls : Bool)
  deriving DecidableEq, Repr

end Sys2Proof
end

