-- ==== Sys2Proof/Machine/Sparse.lean ====
section
/-! DEFINITION. Sparse maps in one canonical form: the shape of memory, of the register file and of every
other store the device holds by address or number. Keys rise strictly and no entry holds the value an
unlisted key reads as, so that equal maps are equal data. -/

namespace Sys2Proof.Machine

/-- A sparse map from addresses or numbers to values. -/
abbrev SMap (α : Type) := List (Nat × α)

/-- Reading a key: the listed value, or what the unlisted key reads as. -/
def smGet {α : Type} (d : Nat → α) : SMap α → Nat → α
  | [], k => d k
  | (a, v) :: m, k => if a = k then v else smGet d m k

/-- Listing a value at its place, in rising order of keys. -/
def smInsert {α : Type} : SMap α → Nat → α → SMap α
  | [], k, v => [(k, v)]
  | (a, w) :: m, k, v =>
    if k < a then (k, v) :: (a, w) :: m
    else if k = a then (k, v) :: m
    else (a, w) :: smInsert m k v

/-- Unlisting a key. -/
def smErase {α : Type} : SMap α → Nat → SMap α
  | [], _ => []
  | (a, w) :: m, k => if a = k then smErase m k else (a, w) :: smErase m k

/-- Writing a key. Writing the value an unlisted key reads as unlists it. -/
def smSet {α : Type} [DecidableEq α] (d : Nat → α) (m : SMap α) (k : Nat) (v : α) : SMap α :=
  if v = d k then smErase m k else smInsert m k v

/-- Unlisting every key from `lo` up to but not at `hi`: a range goes back to what it reads as unlisted. -/
def smClear {α : Type} (m : SMap α) (lo hi : Nat) : SMap α :=
  m.filter fun e => decide (e.1 < lo) || decide (hi ≤ e.1)

/-- The canonical form, from a key every listed key must reach. -/
def smWfFrom {α : Type} [DecidableEq α] (d : Nat → α) : Nat → SMap α → Bool
  | _, [] => true
  | lo, (a, v) :: m => decide (lo ≤ a) && decide (v ≠ d a) && smWfFrom d (a + 1) m

/-- The canonical form: strictly rising keys, and no entry equal to what its key reads as unlisted. -/
def smWf {α : Type} [DecidableEq α] (d : Nat → α) (m : SMap α) : Bool := smWfFrom d 0 m

end Sys2Proof.Machine
end

