-- ==== Sys2Proof/Machine/Flags.lean ====
section
/-! DEFINITION. Shared arithmetic: bit fields of words, saturating counts, signed fields, rounding and clamping,
little-endian bytes, and the check codes of the spec (R7, R8, R94, R96, R311). -/

namespace Sys2Proof.Machine

/-- Bits `[lo+len-1:lo]` of a number. -/
def bits (v lo len : Nat) : Nat := v / 2 ^ lo % 2 ^ len

/-- Bit `i` of a number. -/
def bit (v i : Nat) : Bool := v / 2 ^ i % 2 == 1

/-- A number with its bits `[lo+len-1:lo]` replaced. -/
def setBits (v lo len x : Nat) : Nat :=
  v % 2 ^ lo + (x % 2 ^ len) * 2 ^ lo + v / 2 ^ (lo + len) * 2 ^ (lo + len)

/-- A flag as a number. -/
def bnat (b : Bool) : Nat := if b then 1 else 0

/-- A saturating count of `width` bits (R96). -/
def satAdd (width v k : Nat) : Nat := min (v + k) (2 ^ width - 1)

/-- The signed value of a field of `width` bits (R8). -/
def sgn (width v : Nat) : Int :=
  if v % 2 ^ width < 2 ^ (width - 1) then (v % 2 ^ width : Nat) else (v % 2 ^ width : Nat) - (2 ^ width : Nat)

/-- A signed value in a field of `width` bits, two's complement (R8). -/
def unsgn (width : Nat) (x : Int) : Nat := (x % (2 ^ width : Nat)).toNat

/-- Clamping to a range. -/
def clampI (lo hi x : Int) : Int := if x < lo then lo else if hi < x then hi else x

/-- A value divided by `2 ^ k`, rounded to the nearest, ties away from zero (R8, R311). -/
def roundShift (x : Int) (k : Nat) : Int :=
  if 0 ≤ x then (x + (2 ^ k / 2 : Nat)) / (2 ^ k : Nat) else -((-x + (2 ^ k / 2 : Nat)) / (2 ^ k : Nat))

/-- A value saturated to a signed field of `width` bits. -/
def satI (width : Nat) (x : Int) : Int := clampI (-(2 ^ (width - 1) : Nat)) ((2 ^ (width - 1) : Nat) - 1) x

/-- The integer square root's bits below `k`, from the root `r` found so far. -/
def isqrtFrom (n : Nat) : Nat → Nat → Nat
  | 0, r => r
  | k + 1, r => isqrtFrom n k (if (r + 2 ^ k) * (r + 2 ^ k) ≤ n then r + 2 ^ k else r)

/-- The integer square root, rounded down, of a number below 2^128 (R320). -/
def isqrt (n : Nat) : Nat := isqrtFrom n 64 0

/-- `n` little-endian bytes of a number (R7). -/
def leBytes : Nat → Nat → List Byte
  | 0, _ => []
  | n + 1, v => BitVec.ofNat 8 (v % 256) :: leBytes n (v / 256)

/-- `n` big-endian bytes of a number, as networks order them. -/
def beBytes (n v : Nat) : List Byte := (leBytes n v).reverse

/-- The number that little-endian bytes hold (R7). -/
def leNat : List Byte → Nat
  | [] => 0
  | b :: bs => b.toNat + 256 * leNat bs

/-- `n` zero bytes. -/
def zeros (n : Nat) : List Byte := List.replicate n 0

/-- Bytes cut or filled with zeros to length `n`. -/
def padTo (n : Nat) (bs : List Byte) : List Byte := (bs ++ zeros (n - bs.length)).take n

/-- Bytes of a list. -/
def seg (l : List Byte) (off n : Nat) : List Byte := (l.drop off).take n

/-- A little-endian field of a list. -/
def fieldN (l : List Byte) (off n : Nat) : Nat := leNat (seg l off n)

/-- All bytes of a range are 0. -/
def allZero (l : List Byte) (off n : Nat) : Bool := (seg l off n).all (· == 0)

/-- One bit of a reflected CRC register. -/
def crcBitR {w : Nat} (poly : BitVec w) (c : BitVec w) : BitVec w :=
  if c.getLsbD 0 then (c >>> 1) ^^^ poly else c >>> 1

/-- One byte of a reflected CRC register. -/
def crcByteR {w : Nat} (poly : BitVec w) (c : BitVec w) (b : Byte) : BitVec w :=
  let c := c ^^^ (b.setWidth w)
  crcBitR poly (crcBitR poly (crcBitR poly (crcBitR poly (crcBitR poly (crcBitR poly (crcBitR poly (crcBitR poly c)))))))

/-- CRC-32C (Castagnoli) over bytes, as the digests, the boot images and the Strata control block use it. -/
def crc32c (bs : List Byte) : BitVec 32 := ~~~ (bs.foldl (crcByteR 0x82F63B78#32) (~~~ 0#32))

/-- CRC-64/XZ over bytes (R439). -/
def crc64xz (bs : List Byte) : BitVec 64 := ~~~ (bs.foldl (crcByteR 0xC96C5795D7870F42#64) (~~~ 0#64))

/-- One bit of an unreflected CRC-16 register with polynomial 0x1021. -/
def crc16Bit (c : BitVec 16) : BitVec 16 :=
  if c.getLsbD 15 then (c <<< 1) ^^^ 0x1021#16 else c <<< 1

/-- CRC-16 with polynomial 0x1021 and preset 0xFFFF, most significant bit first (R330). -/
def crc16 (bs : List Byte) : BitVec 16 :=
  bs.foldl (fun c b =>
    let c : BitVec 16 := c ^^^ ((b.setWidth 16 : BitVec 16) <<< (8 : Nat))
    crc16Bit (crc16Bit (crc16Bit (crc16Bit (crc16Bit (crc16Bit (crc16Bit (crc16Bit c)))))))) 0xFFFF#16

/-- The first number from `lo` for `n` that a test accepts. -/
def findFrom (p : Nat → Bool) : Nat → Nat → Option Nat
  | _, 0 => none
  | lo, n + 1 => if p lo then some lo else findFrom p (lo + 1) n

/-- How many of the first `n` numbers a test accepts. -/
def countTo (p : Nat → Bool) : Nat → Nat
  | 0 => 0
  | n + 1 => countTo p n + bnat (p n)

/-- `f` applied for `0, 1, …, n-1`, in that order. -/
def forTo {σ : Type} (f : Nat → σ → σ) : Nat → σ → σ
  | 0, s => s
  | n + 1, s => f n (forTo f n s)

/-- Replacing the elements a test picks. -/
def mapIf {α : Type} (p : α → Bool) (f : α → α) (l : List α) : List α := l.map fun x => if p x then f x else x

/-- The first element a test accepts, and the list without it. -/
def takeFirst {α : Type} (p : α → Bool) : List α → Option (α × List α)
  | [] => none
  | x :: xs =>
    if p x then some (x, xs)
    else match takeFirst p xs with
      | none => none
      | some (y, ys) => some (y, x :: ys)

end Sys2Proof.Machine
end

