-- ==== Sys2Proof/Machine/RegMap.lean ====
section
/-! DEFINITION. The physical addresses of the register blocks, the registers' reset values, and the plain
field tables from which a write with no behaviour of its own is performed (R85, R94, R103 and the register
tables of every chapter). -/

namespace Sys2Proof.Machine

/-! ### Blocks (R85) -/

abbrev sysBase : Nat := 0x10000000
abbrev indBase : Nat := 0x10010000
abbrev seqBase (n : Nat) : Nat := 0x11000000 + n * 0x10000
abbrev hslBase (n : Nat) : Nat := 0x12000000 + n * 0x10000
abbrev chanBase : Nat := 0x13000000
abbrev basBase (isl : Nat) : Nat := 0x14000000 + isl * 0x8000
abbrev calBase : Nat := 0x15000000
abbrev hostBase : Nat := 0x16000000
abbrev cmdBase : Nat := 0x17000000
abbrev strataBase : Nat := 0x18000000
abbrev secBase : Nat := 0x19000000
abbrev tdmBase : Nat := 0x1A000000
abbrev dramBase : Nat := 0x1000000000
abbrev dramAlias : Nat := 0x1400000000
abbrev mramBase : Nat := 0x2000000000
abbrev mirrorBase : Nat := 0x203C000000

/-! ### SYS registers (R66, R103, R127, R419) -/

abbrev aSysId : Nat := 0x10000000
abbrev aTimebaseLo : Nat := 0x10000008
abbrev aTimebaseHi : Nat := 0x1000000C
abbrev aClkStatus : Nat := 0x10000010
abbrev aAccerrAddrLo : Nat := 0x10000020
abbrev aAccerrAddrHi : Nat := 0x10000024
abbrev aAccerrInfo : Nat := 0x10000028
abbrev aAccerrCount : Nat := 0x1000002C
abbrev aLockViol : Nat := 0x10000030
abbrev aRstcause : Nat := 0x10000100
abbrev aRstctl : Nat := 0x10000104
abbrev aWdogCfg : Nat := 0x10000108
abbrev aWdogKick : Nat := 0x1000010C
abbrev aThermStatus : Nat := 0x10000110
abbrev aThermCfg : Nat := 0x10000114
abbrev aPwrStatus : Nat := 0x10000118
abbrev aDramCfg : Nat := 0x10000200
abbrev aDramScrub : Nat := 0x10000204
abbrev aDramCeLo : Nat := 0x10000208
abbrev aDramUe : Nat := 0x10000210
abbrev aMramRegion : Nat := 0x10000220
abbrev aMramCe : Nat := 0x10000224
abbrev aMramUe : Nat := 0x10000228
abbrev aBootStatus : Nat := 0x10000300
abbrev aBootGen : Nat := 0x10000304
abbrev aBootTime : Nat := 0x10000308
abbrev aOspiCmd : Nat := 0x10000400
abbrev aOspiAddr : Nat := 0x10000404
abbrev aOspiData : Nat := 0x10000408
abbrev aOspiStatus : Nat := 0x1000040C
abbrev aRedCfg : Nat := 0x10000500
abbrev aRedIslStatus : Nat := 0x10000504
abbrev aRedIslCmd : Nat := 0x10000508
abbrev aRedCluState : Nat := 0x1000050C
abbrev aRedCluCmd : Nat := 0x10000510
abbrev aRedHealth : Nat := 0x10000514
abbrev aRedTestWin : Nat := 0x10000518
abbrev aRedDecRetired : Nat := 0x1000051C
abbrev aRedHb (c : Nat) : Nat := 0x10000520 + c * 4
abbrev aRedEvents : Nat := 0x10000540
abbrev aRedSeen : Nat := 0x10000544
abbrev aRedCount (j : Nat) : Nat := 0x10000550 + j * 4
abbrev cluBase (c : Nat) : Nat := 0x10001000 + c * 0x100
abbrev aCluCtl (c : Nat) : Nat := 0x10001000 + c * 0x100
abbrev aCluStatus (c : Nat) : Nat := 0x10001004 + c * 0x100
abbrev aL2Ctl (c : Nat) : Nat := 0x10001008 + c * 0x100
abbrev aL2Retired (c : Nat) : Nat := 0x1000100C + c * 0x100
abbrev aL2CeLo (c : Nat) : Nat := 0x10001010 + c * 0x100
abbrev aL2Ue (c : Nat) : Nat := 0x10001018 + c * 0x100
abbrev aL2Tagpe (c : Nat) : Nat := 0x1000101C + c * 0x100
abbrev aL2Waymask (c r : Nat) : Nat := 0x10001040 + c * 0x100 + r * 4
abbrev aIrqRoute (src : Nat) : Nat := 0x10002000 + src * 4
abbrev aIrqPend (h w : Nat) : Nat := 0x10003000 + h * 0x20 + w * 4
abbrev aMtimecmp (h : Nat) : Nat := 0x10004000 + h * 8
abbrev aHartboot (h : Nat) : Nat := 0x10004200 + h * 4
abbrev aIndAddr (c : Nat) : Nat := 0x10010000 + c * 0x100
abbrev aIndData (c : Nat) : Nat := 0x10010004 + c * 0x100
abbrev aIndCtl (c : Nat) : Nat := 0x10010008 + c * 0x100
abbrev aIndStatus (c : Nat) : Nat := 0x1001000C + c * 0x100

/-! ### HOST registers (R158) -/

abbrev aHostCtl : Nat := 0x16000000
abbrev aHostListen : Nat := 0x16000004
abbrev aCtxStatus : Nat := 0x16000008
abbrev aCtxRefused : Nat := 0x1600000C
abbrev aSlowRxBase : Nat := 0x16000020
abbrev aSlowTxBase : Nat := 0x16000024
abbrev aSlowCfg : Nat := 0x16000028
abbrev aSlowRxIdx : Nat := 0x1600002C
abbrev aSlowTxIdx : Nat := 0x16000030
abbrev aPortStatus (p : Nat) : Nat := 0x16000100 + p * 0x100
abbrev aPortCfg (p : Nat) : Nat := 0x16000104 + p * 0x100
abbrev aPortMacLo (p : Nat) : Nat := 0x16000108 + p * 0x100
abbrev aPortMacHi (p : Nat) : Nat := 0x1600010C + p * 0x100
abbrev aFecCorrLo (p : Nat) : Nat := 0x16000110 + p * 0x100
abbrev aFecUncorr (p : Nat) : Nat := 0x16000118 + p * 0x100
abbrev aFcsErr (p : Nat) : Nat := 0x1600011C + p * 0x100
abbrev aHdgstErr (p : Nat) : Nat := 0x16000120 + p * 0x100
abbrev aDdgstErr (p : Nat) : Nat := 0x16000124 + p * 0x100
abbrev aLinkDown (p : Nat) : Nat := 0x16000128 + p * 0x100
abbrev aPortDrop (p : Nat) : Nat := 0x1600012C + p * 0x100
abbrev aAddrCtl (p k : Nat) : Nat := 0x16000400 + p * 0x100 + k * 0x20
abbrev aAddrIp (p k i : Nat) : Nat := 0x16000404 + p * 0x100 + k * 0x20 + i * 4

/-! ### CMD and Caisson registers (R198) -/

abbrev aCmdCtl : Nat := 0x17000000
abbrev aCmdState : Nat := 0x17000004
abbrev aIntakeSeqLo : Nat := 0x17000008
abbrev aPoolStatus : Nat := 0x17000010
abbrev aZoneOpenStatus : Nat := 0x17000014
abbrev aJrnSlots : Nat := 0x17000100
abbrev aJrnFree : Nat := 0x17000104
abbrev aJrnRecordsFree : Nat := 0x17000108
abbrev aJrnDeferHeld : Nat := 0x1700010C
abbrev aJrnDeferLimit : Nat := 0x17000110
abbrev aJrnWaits : Nat := 0x17000114
abbrev aJrnRecKept : Nat := 0x17000118
abbrev aJrnRecDiscarded : Nat := 0x1700011C
abbrev aSchCfg (n : Nat) : Nat := 0x17000200 + n * 0x20
abbrev aSchStatus (n : Nat) : Nat := 0x17000204 + n * 0x20
abbrev aSchAged (n : Nat) : Nat := 0x17000208 + n * 0x20
abbrev aSchState (n : Nat) : Nat := 0x1700020C + n * 0x20
abbrev aPatrolCfg : Nat := 0x17000300
abbrev aPatrolStatus : Nat := 0x17000304
abbrev aBreach (k : Nat) : Nat := 0x17000310 + (k - 1) * 4

/-! ### STRATA registers (R447) -/

abbrev aStrataCtl : Nat := 0x18000000
abbrev aStrataStatus : Nat := 0x18000004
abbrev aStrataHeadLo : Nat := 0x18000008
abbrev aStrataMheadLo : Nat := 0x18000010
abbrev aStrataLife : Nat := 0x18000018
abbrev aSnapHeadLo : Nat := 0x18000020
abbrev aSnapHeadHi : Nat := 0x18000024
abbrev aWallNewLo : Nat := 0x18000030
abbrev aWallNewHi : Nat := 0x18000034
abbrev aWallNowLo : Nat := 0x18000038
abbrev aWallStatus : Nat := 0x18000040
abbrev aStrataCount (j : Nat) : Nat := 0x18000050 + j * 4
abbrev aSnapSeq (src : Nat) : Nat := 0x18000100 + src * 4
abbrev aCapBase (k : Nat) : Nat := 0x18000200 + k * 0x20
abbrev aCapSize (k : Nat) : Nat := 0x18000204 + k * 0x20
abbrev aCapWrLo (k : Nat) : Nat := 0x18000208 + k * 0x20
abbrev aCapCtl (k : Nat) : Nat := 0x18000210 + k * 0x20
abbrev aCapStatus (k : Nat) : Nat := 0x18000214 + k * 0x20
abbrev aCapDropped (k : Nat) : Nat := 0x18000218 + k * 0x20
abbrev aCapTrig : Nat := 0x18000300
abbrev aRplCtl : Nat := 0x18000400
abbrev aRplSrc : Nat := 0x18000404
abbrev aRplOut : Nat := 0x18000408
abbrev aRplStatus : Nat := 0x1800040C
abbrev aRplMismatch : Nat := 0x18000410
abbrev aFwData (h j : Nat) : Nat := 0x18010000 + h * 0x100 + j * 4
abbrev aFwCmd (h : Nat) : Nat := 0x180100F8 + h * 0x100
abbrev aRateLimit (code : Nat) : Nat := 0x18020000 + code * 4
abbrev strataWindow : Nat := 0x18080000

/-! ### SEC registers (R465) -/

abbrev aSecState : Nat := 0x19000000
abbrev aSecSvn : Nat := 0x19000004
abbrev aSecCmd : Nat := 0x19000010
abbrev aSecCmdIn : Nat := 0x19000014
abbrev aSecCmdOut : Nat := 0x19000018
abbrev aSecCmdStatus : Nat := 0x1900001C
abbrev aSecDeviceId (w : Nat) : Nat := 0x19000020 + w * 4
/-- Counter j: VERIFY_OK, VERIFY_FAIL, SIGNS, REFUSED, OTP_CE. -/
abbrev aSecCount (j : Nat) : Nat := 0x19000040 + j * 4

/-! ### HSL registers (R232) -/

abbrev aHslCtl (n : Nat) : Nat := 0x12000000 + n * 0x10000
abbrev aHslStatus (n : Nat) : Nat := 0x12000004 + n * 0x10000
abbrev aHslPaStat (n : Nat) : Nat := 0x12000008 + n * 0x10000
abbrev aHslPaSense (n : Nat) : Nat := 0x1200000C + n * 0x10000
abbrev aHslCfCount (n : Nat) : Nat := 0x12000010 + n * 0x10000
abbrev aUpCrcLo (n l : Nat) : Nat := 0x12000100 + n * 0x10000 + l * 0x20
abbrev aUpErasedLo (n l : Nat) : Nat := 0x12000108 + n * 0x10000 + l * 0x20
abbrev aUpMarker (n l : Nat) : Nat := 0x12000110 + n * 0x10000 + l * 0x20
abbrev aUpLoss (n l : Nat) : Nat := 0x12000114 + n * 0x10000 + l * 0x20
abbrev aUpDrop (n l : Nat) : Nat := 0x12000118 + n * 0x10000 + l * 0x20
abbrev aUpFail (n l : Nat) : Nat := 0x1200011C + n * 0x10000 + l * 0x20
abbrev aDnFramesLo (n : Nat) : Nat := 0x12000160 + n * 0x10000
abbrev aDnLoss (n : Nat) : Nat := 0x12000168 + n * 0x10000
abbrev aDnSafe (n : Nat) : Nat := 0x1200016C + n * 0x10000

/-! ### CHAN registers (R272, R299) -/

abbrev aChanCtl : Nat := 0x13000000
abbrev aDdbBase : Nat := 0x13000010
abbrev aDdbCfg : Nat := 0x13000014
abbrev aDdbWr : Nat := 0x13000018
abbrev aDdbRd : Nat := 0x1300001C
abbrev aDdbEvents : Nat := 0x13000020
abbrev aDdbSeen : Nat := 0x13000024
abbrev aDdbFull : Nat := 0x13000028
abbrev aGarnetWait : Nat := 0x13000030
abbrev aGarnetPreempt : Nat := 0x13000034
abbrev aGarnetIter (k : Nat) : Nat := 0x13000040 + k * 8
abbrev aShockCfg : Nat := 0x13000100
abbrev aShockStatus : Nat := 0x13000104
abbrev aShockCount : Nat := 0x13000108
abbrev aParUnplaced : Nat := 0x1300010C
abbrev aChlCtl (n : Nat) : Nat := 0x13001000 + n * 0x100
abbrev aChlStatus (n : Nat) : Nat := 0x13001004 + n * 0x100
abbrev aChlConf (n : Nat) : Nat := 0x13001008 + n * 0x100
abbrev aChlIter (n : Nat) : Nat := 0x13001010 + n * 0x100
abbrev aChl (n j : Nat) : Nat := 0x13001018 + n * 0x100 + j * 4
abbrev aWrCtl (n : Nat) : Nat := 0x13002000 + n * 0x100
abbrev aWrStatus (n : Nat) : Nat := 0x13002004 + n * 0x100
abbrev aWrWritten (n : Nat) : Nat := 0x13002008 + n * 0x100
abbrev aWrPass (n : Nat) : Nat := 0x13002010 + n * 0x100
abbrev aWr (n j : Nat) : Nat := 0x13002018 + n * 0x100 + j * 4
abbrev aLdpcH (w : Nat) : Nat := 0x13004000 + w * 4
abbrev aPset (i : Nat) : Nat := 0x13080000 + i * 0xC0
abbrev aWset (i : Nat) : Nat := 0x130E0000 + i * 0x40

/-! ### SEQ registers (R396) -/

abbrev aSeqCtl (n : Nat) : Nat := 0x11000000 + n * 0x10000
abbrev aSeqStatus (n : Nat) : Nat := 0x11000004 + n * 0x10000
abbrev aSeqRomVer (n : Nat) : Nat := 0x11000008 + n * 0x10000
abbrev aSeqVerActive (n : Nat) : Nat := 0x1100000C + n * 0x10000
abbrev aSeqBankSel (n : Nat) : Nat := 0x11000010 + n * 0x10000
abbrev aSeqPloadOfs (n : Nat) : Nat := 0x11000014 + n * 0x10000
abbrev aSeqPloadCtl (n : Nat) : Nat := 0x11000018 + n * 0x10000
abbrev aSeqBankState (n k : Nat) : Nat := 0x11000020 + n * 0x10000 + k * 0x10
abbrev aSeqBankVer (n k : Nat) : Nat := 0x11000024 + n * 0x10000 + k * 0x10
abbrev aSeqBankEntry (n k : Nat) : Nat := 0x11000028 + n * 0x10000 + k * 0x10
abbrev aSeqOpqBase (n : Nat) : Nat := 0x11000040 + n * 0x10000
abbrev aSeqOpqCfg (n : Nat) : Nat := 0x11000044 + n * 0x10000
abbrev aSeqOpqIdx (n : Nat) : Nat := 0x11000048 + n * 0x10000
abbrev aSeqCplBase (n : Nat) : Nat := 0x1100004C + n * 0x10000
abbrev aSeqCplIdx (n : Nat) : Nat := 0x11000050 + n * 0x10000
abbrev aSeqOpLimit (n : Nat) : Nat := 0x11000054 + n * 0x10000
abbrev aSeqSoft (n : Nat) : Nat := 0x11000058 + n * 0x10000
abbrev aSeqCsAddr (n : Nat) : Nat := 0x11000060 + n * 0x10000
abbrev aSeqCsDataLo (n : Nat) : Nat := 0x11000064 + n * 0x10000
abbrev aSeqCsDataHi (n : Nat) : Nat := 0x11000068 + n * 0x10000
abbrev aSeqG (n k : Nat) : Nat := 0x11000080 + n * 0x10000 + k * 4
abbrev aSeqCount (n j : Nat) : Nat := 0x110000C0 + n * 0x10000 + j * 4

/-! ### BAS and TANDEM registers (R338, R339) -/

abbrev aBasCtl (x : Nat) : Nat := 0x14000000 + x * 0x8000
abbrev aBasStatus (x : Nat) : Nat := 0x14000004 + x * 0x8000
abbrev aBasCfg (x : Nat) : Nat := 0x14000008 + x * 0x8000
abbrev aBasSpinN (x : Nat) : Nat := 0x1400000C + x * 0x8000
abbrev aBasSpinCmd (x : Nat) : Nat := 0x14000010 + x * 0x8000
abbrev aBasCmemCe (x : Nat) : Nat := 0x14000014 + x * 0x8000
abbrev aBasCmemUe (x : Nat) : Nat := 0x14000018 + x * 0x8000
abbrev aBasCmd (x n : Nat) : Nat := 0x14000100 + x * 0x8000 + n * 0x40
abbrev aBasTgt (x n : Nat) : Nat := 0x14000104 + x * 0x8000 + n * 0x40
abbrev aBasOfs (x n : Nat) : Nat := 0x14000108 + x * 0x8000 + n * 0x40
abbrev aBasMan (x n : Nat) : Nat := 0x1400010C + x * 0x8000 + n * 0x40
abbrev aBasState (x n : Nat) : Nat := 0x14000110 + x * 0x8000 + n * 0x40
abbrev aBasPes (x n : Nat) : Nat := 0x14000114 + x * 0x8000 + n * 0x40
abbrev aBasTrack (x n : Nat) : Nat := 0x14000118 + x * 0x8000 + n * 0x40
/-- Counter j: MISSED, MARK_MISS, SAFE_PARK, CMD_LATE, CMD_REFUSED, XFER_CLAMP, SP_CLAMP, SAT, RRO_ERR. -/
abbrev aBasCount (x n j : Nat) : Nat := 0x1400011C + x * 0x8000 + n * 0x40 + j * 4
abbrev aTdmCtl : Nat := 0x1A000000
abbrev aTdmStatus : Nat := 0x1A000004
abbrev aTdmDrv (n : Nat) : Nat := 0x1A000010 + n * 4
abbrev aTdmFramesLo (x : Nat) : Nat := 0x1A000020 + x * 8
abbrev aTdmTlsFrames : Nat := 0x1A000030
abbrev aTdmTlsErr : Nat := 0x1A000034
abbrev aTdmMismatch : Nat := 0x1A000038
abbrev aAccCfg : Nat := 0x1A000100
abbrev aAccScale : Nat := 0x1A000104
abbrev aAccXY (k : Nat) : Nat := 0x1A000108 + k * 8
abbrev aAccZ (k : Nat) : Nat := 0x1A00010C + k * 8
abbrev aAccSeq : Nat := 0x1A000118
abbrev aAccFaults : Nat := 0x1A00011C

/-! ### ASSIST and CAL registers (R365) -/

abbrev aCalCfg : Nat := 0x15000000
abbrev aCalTemp : Nat := 0x15000004
abbrev aCalTempOvr : Nat := 0x15000008
abbrev aCalPresent : Nat := 0x1500000C
abbrev aCalDue : Nat := 0x15000010
abbrev aCalPending : Nat := 0x15000014
abbrev aCalCommit : Nat := 0x15000018
abbrev aCalCommitStatus : Nat := 0x1500001C
abbrev aCalReject : Nat := 0x15000020
abbrev aCalApplied : Nat := 0x15000024
abbrev aCalTripClr : Nat := 0x15000028
abbrev aI3cCfg (k : Nat) : Nat := 0x15000040 + k * 8
abbrev aI3cVal (k : Nat) : Nat := 0x15000044 + k * 8
abbrev aI3cCtl : Nat := 0x15000060
abbrev aI3cErr : Nat := 0x15000064
abbrev aAstCtl (n : Nat) : Nat := 0x15001000 + n * 0x100
abbrev aAstMan (n : Nat) : Nat := 0x15001004 + n * 0x100
abbrev aAstFs (n : Nat) : Nat := 0x15001008 + n * 0x100
abbrev aAstStatus (n : Nat) : Nat := 0x1500100C + n * 0x100
abbrev aAstSp (n : Nat) : Nat := 0x15001010 + n * 0x100
abbrev aAstDem (n : Nat) : Nat := 0x15001014 + n * 0x100
/-- Counter j: AST_TRIPS, HTR_TRIPS, SENSE_STALE, SP_CLAMP, XFER_CLAMP, PA_LIMIT, BAND_CLAMP. -/
abbrev aAstCount (n j : Nat) : Nat := 0x15001018 + n * 0x100 + j * 4
abbrev aCalCount (h : Nat) : Nat := 0x15002000 + h * 0x20
abbrev aCalLastT (h : Nat) : Nat := 0x15002004 + h * 0x20
abbrev aCalLastTbLo (h : Nat) : Nat := 0x15002008 + h * 0x20
abbrev aCalLastWallLo (h : Nat) : Nat := 0x15002010 + h * 0x20

/-! ### Reset values (the Reset column of the register tables) -/

/-- The reset value of a register whose Reset column is a constant other than 0; every other register of the
file resets to 0. Registers read as levels or set by a rule are not in this file (see `readReg`). -/
def regReset (a : Nat) : Word :=
  if a < 0x10002000 then
    if a = aWdogCfg then 0x7D0
    else if a = aThermCfg then 0x01F401CC
    else if a = aDramScrub then 0x18
    else if a = aRedCfg then 0x000230C8
    else if 0x10001000 ≤ a ∧ a < 0x10001800 then
      if a = 0x10001000 then 1
      else if a % 0x100 = 8 then 0x1000
      else if 0x40 ≤ a % 0x100 ∧ a % 0x100 < 0x80 then 0xFFFF
      else 0
    else 0
  else if a < 0x10010000 then (if 0x10004000 ≤ a ∧ a < 0x10004200 then 0xFFFFFFFF else 0)
  else if a < 0x11000000 then 0
  else if a < 0x12000000 then
    if a % 0x10000 = 8 then 0x102 else if a % 0x10000 = 0x54 then 0xFA else 0
  else if a < 0x13000000 then 0
  else if a < 0x14000000 then
    if a = aChanCtl then 0x20
    else if a = aDdbCfg then 0x00280000
    else if a = aShockCfg then 0x00031420
    else if a % 0x100 = 0 ∧ 0x13001000 ≤ a ∧ a < 0x13001400 then 0x001A200C
    else if a % 0x100 = 0 ∧ 0x13002000 ≤ a ∧ a < 0x13002400 then 6
    else 0
  else if a < 0x17000000 then
    if a = 0x15000000 then 0x50
    else if a = aHostListen then 0x1F491144
    else if a = aPortCfg 0 ∨ a = aPortCfg 1 then 0x5DC
    else 0
  else if a < 0x18000000 then
    if a = 0x17000300 then 0x08005A00
    else if 0x17000200 ≤ a ∧ a < 0x17000280 ∧ a % 0x20 = 0 then 0x001900FA
    else 0
  else if a < 0x19000000 then
    if 0x18000100 ≤ a ∧ a < 0x18000200 then 0xFFFFFFFF
    else if 0x18000200 ≤ a ∧ a < 0x18000280 ∧ a % 0x20 = 0x10 then 0xF0
    else if a = aCapTrig then 0x197F
    else if 0x18020000 ≤ a ∧ a < 0x18024000 then 0x00100064
    else 0
  else if a < 0x1B000000 then (if a = 0x1A000100 then 0x0AFF1800 else if a = 0x1A000104 then 0x40004000 else 0)
  else 0

end Sys2Proof.Machine
end

