-- ==== Sys2Proof/Config.lean ====
section
/-! DEFINITION. What one device fixes, and the values the spec leaves open (free values: opaque constants
that no proof can see into). -/

namespace Sys2Proof

/-- The two variants, fixed at manufacture (R1, R2). -/
inductive Variant where
  | af | bf
  deriving DecidableEq, Repr

/-- The variant of the device that `State.reset` describes. DESIGN CHOICE (log 2): both are modelled. -/
def Config.variant : Variant := .af

/-- A value the spec leaves open, one for each count of `State.free` (log 3). No body: nothing is known of it. -/
opaque Config.freeValue : Nat → Nat

/-- The demodulator's atan2(N, Q) / π in 1/2^24 of a track pitch: the spec gives the function and its accuracy, 2⁻¹⁶ of
a pitch, and not each result (R306, log 3). -/
opaque Config.servoArctan : Int → Int → Int

/-- A ROM word of the sequencers' control store: the ROM's contents are not given (R388, log 3). -/
opaque Config.romWord : Nat → BitVec 48

/-- A byte of the serial number, model, firmware revision or subsystem NQN that firmware sets, by its offset in Identify
Controller (R142, log 64). -/
opaque Config.identByte : Nat → Byte

/-- A byte of the boot ROM: its contents are not given (R85, log 3). -/
opaque Config.bootRomByte : Nat → Byte

/-- The 128 MiB flash is fitted, and not the 64 MiB one (R107). DESIGN CHOICE (log 52): both are modelled. -/
def Config.flashBig : Bool := false

/-- The 32 bytes of VENDOR_HASH, which Omeravas programs: its key is not given (R452, log 51). -/
opaque Config.vendorHash : List Byte

/-- SLH-DSA.Verify of FIPS 205, on a public key, a message, a context string and a signature: the spec names the scheme
and does not write it out (R449, R451, log 51). -/
opaque Config.slhVerify : List Byte → List Byte → List Byte → List Byte → Bool

/-- The 48-byte public key that slh_keygen_internal of SLH-DSA-SHA2-192f makes of 72 bytes (R460, log 51). -/
opaque Config.slhPublic : List Byte → List Byte

/-- The 35,664-byte signature that SLH-DSA-SHA2-192f makes with the key of 72 bytes, on a message and a context string
(R449, R462, log 51). -/
opaque Config.slhSign : List Byte → List Byte → List Byte → List Byte

/-! ### The arithmetic of the read channel

The spec fixes the stages of a lane, their order, what each takes and gives, and what erased values do (R234–R238), and not the
arithmetic inside them, which silicon revision B0 fixes: each is a function of what the spec names, and of nothing else
(R256, R257, log 116). -/

/-- Baseline, gain and timing phase that a parameter set seeds, by reader: 0 A, 1 B, 2 V (R249). -/
opaque Config.frontSeed : List Byte → Nat → Int × Int × Int

/-- A preamble is found in the samples of readers A and B at a fragment's start (R234, R249). -/
opaque Config.preambleSeen : List Byte → List (Option Int) → List (Option Int) → Bool

/-- Baseline, gain and phase acquired on a preamble, from a set, a reader, its samples and the values held before (R234). -/
opaque Config.acquired : List Byte → Nat → List (Option Int) → Int × Int × Int → Int × Int × Int

/-- Baseline and gain after one more sample that is not erased (R234). -/
opaque Config.gainStep : List Byte → Int × Int → Int → Int × Int

/-- A sample less its baseline, scaled, in 2^-8 of a sample unit, from baseline, gain and sample (R234). -/
opaque Config.scaled : Int → Int → Int → Int

/-- How many samples before and after its place an interpolated value uses (R236). -/
opaque Config.interpBefore : Nat
opaque Config.interpAfter : Nat

/-- The value interpolated between samples, from the fraction of a sample in 2^-24 and the samples it uses (R234). -/
opaque Config.interpolated : Int → List Int → Int

/-- The timing error of a value, in 2^-24 of a sample, from the value before it and itself (R234). -/
opaque Config.timingError : Int → Int → Int

/-- The place of the present value among an equalizer's twelve (R234). -/
opaque Config.eqPlace : Nat

/-- The output of twelve taps where some of their values are erased: the spec says what an erased value at the bit itself does,
and not at its neighbours (R236). -/
opaque Config.firErased : List Int → List (Option Int) → Int

/-- The taps after one more value, from LMS_STEP, TARGET, the taps, the values of both readers at them and the output (R234). -/
opaque Config.lmsTaps : Nat → List Int → List Int → List (Option Int) → List (Option Int) → Int → List Int

/-- The hard bit of an equalized value that is not erased, from TARGET, the values and its place (R234, R246). -/
opaque Config.hardBit : List Int → List (Option Int) → Nat → Bool

/-- The soft output of the 16-state max-log BCJR detector for a bit that is not erased, before it is held in 6 bits, from TARGET,
the values, the a priori LLRs and the bit's place (R234). -/
opaque Config.softBit : List Int → List (Option Int) → List Int → Nat → Int

/-- Three layered min-sum iterations of the decoder over the LLRs of a codeword: its bits, and the extrinsic LLRs (R238). -/
opaque Config.layered : List Int → List Bool × List Int

/-- The 64 bytes of front-end state in a capture entry, and the state that such bytes stand for: baseline, gain, phase and
frequency of the three paths, then the taps (R440, R443). -/
opaque Config.frontBytes : List Int → List Byte
opaque Config.frontOf : List Byte → List Int

/-- The samples before fragment `j` of a captured entry, from its bytes 0x0000–0x023F: the entry's layout does not say
(R265, R440). -/
opaque Config.fragStart : List Byte → Nat → Nat

/-- The servo bit whose cell begins at a place of a stream, as it is sliced, from the samples, the cell's length and the place, both
in 2^-16 of a sample: how samples are sliced is not said (R304). -/
opaque Config.servoBit : List (Option Int) → Nat → Nat → Bool

/-- Which of the places where a SAM qualifies, each with its distance, is taken (R304). -/
opaque Config.samChoice : List (Nat × Nat) → Nat

/-- The sine of an angle in 2^-32 of a turn, Q2.30, as the burst correlation forms it: its precision is not said (R306). -/
opaque Config.servoSine : Nat → Int

/-- The registers of a preamplifier that its make fixes, by actuator and offset: PA_ID, PA_REV, PA_HEADS, PA_LAT, the
full scales, the precompensation step and the FIFO (R122, R230, log 3). -/
opaque Config.preamp : Nat → Nat → Nat

/-- An entry of the table LDPC_H by its index: the table is fixed in silicon and its values are not given (R275, log 3). -/
opaque Config.ldpcH : Nat → BitVec 16

/-- A byte of MRAM that holds nothing the spec speaks of: of a data slot no record holds, of a record or descriptor whose
CRC is wrong, of space its layout does not name (R165–R169, R429, log 55). -/
opaque Config.staleByte : Nat → Byte

end Sys2Proof
end

