-- ==== Sys2Proof/Machine/State.lean ====
section
/-! DEFINITION. The machine's state: every register, buffer, queue, counter, mode and pin level the spec gives
the ZQ4120, the preamplifiers and the power driver it speaks with, and the queue of waiting commands. Plain data.
Units of which there are several alike are sparse maps from their number, so that reset is the empty map. -/

namespace Sys2Proof.Machine

/-! ### Package, power and reset (R49–R68) -/

/-- Where the device stands between reset and the power-fail sequence (R63). -/
inductive Phase where
  | running | quiescing | reset
  deriving DecidableEq, Repr

/-- Reset, power, temperature and watchdog state. Masks number the sources as SYS_RSTCAUSE does (R66). -/
structure Power where
  phase : Phase := .running
  /-- The PLLs report lock (R62). -/
  pllLocked : Bool := false
  /-- Sources recognized since the sequence or reset began (R66). -/
  recognized : Nat := 0
  /-- Sources whose cause still holds the device in reset (R54, R60, R62, R63). -/
  holding : Nat := 0
  /-- SYS_RSTCAUSE[7:0]. -/
  cause : Nat := 1
  resetCount : Nat := 0
  pwrFailHigh : Bool := true
  rstHigh : Bool := true
  coreOk : Bool := true
  islAOk : Bool := true
  islBOk : Bool := true
  mramOk : Bool := true
  ioOk : Bool := true
  refOk : Bool := true
  /-- The external 32.768 kHz source is in use (R55). -/
  xtalOk : Bool := true
  tmax : Nat := 0x800
  tmaxSensor : Nat := 0
  warn : Bool := false
  crit : Bool := false
  /-- The hottest sensor as the sensor logic last sampled it; it runs on while the device is in reset (R60). -/
  aonTmax : Nat := 0x800
  /-- Highest TMAX since reset (log 0xC0, R418). -/
  tmaxPeak : Nat := 0x800
  /-- The watchdog's count: TIMEOUT in force, ms, and the timebase it runs from (R68). -/
  wdogTimeout : Nat := 0
  wdogFrom : Nat := 0
  /-- The TAP controller is held in reset (R61). -/
  tapReset : Bool := true
  deriving DecidableEq, Repr

/-- Wall-clock holdover of the always-on domain (R434). -/
structure Wall where
  epoch : Nat := 0
  wallAt : Nat := 0
  tbAt : Nat := 0
  valid : Bool := false
  deriving DecidableEq, Repr

/-! ### Engines, caches and the indirect pairs (R69–R103) -/

/-- One valid L2 line: its set and way, its line number (address ÷ 64) and its 64 bytes (R75). -/
structure L2Line where
  set : Nat
  way : Nat
  line : Nat
  data : List Byte
  deriving DecidableEq, Repr

/-- A line of an L1 cache: its line number, its way, its bytes (R74). -/
structure L1Line where
  line : Nat
  way : Nat
  data : List Byte
  deriving DecidableEq, Repr

/-- A read that missed: its requester, and the address and size code it asked for (R77, R93). -/
structure Miss where
  req : Nat
  addr : Nat
  size : Nat
  deriving DecidableEq, Repr

/-- A fill in flight (R77–R79): the line, the miss that started it, those merged with it, the data
read with later stores merged, and whether it must deliver without allocating. -/
structure Fill where
  line : Nat
  first : Miss
  merged : List Miss
  data : List Byte
  noAlloc : Bool
  /-- The memory read met an uncorrectable error. -/
  bad : Bool
  deriving DecidableEq, Repr

/-- The L2 of one cluster. `waits` are second misses that wait for their requester's first fill (R77);
`errs` are the errors of the sliding window, as way and time (R81); `used` is, by set, the number of ways less the way used
last, 0 where none has been used: what the pseudo-LRU replacement must know at the least (R75, log 81). -/
structure L2 where
  lines : List L2Line := []
  fills : List Fill := []
  waits : List Miss := []
  used : SMap Nat := []
  errs : List (Nat × Nat) := []
  deriving DecidableEq, Repr

/-- What a hart holds beside the address it started at (R69): its privilege mode, machine unless `user`, and its 16 PMP
entries, as configuration byte and address word. -/
structure Hart where
  user : Bool := false
  pmp : SMap (Nat × Nat) := []
  deriving DecidableEq, Repr

/-- An access to an indirect pair that is served in turn (R101). A read gives its size in bytes and the byte it begins at;
of a 64-bit read of IND_ADDR and IND_DATA, the low word already read (R97). -/
inductive IndAcc where
  | addr (source value : Nat)
  | read (source size : Nat) (offset : Nat)
  | write (source value : Nat)
  deriving DecidableEq, Repr

/-- One indirect pair: the access in progress and those waiting behind it (R101). Its registers stand in the
register file. -/
structure IndPair where
  busy : Option IndAcc := none
  waiting : List IndAcc := []
  deriving DecidableEq, Repr

/-! ### Host ports, connections and controllers (R129–R158) -/

/-- A host port (R129–R131): training in progress, link, rate and FEC codes, failed, paused. -/
structure Port where
  training : Bool := false
  up : Bool := false
  rate : Nat := 3
  fec : Nat := 0
  failed : Bool := false
  paused : Bool := false
  deriving DecidableEq, Repr

/-- A TCP segment of read data that is not yet acknowledged; `cmd` is the read whose staging buffer it holds (R134). -/
structure Seg where
  endSeq : Nat
  len : Nat
  tries : Nat := 0
  cmd : Nat := 0
  /-- Covered by a SACK block; resent in the present recovery. -/
  sacked : Bool := false
  again : Bool := false
  deriving DecidableEq, Repr

/-- Where a connection stands (R135, R137). -/
inductive CtxPhase where
  | halfOpen | opened | icDone | connected
  deriving DecidableEq, Repr

/-- What a context's queue is (R135). -/
inductive QKind where
  | unknown | discovery | admin | io
  deriving DecidableEq, Repr

/-- One connection context (R135–R141). -/
structure Ctx where
  port : Nat
  entry : Nat
  disc : Bool
  peerMac : Nat
  peerIp : Nat
  peerPort : Nat
  /-- The listener's TCP port that the SYN named. -/
  ownPort : Nat := 0
  phase : CtxPhase := .halfOpen
  /-- TCP: segment size, send window state, retransmission timeout in ms, congestion window and threshold. -/
  mss : Nat
  sndNxt : Nat := 0
  sndUna : Nat := 0
  sndWnd : Nat := 65535
  rto : Nat := 1000
  srtt : Nat := 0
  rttvar : Nat := 0
  cwnd : Nat
  ssthresh : Nat := 524288
  dupAcks : Nat := 0
  /-- In loss recovery, the sequence number that ends it. -/
  recover : Option Nat := none
  segs : List Seg := []
  /-- Data not yet sent in segments: lengths and the reads they belong to, in order. -/
  unsent : List (Nat × Nat) := []
  /-- The next sequence number expected, data held out of order (first and after its last), and bytes received since the
  last acknowledgement. -/
  rcvNxt : Nat := 0
  ooo : List (Nat × Nat) := []
  unacked : Nat := 0
  /-- Options in use: the peer's window shift, timestamps with the last one received, SACK, ECN; a CE mark to echo, a CWR
  to send, and the sequence number up to which the window was last halved for one. -/
  wscale : Option Nat := none
  tsRecent : Option Nat := none
  sackOk : Bool := false
  ecn : Bool := false
  echo : Bool := false
  cwrDue : Bool := false
  cwrTo : Nat := 0
  /-- ICReq's choices (R137). -/
  hpda : Nat := 0
  hdgst : Bool := false
  ddgst : Bool := false
  maxR2t : Nat := 0
  /-- The queue (R136). -/
  kind : QKind := .unknown
  ctrl : Nat := 0
  qid : Nat := 0
  sqsize : Nat := 0
  /-- SQ flow control, and the submission queue head that completions then carry (R137). -/
  sqFlow : Bool := true
  sqHead : Nat := 0
  /-- Tags of Ready-to-Transfers whose command has been discarded: their data is taken and dropped. -/
  stale : List Nat := []
  capsules : List Capsule := []
  deriving DecidableEq, Repr

/-- An asynchronous event: type, information, log page (R148). -/
structure Evt where
  type_ : Nat
  info : Nat
  log : Nat
  deriving DecidableEq, Repr

/-- An entry of a controller's Error Information log: the queue, command identifier, status, first block and namespace of
a command that failed (R144). -/
structure ErrEntry where
  count : Nat
  sqid : Nat
  cid : Nat
  status : Nat
  lba : Nat
  nsid : Nat
  deriving DecidableEq, Repr

/-- A controller of the subsystem (R136, R142–R144, R153, R463). -/
structure Ctrl where
  discovery : Bool := false
  port : Nat
  hostNqn : Nat
  hostId : Nat
  kato : Nat
  /-- When the keep-alive timer last restarted (R153). -/
  kaFrom : Nat := 0
  cc : Nat := 0
  shst : Nat := 0
  /-- Asynchronous Event Requests held, as context and command identifier, and notices not yet posted. -/
  aers : List (Nat × Nat) := []
  notices : List Evt := []
  aec : Nat := 0
  /-- Thresholds of the composite temperature in K, by type: 0 over, 1 under (R144). -/
  tempThresholds : SMap Nat := []
  queues : Nat := 0
  /-- Autonomous Power State Transition: enabled, and its 256-byte table (R144). -/
  apst : Nat := 0
  apstTable : List Byte := []
  /-- Error Information, newest first, with the count of errors so far (log 01h). -/
  errCount : Nat := 0
  errors : List ErrEntry := []
  /-- Changed namespaces (log 04h) and changed zones (log BFh). -/
  changedNs : List Nat := []
  changedZones : List (Nat × Nat) := []
  /-- The nonce held by the controller (R463). -/
  nonce : Option (List Byte) := none
  deriving DecidableEq, Repr

/-- A centralized discovery controller (R155): connected, and the next retry's wait in seconds. -/
structure Cdc where
  connected : Bool := false
  wait : Nat := 1
  /-- Entries last registered, as port and address entry. -/
  registered : List (Nat × Nat) := []
  deriving DecidableEq, Repr

/-- The host side of the subsystem. -/
structure HostSide where
  ports : SMap Port := []
  ctxs : SMap (Option Ctx) := []
  ctrls : SMap (Option Ctrl) := []
  /-- Allowed Host NQNs that firmware holds, at most 64 (R156). -/
  allowed : List Nat := []
  /-- HOST_RATE of the configuration block, coded as HOST_Pp_STATUS.RATE (R120, R129). -/
  hostRate : Nat := 0
  cdcs : SMap Cdc := []
  /-- ANA: groups in Change since a time, change count (R151), groups' last reported state. -/
  anaSince : SMap Nat := []
  anaCount : Nat := 0
  anaLast : SMap Nat := []
  /-- GENCTR of the discovery log (R154). -/
  discGen : Nat := 0
  /-- MCTP endpoint, SMBus frequency code, transmission unit, health status change (R157). -/
  mctpEid : Nat := 0
  smbusFreq : Nat := 0
  mctpUnit : Nat := 64
  miHealth : Nat := 0
  /-- Firmware slots: the running one, the one named for trial, an activation in progress and one held (R38, R146). -/
  running : Nat := 0
  trial : Option Nat := none
  activating : Bool := false
  heldActivations : List (Option Nat × Nat × Nat) := []
  /-- Device self-test: current operation and results, newest first. -/
  dstResults : List Nat := []
  deriving DecidableEq, Repr

/-! ### The command engine and Caisson (R159–R198) -/

/-- An outstanding Ready-to-Transfer: tag, first byte, length, bytes arrived (R140, R141). -/
structure R2T where
  tag : Nat
  off : Nat
  len : Nat
  got : Nat := 0
  deriving DecidableEq, Repr

/-- Where a command stands. -/
inductive CmdPhase where
  /-- Taken in; its own meaning is next. -/
  | fresh
  /-- A write-pool command waiting for its reservation (R170), or a command waiting for earlier ones (R162, R182). -/
  | waiting
  /-- Reserved: its data is arriving (R140). -/
  | reserved
  /-- Committed or taken effect; its completion waits for its turn (R163). -/
  | effective
  /-- A read whose sources are chosen and that waits for the medium (R175). -/
  | media
  deriving DecidableEq, Repr

/-- A command in flight (R159–R175). -/
structure Cmd where
  seq : Nat
  /-- The connection it completes on, unless that has ended (R152). -/
  ctx : Option Nat
  ctrl : Nat
  hostNqn : Nat
  hostId : Nat
  cap : Capsule
  /-- 0 read, 1 write, 2 admin (R161). -/
  pool : Nat
  phase : CmdPhase := .fresh
  io : Bool := false
  /-- The first global zone index it touches in a sequential zone (R163). -/
  zone : Option Nat := none
  /-- The zones that a Zone Management Send with Select All set changes, as intake found them (R178, R180). -/
  zset : List Nat := []
  slba : Nat := 0
  nlb : Nat := 0
  recs : List Nat := []
  /-- Write data that has arrived, as offset and bytes. -/
  data : List (Nat × List Byte) := []
  r2ts : List R2T := []
  r2tNext : Nat := 0
  digestBad : Bool := false
  status : Nat := 0
  /-- All its data is in its slots, and it waits for an earlier Zone Management Send to take effect (R162). -/
  ready : Bool := false
  /-- It was discarded, or met a state that turned it away, and waits for its turn to complete (R163, R164, R180). -/
  gone : Bool := false
  /-- Blocks of the read staging buffer that it holds (R161). -/
  bufs : Nat := 0
  /-- Media blocks a read still waits for, and the blocks it has, by block index. -/
  want : List Nat := []
  have_ : SMap (List Byte) := []
  /-- A track operation has started for it (R183). -/
  started : Bool := false
  since : Nat := 0
  deriving DecidableEq, Repr

/-- An entry record of the journal (R168). `state` as the record's STATE; 0 is free. -/
structure EntryRec where
  state : Nat := 0
  kind : Nat := 0
  piece : Nat := 0
  pieces : Nat := 0
  nsid : Nat := 0
  slba : Nat := 0
  nlb : Nat := 0
  hostIdx : Nat := 0
  seq : Nat := 0
  /-- First slot and length of each run. -/
  runs : List (Nat × Nat) := []
  crcOk : Bool := true
  /-- Blocks of the piece already on the medium and classed PASS or MARGINAL (R172). -/
  placed : List Nat := []
  /-- When it was committed: the age of its destage counts from then (R194). -/
  since : Nat := 0
  /-- The breach by an uncorrectable block of it has been counted (R35). -/
  breached : Bool := false
  deriving DecidableEq, Repr

/-- A data slot with its tag (R169). -/
structure Slot where
  lba : Nat := 0
  nsid : Nat := 0
  seqLo : Nat := 0
  pi : List Byte := []
  data : List Byte := []
  /-- Recovery discarded it: its tag did not match its record (R169). -/
  lost : Bool := false
  deriving DecidableEq, Repr

/-- A zone table entry (R166). -/
structure ZoneEnt where
  zstate : Nat := 0
  zfc : Bool := false
  rzr : Bool := false
  zgen : Nat := 0
  mediaWp : Nat := 0
  deriving DecidableEq, Repr

/-- A journal region descriptor copy (R167). -/
structure JDesc where
  good : Bool := false
  gen : Nat := 0
  fwMib : Nat := 0
  dataSlots : Nat := 0
  unreleased : Nat := 0
  hwm : Nat := 0
  deferHeld : Nat := 0
  deriving DecidableEq, Repr

/-- A log 0xC1 entry (R192). -/
structure Defer where
  seq : Nat
  nsid : Nat
  zone : Nat
  slba : Nat
  nlb : Nat
  failed : Nat
  reason : Nat
  status : Nat
  tb : Nat
  wall : Nat
  hostIdx : Nat
  recIdx : Nat
  deriving DecidableEq, Repr

/-- What Caisson holds in the MRAM: it survives every reset (R61, R165–R169, R190–R192). -/
structure Jrn where
  recs : SMap EntryRec := []
  slots : SMap Slot := []
  zones : SMap ZoneEnt := []
  desc0 : JDesc := {}
  desc1 : JDesc := {}
  /-- The Caisson host table: Host NQN and Host ID by HOSTIDX (R168). -/
  hosts : SMap (Option (Nat × Nat)) := []
  /-- Log 0xC1. -/
  log : List Defer := []
  logGen : Nat := 0
  logTotal : Nat := 0
  logOverflow : Nat := 0
  /-- Pairs of HOSTIDX and namespace with a deferred error pending (R190). -/
  pendingErr : List (Nat × Nat) := []
  /-- The reset count of each zone beyond ZGEN's 16 bits (R241). -/
  zoneResets : SMap Nat := []
  /-- The end of what a zone holds on the medium, beyond a deferred record too (R172, R179). -/
  placedEnd : SMap Nat := []
  /-- Ranges of conventional namespaces that have been placed on the medium since their format (R179). -/
  convWritten : List (Nat × Nat × Nat) := []
  /-- Write-degraded actuators (R193). -/
  degraded : List Nat := []
  deriving DecidableEq, Repr

/-- A zone as intake sees it: as it will stand once every command taken in before has taken effect (R163, R178). -/
structure IZone where
  st : Nat := 0
  wp : Nat := 0
  lastSeq : Nat := 0
  deriving DecidableEq, Repr

/-- A scheduler entry (R194): kind 0 read, 1 destage, 2 patrol; the command's intake number or the entry record;
the blocks; the time its age counts from. -/
structure SchedEnt where
  kind : Nat
  seq : Nat
  rcd : Nat
  nsid : Nat
  lba : Nat
  nlb : Nat
  since : Nat
  deriving DecidableEq, Repr

/-- The zone that an actuator's patrol has in hand (R196): namespace, zone, the next block to read, weak sectors met, and
whether a sector could not be confirmed at all. -/
structure Patrol where
  nsid : Nat
  z : Nat
  pos : Nat := 0
  weak : Nat := 0
  bad : Bool := false
  deriving DecidableEq, Repr

/-- One actuator's scheduler (R161, R194) and service state (R150, SCHn_STATE). -/
structure Sched where
  queue : List SchedEnt := []
  window : List SchedEnt := []
  running : List SchedEnt := []
  /-- SCHn_STATE: 1 starting, 2 in service, 4 parked, 5 UNAVAILABLE. -/
  st : Nat := 1
  /-- Patrol: the zone in hand, the zones scanned in the present pass, and when the pass began (R196). -/
  patrol : Option Patrol := none
  patDone : List (Nat × Nat) := []
  patFrom : Option Nat := none
  deriving DecidableEq, Repr

/-- Confirmed media data in the read staging buffer (R175, R161). `below`: only reads with a lower intake number may use
it, since a later command has overwritten or reset the block. -/
structure Staged where
  nsid : Nat
  lba : Nat
  data : List Byte
  below : Option Nat := none
  deriving DecidableEq, Repr

/-- What a power-state entry has put aside for the way back (R57): the actuators it has parked, and as it found them the
speeds commanded of the spindle, TDM_CTL, HSL_CTL by actuator, and of clusters 0 to 3 the state and CLU_CTL. -/
structure PsSaved where
  parked : List Nat := []
  spin : List Nat := []
  tdm : Option Nat := none
  hsl : List (Nat × Nat) := []
  clus : List (Nat × Nat × Nat) := []
  deriving DecidableEq, Repr

/-- The command engine beyond Caisson's MRAM. -/
structure CmdEng where
  recovered : Bool := false
  stopped : Bool := false
  nextSeq : Nat := 0
  cmds : List Cmd := []
  /-- Write-pool commands waiting for a reservation, in intake order. -/
  waits : List Nat := []
  iz : SMap IZone := []
  sched : SMap Sched := []
  staged : List Staged := []
  /-- Entries of media work that wait for room in their staging buffer, in order (R43, R161). -/
  bufWaits : List SchedEnt := []
  fmt : Fmt := {}
  /-- Namespaces with a Format NVM in progress. -/
  formatting : List Nat := []
  /-- Power: present state, moving, target, entry (true) or exit, last operational state, abandon at the next
  safe point, actuators active in PS1 (R187–R189). -/
  ps : Nat := 0
  moving : Bool := false
  target : Nat := 0
  entering : Bool := false
  lastOp : Nat := 0
  abandon : Bool := false
  active : List Nat := []
  saved : PsSaved := {}
  /-- When the last I/O command completed (Autonomous Power State Transition, R144). -/
  idleFrom : Nat := 0
  pauseFrom : Nat := 0
  /-- Next Ready-to-Transfer tag. -/
  nextTag : Nat := 0
  deriving DecidableEq, Repr

/-! ### The Head Sample Link and the preamplifiers (R199–R233) -/

/-- An upstream lane (R210, R211, R222): its state code, the last FSEQ, the PTYPE, RATE and HEAD of the last good
frame, whether its next sample resumes a stream, and the samples last delivered, none for an erased one. The runs are those
that its state is left on: slots without MARKER and errored frames of a lane that is UP, good training frames of one in TRAIN,
and markers found by one in ACQUIRE or LOST. -/
structure UpLane where
  st : Nat := 0
  fseq : Nat := 0
  ptype : Nat := 3
  rate : Nat := 0
  head : Nat := 0
  resume : Bool := false
  /-- The descrambler: the last 58 scrambled line bits, the latest in bit 57 (R203). -/
  descr : Nat := 0
  samples : List (Option Int) := []
  noMark : Nat := 0
  errRun : Nat := 0
  train : Nat := 0
  markRun : Nat := 0
  deriving DecidableEq, Repr

/-- What a lane's frame brings (R206, R210, R211): whether its samples resume a stream; the samples, as the channel lane's FIFO
and the two islands' deliver them; RATE, and HSW of a good one. -/
structure Brought where
  lane : Nat
  resume : Bool := false
  chan : List (Option Int) := []
  islA : List (Option Int) := []
  islB : List (Option Int) := []
  rate : Nat := 0
  hsw : Bool := false
  deriving DecidableEq, Repr

/-- Frames sent together, as the lanes of a group bring them (R200, R205): their FSEQ, what each lane brings, and the AUX unit
of the first of them that was good. -/
structure Skew where
  fseq : Nat
  got : List Brought := []
  aux : Option Nat := none
  deriving DecidableEq, Repr

/-- A preamplifier register access (R221): of the pair of a cluster, or of the lane itself for PA_WCUR. `dead` says the
pair has already completed it as a timeout. -/
structure CfReq where
  pair : Option Nat
  write : Bool
  reg : Nat
  data : Nat
  dead : Bool := false
  deriving DecidableEq, Repr

/-- The request in hand: its TAG and whether it has been resent (R221). -/
structure CfCur where
  req : CfReq
  tag : Nat
  resent : Bool := false
  deriving DecidableEq, Repr

/-- Units of a control frame received so far, and the FSEQ of the last unit taken (R205, R218). -/
structure AuxIn where
  bits : Nat := 0
  count : Nat := 0
  fseq : Option Nat := none
  deriving DecidableEq, Repr

/-- One HSL group in the controller. -/
structure Hsl where
  lanes : SMap UpLane := []
  dSt : Nat := 0
  dFseq : Nat := 0
  /-- Causes that pull PAn_MGT low besides MGT_SAFE (R226, R296). -/
  lanesPull : Bool := false
  failPull : Bool := false
  shockPull : Bool := false
  hwSafe : Bool := false
  paFault : Bool := false
  cur : Option CfCur := none
  queue : List CfReq := []
  tag : Nat := 0
  auxOut : List Nat := []
  auxIn : AuxIn := {}
  inbox : List Nat := []
  /-- The deskew buffer (R200): frames that wait for those of the other lanes, the earliest first, and the FSEQ last passed on. -/
  skew : List Skew := []
  passed : Option Nat := none
  /-- Good upstream frames in a row that showed DS_UP = 1, up to 8 (R222). -/
  dsRun : Nat := 0
  /-- What the downstream header selects (R212): head, readers, rate. -/
  head : Nat := 0
  abEn : Bool := false
  vEn : Bool := false
  rate : Nat := 0
  /-- The write stream: WRITE_EN, WFREQ, and a WSTART due in the next frame (R213, R280). -/
  writeEn : Bool := false
  wfreq : Nat := 0
  wstart : Bool := false
  /-- LEVEL of the last three cells sent, the latest first (R278). -/
  levels : List Bool := []
  /-- TX_FFE (R231). -/
  txFfe : Nat := 0xFC0
  /-- The scrambler of HSLn.D: the last 58 line bits it made, the latest in bit 57 (R203). -/
  scr : Nat := 0
  deriving DecidableEq, Repr

/-- A preamplifier (R122, R123, R214–R220, R225, R230). `regs` holds its writable registers by offset; `fifo` the write symbols
held, the next to be emitted first (R215). -/
structure Pre where
  running : Bool := false
  regs : SMap Nat := []
  headstat : Nat := 0
  elems : SMap Nat := []
  dsUp : Bool := false
  trainRun : Nat := 0
  errRun : Nat := 0
  markRun : Nat := 0
  training : Bool := true
  head : Nat := 0
  abEn : Bool := false
  vEn : Bool := false
  rate : Nat := 0
  /-- A good downstream frame has arrived since the reset, or since the receiver was declared down (R223). -/
  heard : Bool := false
  usUp : Nat := 0
  /-- The head asked for, while a change to it takes effect, and the reader-off frames sent for it (R217). -/
  headTo : Nat := 0
  switching : Bool := false
  offSent : Nat := 0
  /-- The rate asked for (R208). -/
  rateTo : Nat := 0
  /-- Bit l: the next sample frame of lane l carries HSW (R206). -/
  hsw : Nat := 0
  /-- The FSEQ of the next upstream frames (R206). -/
  upFseq : Nat := 0
  /-- Replies that wait, the AUX units of the message being sent, and the frames since the last STATUS and SENSE, up to 25
  (R218, R220). -/
  replies : List Nat := []
  auxOut : List Nat := []
  statusAge : Nat := 0
  senseAge : Nat := 0
  /-- What is driven: the head, the assist demand and the heater demand in effect, 0 where undriven (R214, R225). -/
  driven : Nat × Nat × Nat := (0, 0, 0)
  assist : Nat := 0
  assistEn : Bool := false
  writeEn : Bool := false
  heater : Nat := 0
  heaterEn : Bool := false
  wfreq : Nat := 0
  fifo : List Nat := []
  emitting : Bool := false
  safe : Bool := true
  safeCmd : Bool := false
  wabort : Bool := false
  limit : Bool := false
  faults : Nat := 0
  crcErr : Nat := 0
  loss : Nat := 0
  waborts : Nat := 0
  /-- The preamplifier's descrambler, as `UpLane.descr`. -/
  descr : Nat := 0
  auxIn : AuxIn := {}
  inbox : List Nat := []
  deriving DecidableEq, Repr

/-! ### Channel lanes, the Garnet pool, the write path (R234–R300) -/

/-- A position record (R310), with the time it was sent. -/
structure PosRec where
  isl : Nat
  wedge : Nat
  mark : Nat
  trk : Bool
  pes : Nat
  mode : Nat
  wper : Nat
  tb : Nat
  deriving DecidableEq, Repr

/-- A wedge whose deciding records have arrived: IN, IN_W, in SETTLE, coasted, and its records (R251, R284). -/
structure Wedge where
  no : Nat
  inn : Bool
  inw : Bool
  settle : Bool
  coast : Bool
  recs : List PosRec
  deriving DecidableEq, Repr

/-- A candidate of a sector (R247, R248): an offset for each fragment, its distance sum, and its decode: iterations
started, how it ended (0 unfinished, 1 syndrome zero, 2 limit reached), stopped, the decoded information bytes. -/
structure Cand where
  offs : List Int
  dist : Nat
  timed : Bool
  iters : Nat := 0
  fin : Nat := 0
  stopped : Bool := false
  info : List Byte := []
  deriving DecidableEq, Repr

/-- What a reader's path carries from sector to sector of an operation (R234, R249): baseline, gain, the timing phase in 2^-24
of a sample, and the samples a channel bit takes, in the same unit. -/
structure Hold where
  dc : Int := 0
  gain : Int := 0
  phase : Int := 0
  freq : Int := 0
  deriving DecidableEq, Repr

/-- A lane's front end (R234): the paths of readers A, B and V, and the equalizer's taps as adapted: the 24 of EQ_AB, then the 12
each of EQ_A1, EQ_B1 and EQ_V1. -/
structure Front where
  a : Hold := {}
  b : Hold := {}
  v : Hold := {}
  taps : List Int := []
  deriving DecidableEq, Repr

/-- A sector of a track operation in the lane (R250–R254, R372–R374). `res`: 0 unresolved, 1 confirmed, 2 failed,
3 abandoned, and of a written sector 4 done with. -/
structure Sector where
  slot : Nat
  psn : Nat
  parity : Bool
  ra : Bool
  group : Nat
  data : Nat
  entry : Option Nat := none
  expect : Nat
  wedge : Nat
  frags : List (Nat × Nat)
  armed : Nat := 0
  begun : Nat := 0
  missed : Bool := false
  passed : Bool := false
  firstBit : Nat := 0
  lastBit : Nat := 0
  /-- Samples of readers A and B, or of the verify reader in `a`, in whole frames, none for an erased one. -/
  a : List (Option Int) := []
  b : List (Option Int) := []
  hasA : Bool := false
  hasB : Bool := false
  /-- A stream became absent during the sector (R237). -/
  goneA : Bool := false
  goneB : Bool := false
  /-- The samples of each reader that had come when each fragment began, and the front end at the sector's start. -/
  starts : List (Nat × Nat) := []
  front : Front := {}
  span : List Wedge := []
  formed : Bool := false
  preMiss : Bool := false
  noSync : Bool := false
  cands : List Cand := []
  res : Nat := 0
  posted : Bool := false
  ddb : Option Nat := none
  /-- Writing: the gate is on, fragments written with it on throughout, the sector was cut, the information bytes encoded, the verify stream was absent,
  and the sector is read back. -/
  gated : Bool := false
  gfrags : Nat := 0
  cut : Bool := false
  enc : List Byte := []
  vLost : Bool := false
  rb : Bool := false
  deriving DecidableEq, Repr

/-- What a decode is for (R258). -/
inductive Target where
  | otf (slot cand : Nat)
  | verify (slot : Nat)
  | parity (slot : Nat)
  | deferred (entry : Nat)
  | reread (slot : Nat)
  | replay (cand : Nat)
  deriving DecidableEq, Repr

/-- A request for a decoder, waiting or granted (R258, R259): its class (0 RT1, 1 RT2, 2 DEF, 3 RPL), its place in the
order of its class, its limit, the decoder it holds, the number of its grant, the iterations of the present run and of
the runs that preemption ended. -/
structure Job where
  lane : Nat
  cls : Nat
  target : Target
  key : Nat
  limit : Nat
  dec : Option Nat := none
  grant : Nat := 0
  run : Nat := 0
  spent : Nat := 0
  /-- Bits that differed from the written codeword after the first pass (R287). -/
  err : Nat := 0
  /-- The extrinsic LLRs of the last pass, none before the first (R238). -/
  ext : List Int := []
  deriving DecidableEq, Repr

/-- A two-sector parity recovery in progress (R262): its group, the two failed slots, the round, which of the two is
being decoded, the bytes of the XOR accumulator, and the iterations its rounds have started, charged when it resolves
(R255). -/
structure ParRound where
  group : Nat
  s0 : Nat
  s1 : Nat
  round : Nat
  second : Bool
  acc : List Byte
  iters : Nat := 0
  /-- The extrinsic LLRs sent to the member being decoded. -/
  x : List Int := []
  deriving DecidableEq, Repr

/-- A slot of a write operation's map (R291): 0 PENDING, 1 PASS, 2 MARGINAL, 3 FAIL, 4 UNPLACED, 5 READBACK; its FAIL
count, its attempts, and its staging block is to be copied again. -/
structure WSlot where
  st : Nat := 0
  fails : Nat := 0
  tries : Nat := 0
  recopy : Bool := false
  deriving DecidableEq, Repr

/-- A channel lane with its write path and its present track operation (R234–R298, R371–R376). -/
structure Lane where
  busy : Bool := false
  write : Bool := false
  /-- The descriptor in force, and the copies of the sets and of CHLn_CTL and WRn_CTL (R234, R369). -/
  dsc : List Byte := []
  pset : List Byte := []
  wset : List Byte := []
  ctl : Nat := 0
  wctl : Nat := 0
  sectors : List Sector := []
  /-- The arm queue, as slot and fragment, and the result queue (R373, R375). -/
  arm : List (Nat × Nat) := []
  results : List Nat := []
  conf : Nat := 0
  fail : Nat := 0
  aband : Nat := 0
  slips : Nat := 0
  /-- Records on their way from the islands, records of a wedge that waits for the other island, and the last wedge. -/
  posq : List PosRec := []
  half : List PosRec := []
  last : Option Wedge := none
  /-- Parity recoveries in progress, and the groups of the operation whose recovery has run (R262). -/
  pars : List ParRound := []
  recovered : List Nat := []
  slots : SMap WSlot := []
  revs : Nat := 0
  rdback : Bool := false
  /-- Information bytes encoded, by slot, and the accumulator loaded from the carry slot, none when it was lost (R277). -/
  enc : SMap (List Byte) := []
  carry : Option (List Byte) := some []
  /-- The last value written to PA_WCUR, and a write of it in progress (R279). -/
  wcur : Option Nat := none
  wcurDue : Bool := false
  /-- Writing is permitted by the last wedge (R284, R297). -/
  inw : Bool := false
  /-- A cause to end the operation, as the STATUS of R385, that the sequencer has not acted on yet. -/
  stop : Option Nat := none
  /-- The front end at the end of the last sector of the operation (R249). -/
  front : Front := {}
  deriving DecidableEq, Repr

/-- A deferred-decode entry as the lane works on it (R265–R268): the sector as it failed, where its data belongs, and
the step of R266 in hand (1 both readers, 2 reader A, 3 reader B, 4 waiting for the new search, 5 the new candidates). -/
structure DefEnt where
  st : Nat
  source : Nat := 0
  lane : Nat
  reads : Nat := 0
  pset : Nat
  psetBytes : List Byte
  sec : Sector
  pi : Bool
  stage : Option Nat
  piStage : Nat
  block : Option (Nat × Nat)
  /-- Filled by a patrol read (R196). -/
  patrol : Bool := false
  iters : Nat := 0
  /-- Iterations of its decodes that no resolution has charged yet (R28). -/
  owed : Nat := 0
  order : Nat
  step : Nat := 0
  todo : List Cand := []
  cur : Option Cand := none
  deriving DecidableEq, Repr

/-- The shock write-inhibit (R296): which accelerometers were above the threshold at their last sample, which ACCEL_INTx
are high, active, the hold it started with, 0.1 ms, and the WR_SHOCK_CFG in effect, which a write changes at the next
accelerometer sample (R299). -/
structure Shock where
  cfg : Nat := 0x00031420
  above : Nat := 0
  ints : Nat := 0
  active : Bool := false
  hold : Nat := 0
  deriving DecidableEq, Repr

/-- The CHAN block beyond its registers. -/
structure Chan where
  lanes : SMap Lane := []
  jobs : List Job := []
  grants : Nat := 0
  ddb : SMap (Option DefEnt) := []
  fills : Nat := 0
  shock : Shock := {}
  deriving DecidableEq, Repr

/-! ### Basalt islands, the power driver, the accelerometers (R301–R340) -/

/-- The state of a biquad of direct form I: earlier inputs and outputs, Q8.24 (R311). -/
structure Bq where
  x1 : Int := 0
  x2 : Int := 0
  y1 : Int := 0
  y2 : Int := 0
  deriving DecidableEq, Repr

/-- A limiter: its value, velocity and target (R320). -/
structure Lim where
  x : Int := 0
  v : Int := 0
  t : Int := 0
  deriving DecidableEq, Repr

/-- A command armed (R317): the words of BAS_ACTn_CMD, TGT, OFS and MAN, the wedge it is due at, none for the next one,
and whether it is late. -/
structure ActCmd where
  cmd : Nat
  tgt : Nat
  ofs : Nat
  man : Nat
  due : Option Nat
  late : Bool
  deriving DecidableEq, Repr

/-- An actuator in one island (R308, R311–R327). Signals are in units of 2⁻²⁴. -/
structure ActSt where
  mode : Nat := 0
  bank : Nat := 0
  locked : Bool := false
  /-- Consecutive wedges found in order while HUNTING, the last one's number, the number of the last wedge, found,
  predicted or counted, the last SAM's time and the last measured wedge period, ns/256. -/
  run : Nat := 0
  found : Nat := 0
  wedge : Nat := 0
  sam : Nat := 0
  wper : Nat := 0
  /-- Wedges since the SAM of `sam`. -/
  since : Nat := 0
  rev : Nat := 0
  coast : Nat := 0
  armed : Option ActCmd := none
  tgt : Nat := 0
  ofs : Lim := {}
  manV : Lim := {}
  manM : Lim := {}
  bv : List Bq := []
  cm : List Bq := []
  pm : List Bq := []
  nv : List Bq := []
  nm : List Bq := []
  frv : List Bq := []
  fx : List (List Bq) := []
  i : Int := 0
  dv : Int := 0
  dm : Int := 0
  /-- The position of the last wedge, whether it comes from a found wedge, and the velocity estimate. -/
  known : Bool := false
  y : Int := 0
  vh : Int := 0
  /-- The pre-notch values and the MA demand of the last wedge, the VCM demand with its time and the one before it. -/
  vPre : Int := 0
  mPre : Int := 0
  um : Int := 0
  uv : Int := 0
  uvAt : Nat := 0
  uvOld : Int := 0
  tf : Nat := 0
  safeParked : Bool := false
  deadline : Bool := false
  lateRun : Nat := 0
  rvOn : Bool := false
  /-- A late output, whose MISSED frame has yet to be sent: its bytes 0–2 and the COAST bit of its byte 7. -/
  late : Option (List Byte × Bool) := none
  /-- Bytes 0–7 of the last frame sent. -/
  frame : List Byte := []
  deriving DecidableEq, Repr

/-- What one reader's stream shows of a servo wedge, demodulated (R304–R306): a SAM qualifies, the wedge and track
numbers unless they hold an invalid dibit, the RRO value as Q1.15 unless invalid, whether each burst has at least 75 % of
its samples, and N and Q as Q16.16. -/
structure Reader where
  absent : Bool := false
  sam : Bool
  wedge : Option Nat
  track : Option Nat
  rro : Option Int
  enough : Bool
  n : Int
  q : Int
  deriving DecidableEq, Repr

/-- What an island receives of a wedge (R304–R309): both readers, the SAM's time in 1/256 of 10 ns, whether a frame showed
HSW, and whether that fell within the burst window. -/
structure WedgeObs where
  a : Reader
  b : Reader
  samTime : Nat
  hsw : Bool
  inBurst : Bool
  deriving DecidableEq, Repr

/-- What has come into an island from readers A and B of an actuator since its last wedge (R211, R304): the samples, of one RATE,
none for an erased one, and none in the place of one that never came; the time from the last SAM found to the first of them,
ns/256; when the last frames came; and when, from that SAM on, a frame showed HSW. -/
structure Rx where
  a : List (Option Int) := []
  b : List (Option Int) := []
  rate : Nat := 0
  from_ : Nat := 0
  last : Nat := 0
  hsw : Option Nat := none
  deriving DecidableEq, Repr

/-- A Basalt island. -/
structure Island where
  acts : SMap ActSt := []
  /-- The receive side of each actuator. -/
  rx : SMap Rx := []
  /-- The coefficient memory, by word offset. -/
  cmem : SMap Word := []
  deriving DecidableEq, Repr

/-- What the registers of a domain whose clock has stopped go on showing (R23): its registers, its 64-bit counters and, for
an island, its loop states, as they last crossed. -/
structure Crossed where
  regs : SMap Word := []
  wide : SMap Nat := []
  isl : Island := {}
  deriving DecidableEq, Repr

/-- The accelerometers (R314): the last complete set's axes, Q6.10 g, faulty ones and how many reads in a row looked
faulty or good. -/
structure Accels where
  s0 : List Int := []
  s1 : List Int := []
  faulty : Nat := 0
  runs : SMap Nat := []
  deriving DecidableEq, Repr

/-- The power driver as it serves one actuator (R331): bytes 0–7 of the last accepted frame, its lane, a mismatch since
the last status frame, held on the ramp for want of frames, parked, and when a valid frame last arrived. -/
structure Driver where
  frame : List Byte := []
  lane : Nat := 0
  mismatch : Bool := false
  held : Bool := true
  parked : Bool := true
  lastAt : Nat := 0
  deriving DecidableEq, Repr

/-- The power driver, which lies outside the device: its actuators, when a valid frame last arrived on each lane, the
spindle target, frames on the lanes and status frames on TLS that their receivers have not taken yet. -/
structure Tandem where
  drv : SMap Driver := []
  lastOn : SMap (Option Nat) := []
  spin : Nat := 0
  wire : List (Nat × List Byte) := []
  status : List (List Byte) := []
  deriving DecidableEq, Repr

/-- The TLS receiver: when the last valid status frame arrived, its byte 7 and SPIN (R339). -/
structure Tls where
  at_ : Option Nat := none
  last7 : Nat := 0
  spin : Nat := 0
  deriving DecidableEq, Repr

/-! ### Assist, heater and calibration (R341–R366) -/

/-- A loop (R343–R350): EN of the last frame, the limited set-point and its target, the manual limiter, and u, i and d in
1/4096 of an LSB of UQ8.8, with e in LSB of the sense value. -/
structure LoopSt where
  en : Bool := false
  x : Int := 0
  tgt : Int := 0
  man : Int := 0
  u : Int := 0
  i : Int := 0
  e : Int := 0
  d : Int := 0
  /-- The last tick was manual; open loop; a preset is due at the next automatic tick. -/
  manual : Bool := false
  opened : Bool := false
  preset : Bool := false
  /-- Fresh ticks in a row of a trip condition (R351), and ticks since EN became 1. -/
  overN : Nat := 0
  under : Nat := 0
  onFor : Nat := 0
  deriving DecidableEq, Repr

/-- The four targets interpolated for a head: HTR_RD, HTR_WR, AST_SP, AST_FF (R358). -/
structure Targets where
  htrRd : Int := 0
  htrWr : Int := 0
  astSp : Int := 0
  astFf : Int := 0
  deriving DecidableEq, Repr

/-- The assist block's side of an actuator (R343–R347). -/
structure AssistAct where
  head : Nat := 0
  /-- Band and heater step of the last operation. -/
  band : Nat := 0
  step : Int := 0
  t : Targets := {}
  ast : LoopSt := {}
  htr : LoopSt := {}
  /-- A SENSE frame has arrived since the last tick; ticks in a row without one. -/
  fresh : Bool := false
  stale : Nat := 0
  /-- No position record for 4 nominal wedge periods, or none yet (R346). -/
  noRec : Bool := true
  deriving DecidableEq, Repr

/-- An external temperature sensor (R355): valid, its last reading, readings in a row that would change its validity. -/
structure Sensor where
  valid : Bool := false
  t : Int := 0
  run : Nat := 0
  deriving DecidableEq, Repr

/-- The assist and calibration blocks beyond their registers. -/
structure Cal where
  acts : SMap AssistAct := []
  /-- The words of SPACE 0x3, by byte offset: active blocks from 0, staging blocks from 0x2_0000 (R356). -/
  tab : SMap Word := []
  /-- Trips set, by head slot: bit 0 assist, bit 1 heater (R352). -/
  trips : SMap Nat := []
  /-- AST_TRIPS, HTR_TRIPS and TRIP_CLEARS by head slot × 4 + 0, 1, 2 (R363). -/
  counts : SMap Nat := []
  generation : Nat := 0
  /-- T_D, Q8.8 °C, and TSRC (R354). -/
  td : Int := 0
  tsrc : Nat := 3
  sens : SMap Sensor := []
  /-- CAL_PENDING, which of its commits are restores, CAL_DUE as last shown, and the check that runs (R359–R361). -/
  pending : Nat := 0
  restore : Nat := 0
  due : Nat := 0
  check : Option (Nat × Bool) := none
  deriving DecidableEq, Repr

/-! ### Track sequencers (R367–R397) -/

/-- A sequencer's timer (R377): counting wedges or µs, what is left of a count of wedges, when it started, and the
count. -/
structure Timer where
  wedges : Bool
  left : Nat
  from_ : Nat
  count : Nat
  deriving DecidableEq, Repr

/-- A sequencer (R377, R388, R391). -/
structure Seqr where
  pc : Nat := 0
  waiting : Bool := false
  wcond : Nat := 0
  g : SMap Nat := []
  z : Bool := false
  lt : Bool := false
  stack : List Nat := []
  t0 : Option Timer := none
  t1 : Option Timer := none
  /-- Event latches that are set, by condition code. -/
  latch : List Nat := []
  /-- The layout pointer, an entry's index, and the loaded sector. -/
  ptr : Nat := 0
  loaded : Option Sector := none
  inOp : Bool := false
  opFrom : Nat := 0
  rdbacks : Nat := 0
  /-- 0 ROM only, 1 bank 0, 2 bank 1; a switch requested. -/
  active : Nat := 0
  pend : Option Nat := none
  banks : SMap (List Nat) := []
  builds : SMap Nat := []
  /-- A patch load in progress. -/
  loading : Option Nat := none
  /-- The head requested, and its HSW frame has arrived (R217, R381). -/
  head : Nat := 0
  headSeen : Bool := true
  /-- Times of the microcode faults of the active bank within a second (R387). -/
  faultAt : List Nat := []
  clkB : Bool := false
  clkMove : Option Bool := none
  /-- No record for 4 nominal wedge periods (R381): the time of the last record. -/
  lastRec : Nat := 0
  deriving DecidableEq, Repr

/-! ### Redundancy (R398–R420) -/

/-- One island as the redundancy logic sees it (R400–R406). -/
structure IslRed where
  /-- State code of R400. -/
  st : Nat := 0
  /-- Fault code of the fault present, 0 for none. -/
  code : Nat := 0
  /-- Rejoin: 0 not begun, 1 copying, 2 shadowing (R405). -/
  step : Nat := 0
  /-- The wedge-0 passages of each actuator that the island had counted when its shadow began (R405). -/
  revs : List Nat := []
  /-- Times of entries to FAILED, and of aborted rejoins, of the last 24 h (R406). -/
  fails : List Nat := []
  aborts : List Nat := []
  /-- A golden check ordered by a disagreement: ordered or running, and the result once it ended (R404). -/
  goldenOrdered : Bool := false
  goldenResult : Option Bool := none
  /-- A golden check runs. -/
  golden : Bool := false
  /-- CLK_SPIN lies outside its range, or has stopped (R414). -/
  clockBad : Bool := false
  /-- CLK_SPIN has stopped (R23). -/
  clockStopped : Bool := false
  deriving DecidableEq, Repr

/-- One cluster as the redundancy logic sees it (R408–R413). -/
structure CluRed where
  /-- State code of R408. -/
  st : Nat := 0
  /-- Fault code of the present fault, 0 for none. -/
  code : Nat := 0
  fails : List Nat := []
  failCount : Nat := 0
  /-- HB_TIMEOUT in force since the last heartbeat, µs, and the time of that heartbeat. -/
  hbTimeout : Nat := 200
  hbFrom : Nat := 0
  /-- The partial fence of TESTING is in place (R412). -/
  fence : Bool := false
  deriving DecidableEq, Repr

/-- An entry of the fault history of log 0xC0 (R418). -/
structure Hist where
  tb : Nat
  code : Nat
  unit : Nat
  event : Nat
  wallS : Nat
  deriving DecidableEq, Repr

/-- A takeover: the failed cluster, the taker and the time source 80 was asserted (R410). -/
structure Takeover where
  failed : Nat
  taker : Nat
  since : Nat
  deriving DecidableEq, Repr

/-- The redundancy logic. `faults` lists the faults present, as code and unit (R399, R414). -/
structure Red where
  isl : SMap IslRed := []
  clu : SMap CluRed := []
  xlinkUp : Bool := true
  faults : List (Nat × Nat) := []
  takeover : Option Takeover := none
  hist : List Hist := []
  decRetired : Nat := 0
  decFails : SMap Nat := []
  /-- Runs of status frames in which TLx_OK read 0 (R414). -/
  tlBad : SMap Nat := []
  /-- The last frame each island sent over the cross-link for each actuator, as SEQ and bytes 0–7 (R404). -/
  sent : SMap (List Byte) := []
  /-- Log 0xC0's GENERATION, and what the page last read held (log 53). -/
  generation : Nat := 0
  page : List Byte := []
  wdegEntries : Nat := 0
  /-- Corrected errors of DRAM and MRAM within the last hour, as time and number (R414). -/
  dramCe : List (Nat × Nat) := []
  mramCe : List (Nat × Nat) := []
  /-- A sequencer fell back to ROM (R387). -/
  romFallback : Nat := 0
  deriving DecidableEq, Repr

/-! ### Strata, capture and replay (R421–R448) -/

/-- A Strata record (R421). -/
structure Rec where
  src : Nat
  code : Nat
  epoch : Nat
  seq : Nat
  tb : Nat
  args : List Nat
  deriving DecidableEq, Repr

/-- A token bucket of one source and code: tokens in 1/10⁹ (none: full), the time of that count, events
suppressed and the timebase of the first (R426, R427). -/
structure Bucket where
  tokens : Option Nat := none
  at_ : Nat := 0
  suppressed : Nat := 0
  firstTb : Nat := 0
  deriving DecidableEq, Repr

/-- An epoch table entry (R429). -/
structure Epoch where
  life : Nat := 0
  flags : Nat := 0
  tbAt : Nat := 0
  wallAt : Nat := 0
  deriving DecidableEq, Repr

/-- The Strata mirror region of the MRAM (R429). `good` says the control block's MAGIC and CRC are right. -/
structure Mirror where
  good : Bool := false
  life : Nat := 0
  epoch : Nat := 0
  mhead : Nat := 0
  epochs : SMap Epoch := []
  ring : List (Nat × Rec) := []
  deriving DecidableEq, Repr

/-- The recorder (R424–R437). -/
structure Strata where
  /-- Next SEQ of each source. -/
  seqs : SMap Nat := []
  /-- Numbered records waiting in their sources' queues, in arrival order. -/
  queue : List Rec := []
  /-- STRATA_HEAD and the records of the SRAM ring with their positions, oldest first. -/
  head : Nat := 0
  ring : List (Nat × Rec) := []
  /-- SRAM position up to which records have been copied, and the mirror position of SRAM position 0. -/
  copied : Nat := 0
  mbase : Nat := 0
  onMirror : Bool := false
  mirrorRun : Bool := false
  retest : Bool := false
  buckets : SMap Bucket := []
  /-- The recorder has stopped taking records at a power failure (R431). -/
  stopped : Bool := false
  /-- Log 0xC3: SNAP_ID, and the last snapshot of each controller as its page (R433). -/
  snapId : Nat := 0
  snaps : SMap (List Byte) := []
  deriving DecidableEq, Repr

/-- One capture stream beyond its registers (R438, R441): the bytes (or entries) of the post-trigger span left,
the trigger bits of the freeze, and the first and last item's timebase. -/
structure Stream where
  frozen : Bool := false
  freezing : Bool := false
  left : Nat := 0
  trigger : Nat := 0
  firstTb : Nat := 0
  lastTb : Nat := 0
  deriving DecidableEq, Repr

/-- The SECTOR entry that a lane replay works on (R440, R443): what the entry holds, and the step in hand (0 the sync
search is awaited, 1 the first decodes, 2 both readers, 3 reader A, 4 reader B, 5 the new search is awaited, 6 its
candidates). -/
structure RplEntry where
  verify : Bool
  kind : Nat
  capSeq : Nat
  forced : Bool
  pi : Bool
  ctl : Nat
  iterDef : Nat
  pset : List Byte
  wset : List Byte
  cw : List Byte
  /-- What the live run left: iterations and end of each candidate, verify iterations, ERR. -/
  liveC : List (Nat × Nat)
  liveIts : Nat
  liveErr : Nat
  /-- Condition 4, from the entry's position records. -/
  pos : Bool
  sec : Sector
  step : Nat := 0
  todo : List Cand := []
  cur : Option Cand := none
  /-- Iterations started, and those of the decodes that ended, without runs that were preempted or stopped (R253, R257). -/
  iters : Nat := 0
  runs : Nat := 0
  deriving DecidableEq, Repr

/-- Capture and replay (R438–R445). -/
structure Capture where
  streams : SMap Stream := []
  /-- CAP_SEQ of the next SECTOR entry, freezes, and log 0xC4's GENERATION. -/
  capSeq : Nat := 0
  freezes : Nat := 0
  generation : Nat := 0
  /-- RPL_STATUS: STATE (0 IDLE, 1 RUNNING, 2 DONE), RESULT, DONE_N; the replay in hand or last run: KIND (1 lane, 2 servo),
  UNIT, ISL, DEFER, COUNT. -/
  rplState : Nat := 0
  rplResult : Nat := 0
  rplDone : Nat := 0
  rplKind : Nat := 0
  rplUnit : Nat := 0
  rplIsl : Nat := 0
  rplDefer : Bool := false
  rplCount : Nat := 0
  /-- The lane's entry, and a result that is due when the replay ends. -/
  rpl : Option RplEntry := none
  rplDue : Option Nat := none
  /-- The unit was taken into service while its replay ran (R447). -/
  rplStopped : Bool := false
  deriving DecidableEq, Repr

/-! ### Security (R449–R466) -/

/-- The one-time-programmable memory (R452): it survives everything. `bad` names the fields whose reading is
uncorrectable by their rows in R452, from 0 VENDOR_HASH to 7 MC_FLOOR, OWNER_HASH[k] being 8 + k (log 51). -/
structure Otp where
  vendorSet : Bool := true
  vendorRevoked : Bool := false
  owner : SMap (List Byte) := []
  ownerRevoked : Nat := 0
  dus : Option (List Byte) := none
  /-- Lifecycle: 0 VENDOR, 1 OPEN, 2 SECURED, 3 RMA. -/
  lc : Nat := 0
  imageFloor : Nat := 0
  mcFloor : Nat := 0
  bad : List Nat := []
  /-- The MRAM has been cleared for RMA (R456). -/
  rmaDone : Bool := false
  deriving DecidableEq, Repr

/-- A measurement (R462). -/
structure Meas where
  slot : Nat
  signer : Nat
  gen : Nat
  svn : Nat
  version : List Byte
  hash : List Byte
  deriving DecidableEq, Repr

/-- The measurement of a patch loaded: SIGNER, SVN and the SHA-256 of its covered bytes (R462). -/
structure PatchMeas where
  signer : Nat := 0
  svn : Nat := 0
  hash : List Byte := []
  deriving DecidableEq, Repr

/-- A SEC command in progress (R465): its code, what it will report, the output it will store, and the OTP fields it
writes. -/
structure SecCmd where
  op : Nat
  result : Nat
  boot : Nat := 0
  out : List Byte := []
  at_ : Nat := 0
  nonce : List Byte := []
  fields : List Nat := []
  deriving DecidableEq, Repr

/-- A request that waits for a report: a Security Receive, or none for one tunnelled through NVMe-MI, how many bytes it
asks for, and its nonce (R463). -/
structure ReportWait where
  cmd : Option Nat
  al : Nat
  nonce : List Byte
  deriving DecidableEq, Repr

/-- The SEC block. `lc` is the lifecycle state the device runs in, `seen` the OTP as read at the last reset release. -/
structure Sec where
  lc : Nat := 0
  seen : Otp := {}
  idReady : Bool := false
  idPk : List Byte := []
  debugOpen : Bool := false
  debugSeen : Bool := false
  challenge : List Byte := []
  boot : Option Meas := none
  run : Option Meas := none
  activated : Bool := false
  activations : Nat := 0
  /-- Slots that passed VERIFY_SLOT since reset, with what was measured. -/
  verified : SMap (Option Meas) := []
  /-- Patches by sequencer × 2 + bank. -/
  patches : SMap PatchMeas := []
  cmd : Option SecCmd := none
  done : Bool := false
  /-- Requests that wait for a report, in arrival order (R463). -/
  waiting : List ReportWait := []
  /-- Security Sends whose object a SEC command has yet to take, as command and protocol. -/
  sends : List (Nat × Nat) := []
  deriving DecidableEq, Repr

/-! ### Start-up (R104–R128) -/

/-- Where the boot ROM stands (R113, R119): about to run its sequence, firmware running, waiting to retry, or halted. -/
inductive BootPhase where
  | ready | firmware | retry | halted
  deriving DecidableEq, Repr

/-- The boot ROM, the flash command port and head-stack discovery. -/
structure Boot where
  phase : BootPhase := .ready
  /-- Rounds that have failed (R119), and slots whose flash commands got no answer in this round (R105). -/
  failed : Nat := 0
  dead : List Nat := []
  /-- The flash command port (R127, R128): its FIFO, a command on the bus, and flash window reads that wait, as
  requester, address and bytes. -/
  fifo : List Byte := []
  busy : Bool := false
  /-- The bytes that the command on the bus writes to the flash. -/
  sending : List Byte := []
  waits : List (Nat × Nat × Nat) := []
  /-- Discovery's outcome by actuator (1 found, 2 not found, 3 mismatch; R124) and by head slot, as PA_HEADSTAT codes it;
  PA_ELEM_m as read. -/
  acts : SMap Nat := []
  heads : SMap Nat := []
  elems : SMap Nat := []
  deriving DecidableEq, Repr

/-! ### What the block sends -/

/-- What the block sends to the outside, in the order sent: the model's record of it (log 1). -/
inductive Out where
  /-- The answer to a bus read, to the requester that made it (R92). -/
  | readData (source value : Nat)
  /-- An error response, with its kind (R93). -/
  | busError (source kind : Nat)
  /-- A completion on a connection: command identifier, status as SCT × 256 + SC, DNR, Dwords 0 and 1 (R137). -/
  | completion (ctx cid status : Nat) (dnr : Bool) (dw0 dw1 : Nat)
  /-- C2HData of a command: the padding the host asked for between the header and the data, and the data (R137). -/
  | c2hData (ctx cid pad : Nat) (data : List Byte)
  /-- A Ready-to-Transfer: command, tag, first byte and length (R140). -/
  | r2t (ctx cid tag off len : Nat)
  /-- ICResp, with MAXH2CDATA and the digests in use (R137). -/
  | icResp (ctx maxData : Nat) (hdgst ddgst : Bool)
  /-- C2HTermReq with its fatal error status (R138). -/
  | termReq (ctx fes : Nat)
  /-- A TCP segment without data, on a port, with its VLAN tag if any: the frame from its destination MAC address
  (R130, R132–R135). -/
  | tcp (port : Nat) (tag : Option Nat) (bytes : List Byte)
  /-- A segment of read data of a context, sent for the first time or again: the sequence number after it, its length, its
  VLAN tag if any, and its MAC, IP and TCP headers without the TCP checksum, which its data enters (R130, R132–R134). -/
  | segment (ctx endSeq len : Nat) (tag : Option Nat) (headers : List Byte)
  | resend (ctx endSeq len : Nat) (tag : Option Nat) (headers : List Byte)
  /-- A slow-path frame sent on a port, with its VLAN tag if any (R130, R133). -/
  | ethernet (port : Nat) (tag : Option Nat) (bytes : List Byte)
  /-- Firmware connects to a CDC over the slow path as a host, with a KATO in ms (R155). -/
  | cdcConnect (index kato : Nat)
  /-- A Discovery Information Management command to a CDC: 1 register, 2 update, 3 deregister, with the entries listed
  (R155). -/
  | cdc (index task : Nat) (entries : List (Nat × Nat))
  /-- An answer on SMBus: result code and bytes (R157). -/
  | smbus (code : Nat) (bytes : List Byte)
  /-- Data delivered to a requester of a cluster's L2: the line's bytes (R77, R80). -/
  | line (cluster req line : Nat) (data : List Byte)
  /-- The value an atomic operation returns to its hart (R84). -/
  | atomic (hart value : Nat)
  /-- A machine external interrupt delivered to a hart (R72). -/
  | external (hart : Nat)
  /-- A command sent to the boot flash: its code, its address if any, dummy cycles, bytes written, bytes to be read (R127). -/
  | flash (opcode : Nat) (address : Option Nat) (dummy : Nat) (data : List Byte) (read : Nat)
  /-- A machine timer interrupt delivered to a hart (R73). -/
  | timer (hart : Nat)
  /-- A downstream link frame: header, write symbols, demand block and AUX unit, its line bits 0–1,087 as scrambled, and the
  levels of its 560 symbols (R201–R203, R212, R213, R218). -/
  | downFrame (n header : Nat) (symbols : List Nat) (demand aux line : Nat) (levels : List Int)
  /-- A preamplifier's reply message made (R219); it goes out in the AUX units of its upstream frames. -/
  | paReply (n msg : Nat)
  /-- What a preamplifier sends in a frame time: the headers of its three upstream lanes, A first, and the AUX unit that they
  share. SAT and the samples, which its readers make, are left out (R205–R208, R217, R220, R223). -/
  | upFrames (n : Nat) (headers : List Nat) (aux : Nat)
  /-- Write cells that a preamplifier emits, in order: LEVEL, whether write current flows, and PRECOMP; with the write current
  and the amplitude of its overshoot, µA (R215, R279). -/
  | cells (n current overshoot : Nat) (cells : List (Bool × Bool × Nat))
  /-- A read of an accelerometer: its number, whether in mode 3, the divider and the command byte (R314). -/
  | spiRead (k : Nat) (mode3 : Bool) (div cmd : Nat)
  /-- A private read of an I3C sensor: its number, dynamic address and register index (R355). -/
  | i3cRead (sensor dyn index : Nat)
  /-- What a preamplifier drives from now on: its selected head, with the assist demand and the heater demand in effect, 0
  where undriven (R214, R225). -/
  | driven (n head assist heater : Nat)
  /-- A command sent to an I3C target: sensor, static and dynamic address (R355). -/
  | i3c (sensor static dyn : Nat)
  /-- The line `ZQ4120 BOOT FAIL s0=… s1=…` on UART_TXD, with the two result codes (R119). -/
  | uart (r0 r1 : Nat)
  deriving DecidableEq, Repr

/-- Why the block stops. No meaning of this model stops it: the spec gives every command of the table an effect. -/
inductive Fault where
  /-- Raised by no one: a stop the spec would have to name. Safe. -/
  | none
  deriving DecidableEq, Repr

/-- Why a command has no meaning. -/
inductive Refusal where
  /-- Raised by a dispatch arm whose command has no meaning yet, with its mnemonic. Safe: nothing is claimed. -/
  | notModelled (mnemonic : String)
  deriving DecidableEq, Repr

/-! ### The whole state -/

/-- Everything the block holds. `pending` is the queue of waiting commands, first in first out; `out` is what the
block has sent, newest first, and `free` counts the free values drawn: both are the model's own (log 1, 3). -/
structure State where
  pending : List Instr := []
  out : List Out := []
  free : Nat := 0
  variant : Variant := Config.variant
  /-- The monotonic timebase, ns (R24). -/
  now : Nat := 0
  pwr : Power := {}
  wall : Wall := {}
  /-- The register file: every RW, RO and counting register at its physical address (R94). -/
  regs : SMap Word := []
  /-- The designated 64-bit counters, at the address of their low word (R98). -/
  wide : SMap Nat := []
  /-- DRAM and the MRAM's firmware region, at physical addresses of the cacheable window. -/
  mem : SMap Byte := []
  /-- Blocks (address ÷ 64) that answer with an uncorrectable error (R88, R89). -/
  bad : SMap Bool := []
  /-- SYS_MTIMECMP compare values in force, by hart (R73). -/
  mtimecmp : SMap Nat := []
  /-- Where each running hart started (R70). -/
  hartStart : SMap (Option Nat) := []
  /-- Privilege mode and PMP entries of each hart (R69). -/
  hart : SMap Hart := []
  /-- Engine stores to MRAM that no fence of their hart has made durable yet: hart, block (address ÷ 64) and the block's 64
  bytes before the store, the latest first (R91). -/
  unfenced : List (Nat × Nat × List Byte) := []
  /-- The domains whose clock has stopped (R23): 0 and 1 the islands, 2 + n CLK_HSLn. -/
  crossed : SMap (Option Crossed) := []
  /-- LR reservations: the 64-byte granule each hart holds (R84). -/
  reserve : SMap (Option Nat) := []
  /-- L2 caches, by cluster. -/
  l2 : SMap L2 := []
  /-- L1 caches, by cluster × 16 + requester. -/
  l1 : SMap (List L1Line) := []
  /-- Indirect pairs, by cluster. -/
  ind : SMap IndPair := []
  red : Red := {}
  strata : Strata := {}
  mirror : Mirror := {}
  cap : Capture := {}
  host : HostSide := {}
  cmd : CmdEng := {}
  jrn : Jrn := {}
  /-- The boot flash, by offset in its window: it lies outside the device (R105). -/
  flash : SMap Byte := []
  /-- HSL groups and preamplifiers, by actuator. -/
  hsl : SMap Hsl := []
  pre : SMap Pre := []
  chan : Chan := {}
  seq : SMap Seqr := []
  cal : Cal := {}
  bas : SMap Island := []
  acc : Accels := {}
  tdm : Tandem := {}
  tls : Tls := {}
  /-- The fitted flash is the 128 MiB one (R107). -/
  flashBig : Bool := Config.flashBig
  otp : Otp := {}
  sec : Sec := {}
  boot : Boot := {}
  deriving DecidableEq, Repr

/-- The machine right after reset: a core power-up has reset the whole device and RST_N has been released, so
hart 0 runs from the boot ROM and every other hart is held (R61, R70). Its START record waits (R430), debug is open to
what the device's lifecycle state, VENDOR, allows (R454), and the first challenge has been drawn (R457, log 3, 51). -/
def State.reset : State where
  free := 32
  strata := { seqs := [(0, 1)], queue := [{ src := 0, code := 1, epoch := 0, seq := 0, tb := 0, args := [0, 1, 0] }] }
  sec := { debugSeen := true, challenge := (List.range 32).map fun i => BitVec.ofNat 8 (Config.freeValue i) }

end Sys2Proof.Machine
end

