-- ==== Sys2Proof/Machine/Ops.lean ====
section
/-! DEFINITION. The named operations over registers, memory and the model's own fields that every meaning is built
from (R10, R22, R85, R94, R96). -/

namespace Sys2Proof.Machine

/-- What no ordinary command changes: the queue of waiting commands, the timebase (R24) and the variant (R1). -/
def keep (s t : State) : State := { t with pending := s.pending, now := s.now, variant := s.variant }

/-- What the MRAM holds: Caisson's journal, the Strata mirror and the firmware region (R90). -/
def mramOf (s : State) : Jrn × Mirror × SMap Byte := (s.jrn, s.mirror, s.mem.filter fun e => decide (mramBase ≤ e.1))

/-- What becomes of a command in the power-fail sequence: one that would start an MRAM write burst does not happen, since the
last burst has started and the journal is sealed (R63). -/
def sealed (s t : State) : State := if s.pwr.phase = .quiescing ∧ mramOf t ≠ mramOf s then s else t

/-- An ordinary command: nothing but power and reset events acts on a device in reset, and none writes the MRAM in the
power-fail sequence (R63, R64). -/
def act (s : State) (f : State → State) : Host.Outcome State Fault Refusal :=
  .next (if s.pwr.phase = .reset then s else sealed s (keep s (f s)))

/-- Sending something out. -/
def emit (o : Out) (s : State) : State := { s with out := o :: s.out }

/-- A value the spec leaves open, fresh at each draw (log 3). -/
def fresh (s : State) : Nat × State := (Config.freeValue s.free, { s with free := s.free + 1 })

/-- `k` free bytes (log 3). -/
def freeBytes : Nat → State → List Byte × State
  | 0, s => ([], s)
  | k + 1, s =>
    let p := fresh s
    let q := freeBytes k p.2
    (BitVec.ofNat 8 p.1 :: q.1, q.2)

/-! ### The register file -/

/-- A register's present word. -/
def regW (s : State) (a : Nat) : Word := smGet regReset s.regs a

/-- A register's present value as a number. -/
def reg (s : State) (a : Nat) : Nat := (regW s a).toNat

/-- A field of a register. -/
def regF (s : State) (a lo len : Nat) : Nat := bits (reg s a) lo len

/-- One bit of a register. -/
def regB (s : State) (a i : Nat) : Bool := bit (reg s a) i

/-- A register given a value. -/
def setReg (a v : Nat) (s : State) : State := { s with regs := smSet regReset s.regs a (BitVec.ofNat 32 v) }

/-- A field of a register given a value. -/
def setRegF (a lo len v : Nat) (s : State) : State := setReg a (setBits (reg s a) lo len v) s

/-- A 32-bit count raised by `k`, saturating (R96). -/
def incRegBy (a k : Nat) (s : State) : State := setReg a (satAdd 32 (reg s a) k) s

/-- A 32-bit count raised by one (R96). -/
def incReg (a : Nat) (s : State) : State := incRegBy a 1 s

/-- A narrower saturating count within a register raised by one (R96). -/
def incRegF (a lo len : Nat) (s : State) : State := setRegF a lo len (satAdd len (regF s a lo len) 1) s

/-- A designated 64-bit counter, by the address of its low word (R98). -/
def wide (s : State) (a : Nat) : Nat := smGet (fun _ => 0) s.wide a

/-- A designated 64-bit counter given a value. -/
def setWide (a v : Nat) (s : State) : State := { s with wide := smSet (fun _ => 0) s.wide a (v % 2 ^ 64) }

/-- A designated 64-bit counter raised by `k`, saturating (R96, R98). -/
def incWideBy (a k : Nat) (s : State) : State := setWide a (satAdd 64 (wide s a) k) s

/-- A block reset of the registers from `lo` up to but not at `hi` (R61). -/
def resetRegs (lo hi : Nat) (s : State) : State :=
  { s with regs := smClear s.regs lo hi, wide := smClear s.wide lo hi }

/-! ### Memory (R85–R91) -/

/-- What a byte of memory that nothing has written reads as: 0 (DESIGN CHOICE, log 5). -/
def memDefault (_ : Nat) : Byte := 0

/-- The canonical form of memory: strictly rising addresses, and no byte listed that reads as an unlisted one. -/
abbrev Memory.wf (m : SMap Byte) : Bool := smWf memDefault m

/-- One byte of memory. -/
def memByte (s : State) (a : Nat) : Byte := smGet memDefault s.mem a

/-- `n` bytes of memory. -/
def memBytes (s : State) (a : Nat) : Nat → List Byte
  | 0 => []
  | n + 1 => memByte s a :: memBytes s (a + 1) n

/-- A little-endian number of `n` bytes in memory (R7). -/
def memNat (s : State) (a n : Nat) : Nat := leNat (memBytes s a n)

/-- One byte written. -/
def memSetByte (m : SMap Byte) (a : Nat) (b : Byte) : SMap Byte := smSet memDefault m a b

/-- Bytes written one after the other. -/
def memPut : SMap Byte → Nat → List Byte → SMap Byte
  | m, _, [] => m
  | m, a, b :: bs => memPut (memSetByte m a b) (a + 1) bs

/-- The `time` CSR of every hart: the monotonic timebase (R69). -/
def timeCsr (s : State) : Nat := s.now % 2 ^ 64

/-- Bytes written to memory; a 64-byte block written whole is good again (R88, R89). -/
def memWrite (a : Nat) (bs : List Byte) (s : State) : State :=
  { s with mem := memPut s.mem a bs,
           bad := s.bad.filter fun e => !(decide (a ≤ e.1 * 64) && decide (e.1 * 64 + 64 ≤ a + bs.length)) }

/-- The usable DRAM, bytes: 15/16 of both channels' capacity, 0 before LOCKED (R86, R88). -/
def dramUsable (s : State) : Nat :=
  if regB s aDramCfg 7 then
    match regF s aDramCfg 2 3 with
    | 1 => 2 * 2 * 0x40000000 / 16 * 15
    | 2 => 2 * 4 * 0x40000000 / 16 * 15
    | 3 => 2 * 8 * 0x40000000 / 16 * 15
    | _ => 0
  else 0

/-- Bytes written into DRAM at a window offset by a hardware block; nothing lands beyond the usable capacity. -/
def dramWrite (off : Nat) (bs : List Byte) (s : State) : State :=
  if off + bs.length ≤ dramUsable s then memWrite (dramBase + off) bs s else s

/-- Bytes of DRAM at a window offset. -/
def dramBytes (s : State) (off n : Nat) : List Byte := memBytes s (dramBase + off) n

/-- A little-endian number in DRAM at a window offset. -/
def dramNat (s : State) (off n : Nat) : Nat := memNat s (dramBase + off) n

/-- FW_MIB (R90). -/
def fwMib (s : State) : Nat := regF s aMramRegion 0 7

/-- SYS_MRAM_REGION.LOCKED (R90). -/
def mramLocked (s : State) : Bool := regB s aMramRegion 7

/-! ### Variant (R2) -/

/-- How many actuators the variant has (R1). -/
def actCount (s : State) : Nat := match s.variant with | .af => 4 | .bf => 2

/-- The actuator is present in the variant (R2). -/
def actPresent (s : State) (n : Nat) : Bool := decide (n < actCount s)

/-- SYS_ID (R3, R103). -/
def sysId (s : State) : Nat :=
  0xB0 + (match s.variant with | .af => 1 | .bf => 2) * 256 + (2 ^ actCount s - 1) * 4096 + 0x4120 * 65536

/-! ### Units held as sparse maps -/

def getHartRegs (s : State) (h : Nat) : Hart := smGet (fun _ => {}) s.hart h
def setHartRegs (h : Nat) (v : Hart) (s : State) : State := { s with hart := smSet (fun _ => {}) s.hart h v }
def getCrossed (s : State) (d : Nat) : Option Crossed := smGet (fun _ => none) s.crossed d
def setCrossed (d : Nat) (v : Option Crossed) (s : State) : State := { s with crossed := smSet (fun _ => none) s.crossed d v }
def getRes (s : State) (h : Nat) : Option Nat := smGet (fun _ => none) s.reserve h
def setRes (h : Nat) (v : Option Nat) (s : State) : State := { s with reserve := smSet (fun _ => none) s.reserve h v }
def getL2 (s : State) (c : Nat) : L2 := smGet (fun _ => {}) s.l2 c
def setL2 (c : Nat) (v : L2) (s : State) : State := { s with l2 := smSet (fun _ => {}) s.l2 c v }
def getInd (s : State) (c : Nat) : IndPair := smGet (fun _ => {}) s.ind c
def setInd (c : Nat) (v : IndPair) (s : State) : State := { s with ind := smSet (fun _ => {}) s.ind c v }
def getCmp (s : State) (h : Nat) : Nat := smGet (fun _ => 2 ^ 64 - 1) s.mtimecmp h
def setCmp (h v : Nat) (s : State) : State := { s with mtimecmp := smSet (fun _ => 2 ^ 64 - 1) s.mtimecmp h v }

/-- Where a hart started; right after reset only hart 0 runs, from the boot ROM's first byte (R70). -/
def hartDefault (h : Nat) : Option Nat := if h = 0 then some 0 else none
def getHart (s : State) (h : Nat) : Option Nat := smGet hartDefault s.hartStart h
def setHart (h : Nat) (v : Option Nat) (s : State) : State := { s with hartStart := smSet hartDefault s.hartStart h v }
def getL1 (s : State) (k : Nat) : List L1Line := smGet (fun _ => []) s.l1 k
def setL1 (k : Nat) (v : List L1Line) (s : State) : State := { s with l1 := smSet (fun _ => []) s.l1 k v }
def getIsl (s : State) (x : Nat) : IslRed := smGet (fun _ => {}) s.red.isl x
def setIsl (x : Nat) (v : IslRed) (s : State) : State :=
  { s with red := { s.red with isl := smSet (fun _ => {}) s.red.isl x v } }

/-- After reset cluster 0 is IN_SERVICE and every other cluster is OFF (R408). -/
def cluReset (c : Nat) : CluRed := if c = 0 then { st := 1 } else {}
def getClu (s : State) (c : Nat) : CluRed := smGet cluReset s.red.clu c
def setClu (c : Nat) (v : CluRed) (s : State) : State :=
  { s with red := { s.red with clu := smSet cluReset s.red.clu c v } }
def getStream (s : State) (k : Nat) : Stream := smGet (fun _ => {}) s.cap.streams k
def setStream (k : Nat) (v : Stream) (s : State) : State :=
  { s with cap := { s.cap with streams := smSet (fun _ => {}) s.cap.streams k v } }

def getPort (s : State) (p : Nat) : Port := smGet (fun _ => {}) s.host.ports p
def setPort (p : Nat) (v : Port) (s : State) : State :=
  { s with host := { s.host with ports := smSet (fun _ => {}) s.host.ports p v } }
def getCtx (s : State) (i : Nat) : Option Ctx := smGet (fun _ => none) s.host.ctxs i
def setCtx (i : Nat) (v : Option Ctx) (s : State) : State :=
  { s with host := { s.host with ctxs := smSet (fun _ => none) s.host.ctxs i v } }
def getCtrl (s : State) (i : Nat) : Option Ctrl := smGet (fun _ => none) s.host.ctrls i
def setCtrl (i : Nat) (v : Option Ctrl) (s : State) : State :=
  { s with host := { s.host with ctrls := smSet (fun _ => none) s.host.ctrls i v } }
def getRec (s : State) (i : Nat) : EntryRec := smGet (fun _ => {}) s.jrn.recs i
def setRec (i : Nat) (v : EntryRec) (s : State) : State :=
  { s with jrn := { s.jrn with recs := smSet (fun _ => {}) s.jrn.recs i v } }
def getSlot (s : State) (i : Nat) : Slot := smGet (fun _ => {}) s.jrn.slots i
def setSlot (i : Nat) (v : Slot) (s : State) : State :=
  { s with jrn := { s.jrn with slots := smSet (fun _ => {}) s.jrn.slots i v } }
def getZone (s : State) (g : Nat) : ZoneEnt := smGet (fun _ => {}) s.jrn.zones g
def setZone (g : Nat) (v : ZoneEnt) (s : State) : State :=
  { s with jrn := { s.jrn with zones := smSet (fun _ => {}) s.jrn.zones g v } }
def getIZ (s : State) (g : Nat) : IZone := smGet (fun _ => {}) s.cmd.iz g
def setIZ (g : Nat) (v : IZone) (s : State) : State :=
  { s with cmd := { s.cmd with iz := smSet (fun _ => {}) s.cmd.iz g v } }
def getSched (s : State) (n : Nat) : Sched := smGet (fun _ => {}) s.cmd.sched n
def setSched (n : Nat) (v : Sched) (s : State) : State :=
  { s with cmd := { s.cmd with sched := smSet (fun _ => {}) s.cmd.sched n v } }

def getHsl (s : State) (n : Nat) : Hsl := smGet (fun _ => {}) s.hsl n
def setHsl (n : Nat) (v : Hsl) (s : State) : State := { s with hsl := smSet (fun _ => {}) s.hsl n v }
def getPre (s : State) (n : Nat) : Pre := smGet (fun _ => {}) s.pre n
def setPre (n : Nat) (v : Pre) (s : State) : State := { s with pre := smSet (fun _ => {}) s.pre n v }

end Sys2Proof.Machine
end

