-- ==== Sys2Proof/Machine/Recorder.lean ====
section
/-! DEFINITION. The Strata event recorder as every block uses it: making, limiting, numbering and queueing records,
and the running capture streams (R421–R431, R438, R441). -/

namespace Sys2Proof.Machine

/-! ### Sources and codes (R422, R423) -/

abbrev srcSys : Nat := 0
abbrev srcRed : Nat := 1
abbrev srcCmd : Nat := 2
abbrev srcHost (p : Nat) : Nat := 3 + p
abbrev srcSec : Nat := 5
abbrev srcStrata : Nat := 6
abbrev srcChl (n : Nat) : Nat := 8 + n
abbrev srcWr (n : Nat) : Nat := 12 + n
abbrev srcSeq (n : Nat) : Nat := 16 + n
abbrev srcBas (x : Nat) : Nat := 24 + x
abbrev srcCal : Nat := 27
abbrev srcClu (c : Nat) : Nat := 32 + c

/-- The codes that are never limited: START, POWER_FAIL, WALL_SET and 0x0C0–0x0C4 (R426). -/
def neverLimited (code : Nat) : Bool :=
  code == 1 || code == 2 || code == 3 || (decide (0xC0 ≤ code) && decide (code ≤ 0xC4))

/-- All ones in a payload word. -/
abbrev ones64 : Nat := 2 ^ 64 - 1

/-- A record's length in bytes (R421). -/
def Rec.len (r : Rec) : Nat := 16 + 8 * r.args.length

/-- A record's bytes (R421); a record of 256 bytes leaves its LEN8, of five bits, at 0 (log 78). -/
def recBytes (r : Rec) : List Byte :=
  leBytes 8 (r.len / 8 % 32 + r.src % 64 * 2 ^ 5 + r.code % 4096 * 2 ^ 11 + r.epoch % 256 * 2 ^ 24 + r.seq % 2 ^ 32 * 2 ^ 32)
    ++ leBytes 8 r.tb ++ r.args.flatMap (leBytes 8)

/-! ### Numbering and queueing (R424) -/

/-- The next SEQ of a source. -/
def nextSeq (s : State) (src : Nat) : Nat := smGet (fun _ => 0) s.strata.seqs src

/-- A record given its number and queued, or dropped and counted when its source's queue holds 8 (R424). -/
def enqueue (src code : Nat) (args : List Nat) (s : State) : State :=
  let q := nextSeq s src
  let r : Rec := { src, code, epoch := s.wall.epoch, seq := q % 2 ^ 32, tb := s.now, args := args.map (· % 2 ^ 64) }
  let s := { s with strata := { s.strata with seqs := smSet (fun _ => 0) s.strata.seqs src (q + 1) } }
  if (s.strata.queue.filter fun x => x.src == src).length < 8 then
    { s with strata := { s.strata with queue := s.strata.queue ++ [r] } }
  else incReg (aStrataCount 0) s

/-! ### Rate limiting (R426, R427) -/

/-- The key of a source's bucket for a code. -/
def bucketKey (src code : Nat) : Nat := src * 4096 + code

def getBucket (s : State) (src code : Nat) : Bucket := smGet (fun _ => {}) s.strata.buckets (bucketKey src code)
def setBucket (src code : Nat) (b : Bucket) (s : State) : State :=
  { s with strata := { s.strata with buckets := smSet (fun _ => {}) s.strata.buckets (bucketKey src code) b } }

/-- One token in the bucket's unit. -/
abbrev oneToken : Nat := 1000000000

/-- RATE of a code. -/
def rateOf (s : State) (code : Nat) : Nat := regF s (aRateLimit code) 0 16

/-- The tokens a bucket holds now: it gains RATE tokens per second continuously, up to BURST (R426). -/
def bucketTokens (s : State) (src code : Nat) : Nat :=
  let burst := regF s (aRateLimit code) 16 8 * oneToken
  let b := getBucket s src code
  match b.tokens with
  | none => burst
  | some t => min burst (t + rateOf s code * (s.now - b.at_))

/-- The SUPPRESSED record of a bucket, which takes no token; the count returns to 0 (R427). -/
def makeSuppressed (src code : Nat) (s : State) : State :=
  let b := getBucket s src code
  if b.suppressed = 0 then s
  else setBucket src code { b with suppressed := 0, firstTb := 0 } (enqueue src 0xC0 [code, b.suppressed, b.firstTb] s)

/-- A source reports an event: it passes the rate limit of its code and is recorded, or is suppressed (R424, R426). -/
def record (src code : Nat) (args : List Nat) (s : State) : State :=
  if neverLimited code || rateOf s code == 0 then enqueue src code args (makeSuppressed src code s)
  else
    let t := bucketTokens s src code
    if oneToken ≤ t then
      let s := makeSuppressed src code s
      setBucket src code { getBucket s src code with tokens := some (t - oneToken), at_ := s.now } (enqueue src code args s)
    else
      let b := getBucket s src code
      setBucket src code
        { b with suppressed := b.suppressed + 1, firstTb := if b.suppressed = 0 then s.now else b.firstTb }
        (incReg (aStrataCount 1) s)

/-! ### The rings (R428, R429) -/

/-- The SRAM ring's size. -/
abbrev sramSize : Nat := 4194304

/-- The mirror ring's size. -/
abbrev mirrorRing : Nat := 66977792

/-- Rounding up to a multiple of 65,536. -/
def up64k (n : Nat) : Nat := (n + 65535) / 65536 * 65536

/-- Where a record of `len` bytes begins: no record straddles a 64 KiB boundary (R428). -/
def placeRec (head len : Nat) : Nat := if 65536 < head % 65536 + len then up64k head else head

/-- A record appended to the SRAM ring. Records it overwrites before they were copied are lost to the mirror and
counted (R429). -/
def appendSram (r : Rec) (s : State) : State :=
  let p := placeRec s.strata.head r.len
  let h := p + r.len
  let all := s.strata.ring ++ [(p, r)]
  let gone := all.filter fun e => decide (e.1 + sramSize < h)
  let lost := (gone.filter fun e => decide (s.strata.copied ≤ e.1)).length
  incRegBy (aStrataCount 2) lost
    { s with strata := { s.strata with head := h, ring := all.filter fun e => decide (h ≤ e.1 + sramSize) } }

/-- A record appended to the mirror ring at the position given, raising MHEAD (R429). -/
def appendMirrorAt (p : Nat) (r : Rec) (s : State) : State :=
  let h := p + r.len
  let kept := (s.mirror.ring ++ [(p, r)]).filter fun e => decide (h ≤ e.1 + mirrorRing)
  { s with mirror := { s.mirror with mhead := h, ring := kept } }

/-- A record appended to the mirror at MHEAD, under the boundary rule (R428, R429). -/
def appendMirror (r : Rec) (s : State) : State := appendMirrorAt (placeRec s.mirror.mhead r.len) r s

/-- The oldest record of the SRAM ring not yet in the mirror. -/
def nextUncopied (s : State) : Option (Nat × Rec) := s.strata.ring.find? fun e => decide (s.strata.copied ≤ e.1)

/-- One record copied to the mirror at its position (R429, R430). -/
def copyOne (s : State) : State :=
  match nextUncopied s with
  | none => s
  | some (p, r) =>
    let s := appendMirrorAt (s.strata.mbase + p) r s
    { s with strata := { s.strata with copied := p + r.len } }

/-- Every record of the SRAM ring copied to the mirror (R431). -/
def copyAll : Nat → State → State
  | 0, s => s
  | n + 1, s => copyAll n (copyOne s)

/-- The recorder takes the record at the front of the queues (R424); in mirror mode it goes to the mirror (R436), and
waits until the mirror copy has started (R430). -/
def takeRecord (s : State) : State :=
  if s.strata.stopped || (s.strata.onMirror && !s.strata.mirrorRun) then s
  else match s.strata.queue with
    | [] => s
    | r :: q =>
      let s := { s with strata := { s.strata with queue := q } }
      if s.strata.onMirror then appendMirror r s else appendSram r s

/-! ### The wall clock (R434) -/

/-- WALL_NOW, ms. -/
def wallNow (s : State) : Nat := s.wall.wallAt + (s.now - s.wall.tbAt) / 1000000

/-! ### Continuous capture (R438, R441) -/

/-- A stream is enabled. -/
def capEnabled (s : State) (k : Nat) : Bool := regB s (aCapCtl k) 0

/-- An actuator is captured on a stream (CAPk_CTL.ACT, for SERVO and SECTOR). -/
def capAct (s : State) (k n : Nat) : Bool := regB s (aCapCtl k) (4 + n)

/-- The size of a stream's ring in bytes. -/
def capSize (s : State) (k : Nat) : Nat := regF s (aCapSize k) 0 18 * 65536

/-- An item written to a stream's ring, or counted as dropped while the stream is frozen (R438, R441); a stream given no
ring has nowhere to write (log 48). -/
def captureItem (k : Nat) (bs : List Byte) (s : State) : State :=
  if !capEnabled s k || capSize s k == 0 then s
  else
    let st := getStream s k
    if st.frozen || (st.freezing && st.left == 0) then incReg (aCapDropped k) s
    else
      let wr := wide s (aCapWrLo k)
      let off := regF s (aCapBase k) 0 18 * 65536 + (if capSize s k = 0 then 0 else wr % capSize s k)
      let s := setWide (aCapWrLo k) (wr + bs.length) (dramWrite off bs s)
      setStream k { st with left := st.left - (if k = 3 then 1 else bs.length),
                            firstTb := if wr = 0 then s.now else st.firstTb, lastTb := s.now } s

/-- The span a freezing stream still runs: POST percent of its ring, in entries for SECTOR (R441). -/
def postSpan (s : State) (k : Nat) : Nat :=
  if k = 3 then capSize s k / 262144 * regF s aCapTrig 8 8 / 100 else capSize s k * regF s aCapTrig 8 8 / 100

/-- A trigger reaches one stream (R441). -/
def triggerStream (bitNo k : Nat) (s : State) : State :=
  let st := getStream s k
  if !capEnabled s k || st.frozen then s
  else if st.freezing then setStream k { st with trigger := setBits st.trigger bitNo 1 1 } s
  else setStream k { st with freezing := true, left := postSpan s k, trigger := 2 ^ bitNo } s

/-- A trigger: bit `i` of CAP_TRIG.MASK, or 7 for FIRE, freezes every running stream (R441). -/
def trigger (i : Nat) (s : State) : State :=
  if i = 7 || regB s aCapTrig i then forTo (triggerStream i) 4 s else s

end Sys2Proof.Machine
end

