-- ==== Sys2Proof/Machine/Fault.lean ====
section
/-! DEFINITION. What every block shares of health reporting: asynchronous events to controllers (R148), the fault
history, the faults present and the severity they make (R399, R414, R417, R418). -/

namespace Sys2Proof.Machine

/-! ### Asynchronous events (R148) -/

/-- Controllers are numbered 1 to 256 here (R136). -/
abbrev maxCtrl : Nat := 256

/-- An event posted to one controller: it completes an Asynchronous Event Request, or waits for one. An event of a
type and log page that already waits is not held twice. -/
def postTo (e : Evt) (i : Nat) (s : State) : State :=
  match getCtrl s i with
  | none => s
  | some c =>
    match c.aers with
    | (x, cid) :: rest =>
      emit (.completion x cid 0 false (e.type_ + e.info * 256 + e.log * 65536) 0) (setCtrl i (some { c with aers := rest }) s)
    | [] => if c.notices.contains e then s else setCtrl i (some { c with notices := c.notices ++ [e] }) s

/-- An event posted to every I/O controller that is enabled and has the notice's bit set in its Asynchronous Event
Configuration; `none` for events no bit gates (R148, R151). -/
def postEvent (e : Evt) (gate : Option Nat) (s : State) : State :=
  s.host.ctrls.foldl (fun t x =>
    match x.2 with
    | none => t
    | some c =>
      if !c.discovery && bit c.cc 0 && (match gate with | none => true | some b => bit c.aec b) then postTo e x.1 t else t) s

/-- An event for persistent discovery connections (R154). -/
def postDiscovery (s : State) : State :=
  s.host.ctrls.foldl (fun t x =>
    match x.2 with
    | none => t
    | some c => if c.discovery && decide (c.kato ≠ 0) then postTo { type_ := 2, info := 0xF0, log := 0x70 } x.1 t else t) s

/-! ### Severity (R417) -/

/-- Whether a present entry of the fault table counts as a fault: the trend codes 0x0042 and 0x0043 do not, and a
retired decoder or way is complete at retirement (R399, R414). -/
def countsAsFault (code : Nat) : Bool :=
  !(code == 0x42 || code == 0x43 || code == 0x40 || code == 0x41)

/-- Severity of the redundancy state: 0 FULL, 1 REDUCED, 2 EXPOSED (R417). -/
def severityOf (r : Red) : Nat :=
  let n := (r.faults.filter fun f => countsAsFault f.1).length
  if 2 ≤ n || (List.range 8).any (fun c => (smGet cluReset r.clu c).st == 6)
      || (List.range 2).any (fun x => (smGet (fun _ => ({} : IslRed)) r.isl x).st == 5) then 2
  else if n = 1 then 1 else 0

/-- The notice of a severity change, and the critical warning when the severity becomes EXPOSED (R417). -/
def noteSeverity (s0 s : State) : State :=
  if severityOf s.red = severityOf s0.red then s
  else
    let s := postEvent { type_ := 7, info := 0, log := 0xC0 } none s
    if severityOf s.red = 2 then postEvent { type_ := 1, info := 0, log := 2 } (some 2) s else s

/-- A command that may change the severity (R417). -/
def actSev (s : State) (f : State → State) : Host.Outcome State Fault Refusal :=
  act s fun s => noteSeverity s (f s)

/-! ### The fault history (R399, R418) -/

/-- A history entry's two payload words, as a record carries it: TIMEBASE, then CODE, UNIT, EVENT and WALL_S. -/
def histWords (h : Hist) : List Nat :=
  [h.tb, h.code % 65536 + h.unit % 256 * 65536 + h.event % 256 * 16777216 + h.wallS % 2 ^ 32 * 2 ^ 32]

/-- A fault table event: a Strata record, a history entry, and RED_EVENTS raised by one (R399). -/
def faultEvent (code unit event : Nat) (s : State) : State :=
  let h : Hist := { tb := s.now, code, unit, event, wallS := wallNow s / 1000 % 2 ^ 32 }
  let s := record srcRed 0x40 (histWords h) s
  let s := { s with red := { s.red with hist := (h :: s.red.hist).take 32, generation := s.red.generation + 1 } }
  setReg aRedEvents (reg s aRedEvents + 1) s

/-- A fault of the table is present. -/
def faultPresent (s : State) (code unit : Nat) : Bool := s.red.faults.contains (code, unit)

/-- A fault is detected: it becomes present, with its event (R399). -/
def addFault (code unit : Nat) (s : State) : State :=
  if faultPresent s code unit then s
  else faultEvent code unit 1 { s with red := { s.red with faults := (code, unit) :: s.red.faults } }

/-- A fault's failback completes (R399). -/
def clearFault (code unit : Nat) (s : State) : State :=
  if faultPresent s code unit then
    faultEvent code unit 2 { s with red := { s.red with faults := s.red.faults.filter (fun f => f != (code, unit)) } }
  else s

/-- The redundancy logic starts no new reaction once a power-fail sequence has been recognized (R398). -/
def redActive (s : State) : Bool := s.pwr.phase == .running

end Sys2Proof.Machine
end

