-- ==== Sys2Proof/Machine/Access.lean ====
section
/-! DEFINITION. What a register write does under the access types, locks and reserved encodings, and what an error
response leaves behind (R10, R11, R93–R96). -/

namespace Sys2Proof.Machine

/-- The access types of a field that a plain write can meet (R94). -/
inductive Acc where
  | ro | rw | rw1
  deriving DecidableEq, Repr

/-- A field of a register: its place, its access type, and the encodings that are not reserved (R11). -/
structure Fld where
  lo : Nat
  len : Nat
  acc : Acc := .rw
  legal : Nat → Bool := fun _ => true

/-- What a write does to one field: the value it leaves, and whether it was a reserved encoding or a violation of a
lock. A locked field is judged by its lock alone (R11, R94, R95). -/
structure FldWrite where
  value : Nat
  reserved : Bool := false
  violation : Bool := false
  deriving DecidableEq, Repr

/-- One field written: `old` is what it holds, `rst` its reset value, `new` what the write carries. -/
def writeFld (f : Fld) (old rst new : Nat) : FldWrite :=
  match f.acc with
  | .ro => { value := old }
  | .rw => if f.legal new then { value := new } else { value := old, reserved := true }
  | .rw1 =>
    if old = rst then (if f.legal new then { value := new } else { value := old, reserved := true })
    else { value := old, violation := new != old }

/-- The record of a reserved encoding (R11). -/
def noteReserved (a v : Nat) (s : State) : State := record srcSys 0x12 [a, v] s

/-- A violation of a lock is counted and recorded (R95). -/
def noteViolation (a v : Nat) (s : State) : State := record srcSys 0x11 [a, v] (incReg aLockViol s)

/-- A plain write to a register with the fields given: each field under its own access type (R10, R11, R94, R95). -/
def writeFields (a : Nat) (fs : List Fld) (v : Nat) (s : State) : State :=
  let ws := fs.map fun f => (f, writeFld f (regF s a f.lo f.len) (bits (regReset a).toNat f.lo f.len) (bits v f.lo f.len))
  let new := ws.foldl (fun r w => setBits r w.1.lo w.1.len w.2.value) (reg s a)
  let s := setReg a new s
  let s := if ws.any (fun w => w.2.violation) then noteViolation a v s else s
  if ws.any (fun w => w.2.reserved) then noteReserved a v s else s

/-- A WM register written: the data bits whose mask bits are 1, among those the register implements (R94). -/
def wmValue (old implemented v : Nat) : Nat :=
  let m := v / 65536 % 65536 &&& implemented
  (old &&& (65535 - m)) ||| (v &&& m)

/-- A write to a WM register. -/
def writeMasked (a implemented v : Nat) (s : State) : State := setReg a (wmValue (reg s a) implemented v) s

/-! ### Error responses (R93) -/

abbrev errNarrow : Nat := 1
abbrev errUnaligned : Nat := 2
abbrev errUnmapped : Nat := 3
abbrev errFused : Nat := 4
abbrev errAtomic : Nat := 5
abbrev errReadOnly : Nat := 6
abbrev errMem : Nat := 7
abbrev errIsolated : Nat := 8
abbrev errTimeout : Nat := 9

/-- SYS_ACCERR_INFO of an error response; `size` is the code of its SIZE field (R93). -/
def accInfo (source kind size : Nat) (write : Bool) (s : State) : Nat :=
  kind + bnat write * 16 + size % 4 * 32 + source % 128 * 256 + reg s aAccerrCount % 256 * 65536

/-- SYS_ACCERR written, with its record and the answer (R93). -/
def latchAccError (source a kind info : Nat) (s : State) : State :=
  emit (.busError source kind) (record srcSys 0x10 [a, info]
    (setReg aAccerrInfo info (setReg aAccerrAddrHi (a / 2 ^ 32 % 256) (setReg aAccerrAddrLo a s))))

/-- An access answered with an error response: its count, SYS_ACCERR, its record and the answer (R93). -/
def accError (source a kind size : Nat) (write : Bool) (s : State) : State :=
  latchAccError source a kind (accInfo source kind size write (incReg aAccerrCount s)) (incReg aAccerrCount s)

end Sys2Proof.Machine
end

