-- ==== Sys2Proof/Machine/Flash.lean ====
section
/-! DEFINITION. The boot flash and the boot records that firmware writes (R107–R110, R118). -/

namespace Sys2Proof.Machine

/-! ### The flash (R107, R108) -/

/-- The fitted capacity, bytes. -/
def flashSize (s : State) : Nat := if s.flashBig then 0x8000000 else 0x4000000

/-- S: the size of a slot. -/
def slotSize (s : State) : Nat := (flashSize s - 0x100000) / 2

/-- Where a slot begins. -/
def slotBase (s : State) (k : Nat) : Nat := 0x100000 + k * slotSize s

/-- One byte of the flash; erased, it reads 0xFF. -/
def flashByte (s : State) (x : Nat) : Byte := smGet (fun _ => 0xFF) s.flash x

/-- Bytes of the flash. -/
def flashBytes (s : State) (x n : Nat) : List Byte := (List.range n).map fun i => flashByte s (x + i)

/-- Bytes programmed into the flash. -/
def flashPut (x : Nat) (l : List Byte) (s : State) : State :=
  { s with flash := (l.zipIdx).foldl (fun m e => smSet (fun _ => 0xFF) m (x + e.2) e.1) s.flash }

/-! ### The boot record (R109, R110) -/

/-- A boot record copy's 20 bytes. -/
def bootRec (s : State) (k : Nat) : List Byte := flashBytes s (k * 0x10000) 20

/-- A copy is valid. -/
def recValid (r : List Byte) : Bool :=
  fieldN r 0 4 == 0x5242515A && fieldN r 4 4 != 0xFFFFFFFF && decide (fieldN r 8 1 ≤ 1)
    && fieldN r 0x10 4 == (crc32c (r.take 12)).toNat

/-- The copy in force: the valid one with the higher GEN, copy 0 where both carry the same (DESIGN CHOICE, log 88). -/
def recInForce (s : State) : Option Nat :=
  let a := bootRec s 0; let b := bootRec s 1
  if recValid a && recValid b then some (if fieldN a 4 4 < fieldN b 4 4 then 1 else 0)
  else if recValid a then some 0 else if recValid b then some 1 else none

/-- A record's bytes: ACTIVE, TRIAL (0xFF for none), TRIAL_MAX and a full set of attempts. -/
def recordBytes (gen active trial trialMax : Nat) : List Byte :=
  let b := leBytes 4 0x5242515A ++ leBytes 4 gen ++ leBytes 1 active ++ leBytes 1 trial ++ leBytes 1 trialMax ++ [0xFF]
  b ++ [0xFF, 0xFF, 0xFF, 0xFF] ++ leBytes 4 (crc32c b).toNat

/-- Firmware writes a new record: into the copy whose GEN is lower or that is invalid, erased first, with a GEN one more
than the other copy's (R110). With no valid copy it writes copy 0 with GEN 0 (DESIGN CHOICE, log 88). -/
def writeBootRec (active trial trialMax : Nat) (s : State) : State :=
  let k := match recInForce s with | some k => 1 - k | none => 0
  let gen := match recInForce s with | some j => fieldN (bootRec s j) 4 4 + 1 | none => 0
  flashPut (k * 0x10000) (recordBytes gen active trial trialMax) { s with flash := smClear s.flash (k * 0x10000) (k * 0x10000 + 0x10000) }

/-- The slot that the record in force names ACTIVE, or the running one with no record. -/
def activeSlot (s : State) : Nat := match recInForce s with | some k => fieldN (bootRec s k) 8 1 | none => s.host.running

end Sys2Proof.Machine
end

