-- ==== Sys2Proof/Machine/Cluster.lean ====
section
/-! DEFINITION. The engine clusters: running and isolating them, their timers, the standby cluster and takeover
(R69–R73, R408–R413, R420). -/

namespace Sys2Proof.Machine

/-! ### The address map (R2, R85, R86, R90) -/

/-- What lies at an address. `dram` carries the offset in the DRAM window. -/
inductive Region where
  | rom | flash | io | fused | dram (off : Nat) | journal | fwRegion | mirror | unmapped
  deriving DecidableEq, Repr

/-- First address of the firmware region (R90). -/
def fwBase (s : State) : Nat := mirrorBase - fwMib s * 1048576

/-- The register blocks that are present, with the fused-off ones of the BF (R2, R85). -/
def ioRegion (s : State) (a : Nat) : Region :=
  if 0x10000000 ≤ a ∧ a < 0x10020000 then .io
  else if (0x11000000 ≤ a ∧ a < 0x11040000) ∨ (0x12000000 ≤ a ∧ a < 0x12040000) then
    if actPresent s (a / 0x10000 % 0x100) then .io else .fused
  else if (0x13000000 ≤ a ∧ a < 0x13100000) ∨ (0x14000000 ≤ a ∧ a < 0x14010000) ∨ (0x15000000 ≤ a ∧ a < 0x15100000)
      ∨ (0x16000000 ≤ a ∧ a < 0x16100000) ∨ (0x17000000 ≤ a ∧ a < 0x17100000) ∨ (0x18000000 ≤ a ∧ a < 0x18100000)
      ∨ (0x19000000 ≤ a ∧ a < 0x19010000) ∨ (0x1A000000 ≤ a ∧ a < 0x1A010000) then .io
  else .unmapped

/-- The region of an address (R85, R86). -/
def regionOf (s : State) (a : Nat) : Region :=
  if a < 0x20000 then .rom
  else if 0x08000000 ≤ a ∧ a < 0x10000000 then (if a - 0x08000000 < flashSize s then .flash else .unmapped)
  else if a < 0x20000000 then ioRegion s a
  else if dramBase ≤ a ∧ a < dramBase + dramUsable s then .dram (a - dramBase)
  else if dramAlias ≤ a ∧ a < dramAlias + dramUsable s then .dram (a - dramAlias)
  else if mramBase ≤ a ∧ a < fwBase s then .journal
  else if fwBase s ≤ a ∧ a < mirrorBase then .fwRegion
  else if mirrorBase ≤ a ∧ a < mramBase + 0x40000000 then .mirror
  else .unmapped

/-! ### Fences (R71, R412) -/

/-- Cluster c is fenced from the fabric (R71). -/
def isolated (s : State) (c : Nat) : Bool := regB s (aCluCtl c) 8

/-- What a TESTING cluster may reach (R412). -/
def testMayReach (s : State) (c a : Nat) : Bool :=
  match regionOf s a with
  | .rom => true
  | .io => a == aRedHb c || a == aRedCluCmd
  | .dram off => off / 1048576 == regF s aRedTestWin 0 14
  | _ => false

/-- A requester is fenced from an address. Source 0x40 is the JTAG debug module. -/
def fenced (s : State) (source a : Nat) : Bool :=
  decide (source < 64) && isolated s (source / 8) && !((getClu s (source / 8)).fence && testMayReach s (source / 8) a)

/-! ### Privilege and physical memory protection (R69, R93) -/

/-- The ways a core reaches memory, numbered as a PMP entry's permission bits. -/
abbrev pmpR : Nat := 0
abbrev pmpW : Nat := 1
abbrev pmpX : Nat := 2

/-- The bytes that PMP entry `i` covers, first and one past the last, none for one that is off: a top-of-range entry, four
bytes, or a naturally aligned power of two (PRESUMED: the RISC-V privileged architecture that R69 names, log 82). -/
def pmpRange (p : SMap (Nat × Nat)) (i : Nat) : Option (Nat × Nat) :=
  let e := smGet (fun _ => (0, 0)) p i
  match bits e.1 3 2 with
  | 1 => some (if i = 0 then 0 else (smGet (fun _ => (0, 0)) p (i - 1)).2 * 4, e.2 * 4)
  | 2 => some (e.2 * 4, e.2 * 4 + 4)
  | 3 =>
    let k := (findFrom (fun j => !bit e.2 j) 0 54).getD 54
    some (e.2 / 2 ^ (k + 1) * 2 ^ (k + 1) * 4, (e.2 / 2 ^ (k + 1) + 1) * 2 ^ (k + 1) * 4)
  | _ => none

/-- The lowest-numbered entry that covers any of `n` bytes from `a`. -/
def pmpMatch (p : SMap (Nat × Nat)) (a n : Nat) : Option Nat :=
  findFrom (fun i => match pmpRange p i with | some r => decide (a < r.2) && decide (r.1 < a + n) | none => false) 0 16

/-- The core itself refuses an access of `n` bytes: a PMP fault, which reaches no fabric and makes no record (R93). Machine mode
is held only to locked entries (PRESUMED, log 82). -/
def pmpFault (s : State) (h a n kind : Nat) : Bool :=
  let k := getHartRegs s h
  match pmpMatch k.pmp a n with
  | none => k.user
  | some i =>
    let e := smGet (fun _ => (0, 0)) k.pmp i
    let inside := match pmpRange k.pmp i with | some r => decide (r.1 ≤ a) && decide (a + n ≤ r.2) | none => false
    !inside || ((k.user || bit e.1 7) && !bit e.1 kind)

/-! ### Running harts (R70, R71) -/

/-- The harts of a cluster stop, and hold no reservation and no core register. -/
def stopHarts (c : Nat) (s : State) : State :=
  forTo (fun k t => setRes (8 * c + k) none (setHartRegs (8 * c + k) {} (setHart (8 * c + k) none t))) 8 s

/-- One core released in machine mode at its SYS_HARTBOOT address, or stopped (R69, R70). -/
def runCore (c k : Nat) (was is : Bool) (s : State) : State :=
  if was = is then s
  else if is then setHartRegs (8 * c + k) {} (setHart (8 * c + k) (some (reg s (aHartboot (8 * c + k)))) s)
  else setHart (8 * c + k) none s

/-- A write to CLU_CTL, a WM register (R70, R71, R103). A FAULTY cluster stays in reset and isolated (R408). -/
def writeCluCtl (c v : Nat) (s : State) : State :=
  if (getClu s c).st = 6 then s
  else
    let old := reg s (aCluCtl c)
    let new := wmValue old 0x1FF v
    let s := setReg (aCluCtl c) new s
    forTo (fun k t => runCore c k (bit old k) (bit new k) t) 8 s

/-- CORE_RUN (R70): one bit of CLU_CTL.CORE_RUN set or cleared. -/
def execCoreRun (c k : Fin 8) (run : Bool) (s : State) : Host.Outcome State Fault Refusal := act s
  (writeCluCtl c.val (2 ^ (16 + k.val) + bnat run * 2 ^ k.val))

/-- ISOLATE (R71). -/
def execIsolate (c : Fin 8) (on : Bool) (s : State) : Host.Outcome State Fault Refusal := act s
  (writeCluCtl c.val (2 ^ 24 + bnat on * 2 ^ 8))

/-! ### Timers (R73) -/

/-- A write to the high word of SYS_MTIMECMPh: the compare value takes effect as a whole. -/
def writeCmpHigh (h v : Nat) (s : State) : State :=
  let s := setReg (aMtimecmp h + 4) v s
  setCmp h (v % 2 ^ 32 * 2 ^ 32 + reg s (aMtimecmp h)) s

/-- MTIMECMP_WRITE (R73). -/
def execMtimecmpWrite (h : Fin 64) (high : Nat) (s : State) : Host.Outcome State Fault Refusal := act s (writeCmpHigh h.val high)

/-- The hart's machine timer interrupt is pending (R73). -/
def timerPending (s : State) (h : Nat) : Bool := decide (getCmp s h ≤ s.now)


/-! ### Cluster faults (R409–R413) -/

/-- RED counter j (R419). -/
def redCount (j : Nat) (s : State) : State := incReg (aRedCount j) s

/-- States in which a heartbeat is expected (R408). -/
def beats (st : Nat) : Bool := st == 1 || st == 2 || st == 3

/-- The STANDBY cluster, if there is one. -/
def standbyOf (s : State) : Option Nat := findFrom (fun c => (getClu s c).st == 2) 0 8

/-- The block reset of a cluster: its window, its caches and its harts (R61). A retired way stays retired (R81). -/
def resetCluster (c : Nat) (s : State) : State :=
  let retired := reg s (aL2Retired c)
  let s := resetRegs (cluBase c) (cluBase c + 0x100) s
  let s := setReg (aL2Retired c) retired s
  let s := forTo (fun r t => setL1 (16 * c + r) [] t) 16 (setL2 c {} (setInd c {} s))
  stopHarts c s

/-- TESTING: hart 8c starts the ROM self-test behind the partial fence (R412). -/
def enterTesting (c : Nat) (s : State) : State :=
  let s := setHart (8 * c) (some 0x8000) (setRegF (aCluCtl c) 8 1 1 (resetCluster c s))
  setClu c { getClu s c with st := 5, fence := true } s

/-- FAULTY: isolated and held in reset, with its history entry (R408, R418). -/
def enterFaulty (c : Nat) (s : State) : State :=
  let s := stopHarts c (setReg (aCluCtl c) 0x100 (resetCluster c s))
  let k := getClu s c
  faultEvent k.code c 3 (setClu c { k with st := 6, fence := false } s)

/-- Every route to a hart of cluster c moved to the same core of cluster d, keeping ENABLE (R410). -/
def moveRoutes (c d : Nat) (s : State) : State :=
  forTo (fun i t => if regF t (aIrqRoute i) 3 3 = c then setRegF (aIrqRoute i) 3 3 d t else t) 256 s

/-- One day of monotonic time, ns. -/
abbrev dayNs : Nat := 86400000000000

/-- Times of the last 24 h, with now. -/
def withinDay (now : Nat) (l : List Nat) : List Nat := now :: l.filter fun t => decide (now - t < dayNs)

/-- A fail-over of a cluster is in progress (R399). -/
def takingOver (s : State) : Bool := (List.range 8).any fun c => (getClu s c).st == 3

/-- The island is held in block reset: FAILED or LOCKED_OUT (R400). -/
def islHeld (s : State) (x : Nat) : Bool := (getIsl s x).st == 2 || (getIsl s x).st == 5

/-- EN is in effect: it takes effect only while BAS_CFG.LOCKED is 1 (R338). -/
def islOn (s : State) (x : Nat) : Bool := !islHeld s x && regB s (aBasCtl x) 0 && regB s (aBasCfg x) 31

/-- The island serves an actuator (R338). -/
def serves (s : State) (x n : Nat) : Bool := islOn s x && actPresent s n && regB s (aBasCtl x) (4 + n)

/-- The fail-over of an island is in progress: a sequencer has yet to move to the clock of an island that serves its actuator
(R367, R399). -/
def clockMoving (s : State) : Bool := (List.range 4).any fun n =>
  match (smGet (fun _ => ({} : Seqr)) s.seq n).clkMove with | some b => serves s (bnat b) n | none => false

/-- A fail-over or a firmware activation is in progress: what R38 holds a second activation and a bank switch for. -/
def interrupted (s : State) : Bool := takingOver s || clockMoving s || s.host.activating

/-- The activation that has been held longest begins once nothing it waits for is in progress: its command completes and
each controller with the notice enabled gets a Firmware Activation Starting event (R38, R146). -/
def startHeld (s : State) : State :=
  if interrupted s then s
  else match s.host.heldActivations with
    | [] => s
    | (x, cid, slot) :: rest =>
      let s := { s with host := { s.host with heldActivations := rest, activating := true, running := slot } }
      let s := match x with | some x => emit (.completion x cid 0 false 0 0) s | none => s
      postEvent { type_ := 2, info := 1, log := 3 } (some 9) s

/-- A cluster fault (R409, R410, R413): the cluster is isolated and reset; an IN_SERVICE cluster's roles go to the
STANDBY cluster. A third entry to FAILED within 24 h makes it FAULTY (R412). -/
def clusterFault (c code : Nat) (s : State) : State :=
  let k := getClu s c
  if !redActive s || !beats k.st then s
  else
    let sb := if k.st = 1 then standbyOf s else none
    let s := trigger 6 (redCount 8 (addFault code c s))
    let times := withinDay s.now k.fails
    let s := setClu c { k with st := 4, code := code, fails := times, failCount := satAdd 32 k.failCount 1 } s
    let s := if k.st = 3 then startHeld { s with red := { s.red with takeover := none } } else s
    let s := match sb with
      | none => s
      | some d =>
        let s := setClu d { getClu s d with st := 3, hbFrom := s.now } s
        let s := setReg (aIrqRoute 80) (8 * d + 64) (moveRoutes c d s)
        { s with red := { s.red with takeover := some { failed := c, taker := d, since := s.now } } }
    if 3 ≤ times.length then enterFaulty c s else enterTesting c s

/-- A cluster starts to be watched for its heartbeat. -/
def watched (s : State) (k : CluRed) (st : Nat) : CluRed :=
  { k with st := st, fence := false, hbFrom := s.now, hbTimeout := regF s aRedCfg 0 10 }

/-- An action that the cluster's state does not allow (RED_CLU_CMD, R419). -/
def refuseClu (v : Nat) (s : State) : State := record srcRed 0x41 [v] s

/-- Moves to IN_SERVICE; a takeover that ends after its deadline is counted and recorded (R410). -/
def doService (c v : Nat) (s : State) : State :=
  let k := getClu s c
  if k.st = 0 then setClu c (watched s k 1) s
  else if k.st = 3 then
    let late := match s.red.takeover with
      | some t => decide (960000 - regF s aRedCfg 0 10 * 1000 < s.now - t.since)
      | none => false
    let s := if late then record srcRed 0x42 [c] (redCount 9 s) else s
    let s := setClu c (watched s k 1) s
    startHeld { s with red := { s.red with takeover := none } }
  else refuseClu v s

/-- Moves to STANDBY; a passed self-test lifts the fence, starts the cluster at its standby entry and ends its fault
(R412, R414). -/
def doStandby (source c v : Nat) (s : State) : State :=
  let k := getClu s c
  if (standbyOf s).isSome then refuseClu v s
  else if k.st = 0 ∨ k.st = 1 then setClu c (watched s k 2) s
  else if k.st = 5 ∧ source / 8 = c then
    let s := setHart (8 * c) (some (reg s (aHartboot (8 * c)))) (setRegF (aCluCtl c) 8 1 0 s)
    clearFault k.code c (setClu c { watched s k 2 with code := 0 } s)
  else refuseClu v s

/-- Moves to OFF. -/
def doOff (c v : Nat) (s : State) : State :=
  let k := getClu s c
  if k.st = 1 ∨ k.st = 2 then setClu c { k with st := 0 } s else refuseClu v s

/-- A declared fault, or a failed self-test (R409, R412). -/
def doFail (c v : Nat) (s : State) : State :=
  let k := getClu s c
  if beats k.st then clusterFault c 0x22 s
  else if k.st = 5 then enterFaulty c (faultEvent 0x23 c 1 (redCount 10 s))
  else refuseClu v s

/-- FAULTY to TESTING. -/
def doRetest (c v : Nat) (s : State) : State :=
  if (getClu s c).st = 6 then enterTesting c s else refuseClu v s

/-- A write to RED_CLU_CMD (R412, R419). -/
def writeCluCmd (source v : Nat) (s : State) : State :=
  let c := bits v 0 3
  let testing := decide (source < 64) && (getClu s (source / 8)).st == 5
  if testing && !(c == source / 8 && (bits v 3 3 == 2 || bits v 3 3 == 4)) then refuseClu v s
  else match bits v 3 3 with
    | 1 => doService c v s
    | 2 => doStandby source c v s
    | 3 => doOff c v s
    | 4 => doFail c v s
    | 5 => doRetest c v s
    | _ => noteReserved aRedCluCmd v s

/-- A RED_CLU_CMD write by a hart, behind its cluster's fence (R71, R412). -/
def cluCmdBy (source action c : Nat) (s : State) : State :=
  if fenced s source aRedCluCmd then accError source aRedCluCmd errIsolated 2 true s
  else writeCluCmd source (c + action * 8) s

/-- SERVICE (R408, R410). -/
def execService (source : Fin 64) (c : Fin 8) (s : State) : Host.Outcome State Fault Refusal := actSev s (cluCmdBy source.val 1 c.val)

/-- STANDBY (R408, R412). -/
def execStandby (source : Fin 64) (c : Fin 8) (s : State) : Host.Outcome State Fault Refusal := actSev s (cluCmdBy source.val 2 c.val)

/-- OFF (R408). -/
def execOff (source : Fin 64) (c : Fin 8) (s : State) : Host.Outcome State Fault Refusal := actSev s (cluCmdBy source.val 3 c.val)

/-- CLUSTER_FAIL (R409, R412). -/
def execClusterFail (source : Fin 64) (c : Fin 8) (s : State) : Host.Outcome State Fault Refusal := actSev s (cluCmdBy source.val 4 c.val)

/-- RETEST (R412). -/
def execRetest (source : Fin 64) (c : Fin 8) (s : State) : Host.Outcome State Fault Refusal := actSev s (cluCmdBy source.val 5 c.val)

/-- A write to RED_HBc: any value restarts the cluster's timeout, with the HB_TIMEOUT now held (R409, R419). -/
def heartbeat (c : Nat) (s : State) : State :=
  let k := getClu s c
  if beats k.st then setClu c { k with hbFrom := s.now, hbTimeout := regF s aRedCfg 0 10 } s else s

/-- HEARTBEAT (R409): written by the cluster's own harts; an isolated cluster's write gets an error response (R71). -/
def execHeartbeat (c : Fin 8) (s : State) : Host.Outcome State Fault Refusal := act s fun s =>
  if fenced s (8 * c.val) (aRedHb c.val) then accError (8 * c.val) (aRedHb c.val) errIsolated 2 true s else heartbeat c.val s

/-- No heartbeat for HB_TIMEOUT, as it stood at the last one (R409, R419). -/
def heartbeatLate (s : State) (c : Nat) : Bool := decide ((getClu s c).hbTimeout * 1000 ≤ s.now - (getClu s c).hbFrom)

/-- HEARTBEAT_TIMEOUT (R409). -/
def execHeartbeatTimeout (c : Fin 8) (s : State) : Host.Outcome State Fault Refusal := actSev s fun s =>
  if heartbeatLate s c.val then clusterFault c.val 0x20 s else s

/-- SELF_TEST_TIMEOUT (R412). -/
def execSelfTestTimeout (c : Fin 8) (s : State) : Host.Outcome State Fault Refusal := actSev s fun s =>
  if (getClu s c.val).st = 5 then enterFaulty c.val s else s

end Sys2Proof.Machine
end

