-- ==== Sys2Proof/Machine/Journal.lean ====
section
/-! DEFINITION. Caisson: namespaces and zones as the format record lays them out, the journal's entry records, slots,
zone table and descriptors, and how records are reserved, committed, superseded, deferred and freed
(R149, R165–R174, R190–R193, R467). -/

namespace Sys2Proof.Machine

/-! ### Namespaces and zones (R149, R166, R467) -/

/-- The position of an actuator in the format record's list. -/
def actPos (f : Fmt) (n : Nat) : Option Nat := f.acts.findIdx? (· == n)

/-- Zones of the actuator at a position of the list. -/
def zonesAt (f : Fmt) (i : Nat) : Nat := f.zones.getD i 0

/-- Conventional capacity, in blocks, of the actuator at a position of the list. -/
def convAt (f : Fmt) (i : Nat) : Nat := f.conv.getD i 0

/-- Blocks of a 256 MiB unit (R467). -/
abbrev unitBlocks : Nat := 65536

/-- The zones of a zoned namespace; 0 where it does not exist (R149). -/
def nsZones (f : Fmt) (nsid : Nat) : Nat :=
  if f.layout = 0 then
    if 1 ≤ nsid ∧ nsid ≤ 4 then (match actPos f (nsid - 1) with | some i => zonesAt f i | none => 0) else 0
  else if nsid = 1 then (f.zones.take f.acts.length).sum else 0

/-- The blocks of a conventional namespace; 0 where it does not exist (R149, R467). -/
def nsConv (f : Fmt) (nsid : Nat) : Nat :=
  if f.layout = 0 then
    if 5 ≤ nsid ∧ nsid ≤ 8 then (match actPos f (nsid - 5) with | some i => convAt f i | none => 0) else 0
  else if nsid = 2 then (f.conv.take f.acts.length).sum else 0

/-- A namespace is zoned. -/
def isZoned (f : Fmt) (nsid : Nat) : Bool := decide (0 < nsZones f nsid)

/-- A namespace exists. -/
def nsExists (f : Fmt) (nsid : Nat) : Bool := decide (0 < nsZones f nsid) || decide (0 < nsConv f nsid)

/-- The blocks a namespace addresses: zones are ZSZE 65,536 blocks (R149). -/
def nsBlocks (f : Fmt) (nsid : Nat) : Nat := nsZones f nsid * 65536 + nsConv f nsid

/-- The global index of a zone: from 0 in NSID order and then zone order (R166). -/
def zoneIdx (f : Fmt) (nsid z : Nat) : Nat :=
  if f.layout = 0 then nsZones f 1 * bnat (decide (1 < nsid)) + nsZones f 2 * bnat (decide (2 < nsid))
    + nsZones f 3 * bnat (decide (3 < nsid)) + nsZones f 4 * bnat (decide (4 < nsid)) + z
  else z

/-- The zone of a block of a zoned namespace, by global index. -/
def zoneOfLba (f : Fmt) (nsid lba : Nat) : Nat := zoneIdx f nsid (lba / 65536)

/-- A zone's capacity in blocks. -/
def zoneCap (f : Fmt) (g : Nat) : Nat := match f.zcap.find? (fun e => e.1 == g) with | some e => e.2 | none => 65536

/-- The head of the surface a zone lies on. -/
def zoneHead (f : Fmt) (g : Nat) : Nat := match f.heads.find? (fun e => e.1 == g) with | some e => e.2 | none => 0

/-- The head of the surface a block of a conventional namespace lies on. -/
def convHead (f : Fmt) (nsid lba : Nat) : Nat :=
  match f.cheads.find? (fun e => e.1 == (nsid, lba / 65536)) with | some e => e.2 | none => 0

/-- The LBA format of a namespace (R145). -/
def lbaf (f : Fmt) (nsid : Nat) : Nat := match f.lbaf.find? (fun e => e.1 == nsid) with | some e => e.2 | none => 0

/-- Bytes of a block on the wire: 4,096, and 16 of metadata under LBAF 1 (R145). -/
def blockBytes (f : Fmt) (nsid : Nat) : Nat := if lbaf f nsid = 1 then 4112 else 4096

/-- The positions of actuators that still take a unit in turn `r` (R467). -/
def dealTurn (f : Fmt) (r : Nat) : List Nat :=
  (List.range f.acts.length).filter fun i => decide (r < convAt f i / unitBlocks)

/-- Unit `u` of the joint conventional namespace: position of its actuator, and which of that actuator's units it
is (R467). The fuel bounds the turns. -/
def dealUnit (f : Fmt) : Nat → Nat → Nat → Nat × Nat
  | 0, _, _ => (0, 0)
  | fuel + 1, r, u =>
    let t := dealTurn f r
    if u < t.length then (t.getD u 0, r) else dealUnit f fuel (r + 1) (u - t.length)

/-- The actuator that holds a block (R149, R467). -/
def actOfLba (f : Fmt) (nsid lba : Nat) : Nat :=
  if f.layout = 0 then (if nsid ≤ 4 then nsid - 1 else nsid - 5)
  else if nsid = 1 then f.acts.getD (lba / 65536 % f.acts.length) 0
  else f.acts.getD (dealUnit f ((f.conv.sum) / unitBlocks + 1) 0 (lba / unitBlocks)).1 0

/-- The zoned namespace and zone number of a global zone index. -/
def nsOfZone (f : Fmt) (g : Nat) : Nat × Nat :=
  if f.layout = 0 then
    let z1 := nsZones f 1; let z2 := nsZones f 2; let z3 := nsZones f 3
    if g < z1 then (1, g) else if g < z1 + z2 then (2, g - z1)
    else if g < z1 + z2 + z3 then (3, g - z1 - z2) else (4, g - z1 - z2 - z3)
  else (1, g)

/-- The zones of every zoned namespace together (R166). -/
def zoneCount (f : Fmt) : Nat := if f.layout = 0 then zoneIdx f 5 0 else nsZones f 1

/-- A head of an actuator found at start is absent or faulty (R125, R126, R181). -/
def headBad (s : State) (n h : Nat) : Bool :=
  smGet (fun _ => 0) s.boot.acts n == 1
    && (smGet (fun _ => 0) s.boot.heads (n * 8 + h) == 0 || smGet (fun _ => 0) s.boot.heads (n * 8 + h) == 2)

/-- A zone lies on the surface of a head that is absent or faulty (R181). -/
def zoneHeadBad (s : State) (g : Nat) : Bool :=
  let p := nsOfZone s.cmd.fmt g
  headBad s (actOfLba s.cmd.fmt p.1 (p.2 * 65536)) (zoneHead s.cmd.fmt g)

/-- Two block ranges of one namespace share a block (R162). -/
def rangesMeet (a n b m : Nat) : Bool := decide (a < b + m) && decide (b < a + n) && decide (0 < n) && decide (0 < m)

/-! ### Pieces, chunks and runs (R168, R170) -/

/-- The 1 MiB-aligned pieces of a range, as first block and blocks. -/
def piecesFrom : Nat → Nat → Nat → List (Nat × Nat)
  | 0, _, _ => []
  | fuel + 1, lba, n =>
    if n = 0 then []
    else
      let k := min n (256 - lba % 256)
      (lba, k) :: piecesFrom fuel (lba + k) (n - k)

/-- The pieces of a command's range: at most 17 for 16 MiB (R168). -/
def pieces (lba n : Nat) : List (Nat × Nat) := piecesFrom (n / 256 + 2) lba n

/-- Chunks of 32 slots that a piece of `n` blocks takes (R170). -/
def chunksFor (n : Nat) : Nat := (n + 31) / 32

/-- Data slots of the journal (R165). -/
def jrnSlots (s : State) : Nat := (936 - fwMib s) * 256

/-- A record holds data: reserved, committed, destaging or deferred. -/
def recHolds (r : EntryRec) : Bool := decide (1 ≤ r.state) && decide (r.state ≤ 4)

/-- The chunks that a record's runs cover. -/
def recChunks (r : EntryRec) : List Nat :=
  r.runs.flatMap fun (a, n) => (List.range (chunksFor n)).map fun i => a / 32 + i

/-- The chunks in use. -/
def usedChunks (s : State) : List Nat := s.jrn.recs.flatMap fun e => recChunks e.2

/-- Free data slots: whole free chunks only (R170). -/
def jrnFree (s : State) : Nat := jrnSlots s - 32 * (usedChunks s).length

/-- Free entry records (R198). -/
def jrnRecordsFree (s : State) : Nat := 131072 - s.jrn.recs.length

/-- Slots held by deferred records: their chunks (R193). -/
def deferHeld (s : State) : Nat :=
  32 * ((s.jrn.recs.filter fun e => e.2.state == 4).flatMap fun e => recChunks e.2).length

/-- JRN_DEFER_LIMIT in force: 0 means an eighth of the slots (R198). -/
def deferLimit (s : State) : Nat :=
  let l := regF s aJrnDeferLimit 0 18
  if l = 0 then jrnSlots s / 8 else l

/-- The first `n` free chunks (DESIGN CHOICE: lowest first, log 20). The fuel bounds the search. -/
def freeChunks (used : List Nat) : Nat → Nat → Nat → List Nat
  | 0, _, _ => []
  | fuel + 1, c, n =>
    if n = 0 then []
    else if used.contains c then freeChunks used fuel (c + 1) n
    else c :: freeChunks used fuel (c + 1) (n - 1)

/-- Runs from chunks in order: adjacent chunks join, and the last chunk gives what is left of the piece (R170). -/
def runsOf : List Nat → Nat → List (Nat × Nat)
  | [], _ => []
  | c :: cs, n =>
    match runsOf cs (n - 32) with
    | (a, m) :: rest => if a = c * 32 + 32 then (c * 32, 32 + m) :: rest else (c * 32, min n 32) :: (a, m) :: rest
    | [] => [(c * 32, min n 32)]

/-- The slots of a record in block order. -/
def recSlots (r : EntryRec) : List Nat := r.runs.flatMap fun (a, n) => (List.range n).map fun i => a + i

/-- The slot of a block of a record's piece. -/
def slotOf (r : EntryRec) (lba : Nat) : Option Nat :=
  if r.slba ≤ lba ∧ lba < r.slba + r.nlb then (recSlots r)[lba - r.slba]? else none

/-- The lowest free entry record from `i`. -/
def freeRecFrom (m : SMap EntryRec) : Nat → Nat → Nat
  | 0, i => i
  | fuel + 1, i => if (smGet (fun _ => ({} : EntryRec)) m i).state = 0 then i else freeRecFrom m fuel (i + 1)

/-- A free entry record. -/
def freeRec (s : State) : Nat := freeRecFrom s.jrn.recs (s.jrn.recs.length + 1) 0

/-! ### Descriptor and host table (R160, R167, R168) -/

/-- Entry records that are not free. -/
def unreleased (s : State) : Nat := s.jrn.recs.length

/-- The valid descriptor copy with the higher GEN, if any. -/
def validDesc (s : State) : Option JDesc :=
  let a := s.jrn.desc0; let b := s.jrn.desc1
  if a.good && b.good then some (if a.gen < b.gen then b else a)
  else if a.good then some a else if b.good then some b else none

/-- The intake high-water mark recorded. -/
def hwm (s : State) : Nat := match validDesc s with | some d => d.hwm | none => 0

/-- The descriptor rewritten in the older or invalid copy, with GEN raised by one (R167). -/
def writeDesc (h : Nat) (s : State) : State :=
  let a := s.jrn.desc0; let b := s.jrn.desc1
  let g := match validDesc s with | some d => d.gen + 1 | none => 1
  let d : JDesc := { good := true, gen := g, fwMib := fwMib s, dataSlots := jrnSlots s, unreleased := unreleased s,
                     hwm := h, deferHeld := deferHeld s }
  if a.good && (!b.good || decide (b.gen < a.gen)) then { s with jrn := { s.jrn with desc1 := d } }
  else { s with jrn := { s.jrn with desc0 := d } }

/-- The descriptor brought up to date. -/
def syncDesc (s : State) : State := writeDesc (hwm s) s

/-- The high-water mark raised by 2²⁰ whenever the counter is within 2¹⁹ of it (R160). -/
def raiseHwm (s : State) : State :=
  if hwm s < s.cmd.nextSeq + 2 ^ 19 then writeDesc (hwm s + ((s.cmd.nextSeq + 2 ^ 19 - hwm s + 2 ^ 20 - 1) / 2 ^ 20) * 2 ^ 20) s
  else s

/-- The HOSTIDX of a host. -/
def hostIdxOf (s : State) (nqn hid : Nat) : Option Nat :=
  (s.jrn.hosts.find? fun e => e.2 == some (nqn, hid)).map (·.1)

/-- A HOSTIDX is referred to by a record or a pending deferred error (R168). -/
def hostIdxUsed (s : State) (i : Nat) : Bool :=
  s.jrn.recs.any (fun e => e.2.hostIdx == i) || s.jrn.pendingErr.any (fun p => p.1 == i)

/-- Host table entries that nothing refers to are given up (R168). -/
def dropHosts (s : State) : State :=
  { s with jrn := { s.jrn with hosts := s.jrn.hosts.filter fun e => hostIdxUsed s e.1 } }

/-- A HOSTIDX for a host: its own, or the lowest free of 4,096 (R168). -/
def takeHostIdx (s : State) (nqn hid : Nat) : Option Nat :=
  match hostIdxOf s nqn hid with
  | some i => some i
  | none => findFrom (fun i => !(s.jrn.hosts.any fun e => e.1 == i)) 0 (min 4096 (s.jrn.hosts.length + 1))

/-! ### How a record leaves the journal (R172) -/

/-- A record's slots freed. -/
def freeSlots (r : EntryRec) (s : State) : State :=
  (recSlots r).foldl (fun t i => setSlot i {} t) s

/-- The records of one command. -/
def recsOfSeq (s : State) (q : Nat) : List (Nat × EntryRec) := s.jrn.recs.filter fun e => e.2.seq == q

/-- A record leaves the journal: its slots are freed at once; it becomes released while another record of the
command holds data, and otherwise every record of the command is written free (R172). -/
def leaveJournal (i : Nat) (s : State) : State :=
  let r := getRec s i
  if r.state = 0 then s
  else
    let s := freeSlots r s
    let s := setRec i { r with state := 5, runs := [] } s
    if (recsOfSeq s r.seq).any fun e => decide (2 ≤ e.2.state) && decide (e.2.state ≤ 4) then syncDesc s
    else syncDesc (dropHosts ((recsOfSeq s r.seq).foldl (fun t e => setRec e.1 {} t) s))

/-- Every record of a command freed with its slots: a discarded reservation (R139, R152, R164, R174). -/
def freeCommand (q : Nat) (s : State) : State :=
  syncDesc (dropHosts ((recsOfSeq s q).foldl (fun t e => setRec e.1 {} (freeSlots e.2 t)) s))

/-! ### Zones as they stand (R166, R178) -/

/-- The write pointer of a zone, from its first block: the greater of MEDIA_WP and the end of the last record of the
zone that the journal keeps (R166). -/
def zoneWp (s : State) (g : Nat) : Nat :=
  let f := s.cmd.fmt
  s.jrn.recs.foldl (fun w e =>
    let r := e.2
    if decide (2 ≤ r.state) && decide (r.state ≤ 4) && isZoned f r.nsid && zoneOfLba f r.nsid r.slba == g
    then max w (r.slba % 65536 + r.nlb) else w) (getZone s g).mediaWp

/-- A zone is open, implicitly or explicitly. -/
def zOpen (st : Nat) : Bool := st == 1 || st == 2

/-- A zone is active: open or Closed. -/
def zActive (st : Nat) : Bool := st == 1 || st == 2 || st == 3

/-- Open zones as intake sees them. -/
def openCount (s : State) : Nat := (s.cmd.iz.filter fun e => zOpen e.2.st).length

/-- Active zones as intake sees them. -/
def activeCount (s : State) : Nat := (s.cmd.iz.filter fun e => zActive e.2.st).length

/-- A zone's durable state changed (R166). -/
def setZState (g st : Nat) (s : State) : State := setZone g { getZone s g with zstate := st } s

/-- A zone becomes Full with Zone Finished by Controller, for intake too (R190); one that is Read Only or Offline stays
so. -/
def finishByController (g : Nat) (s : State) : State :=
  if 5 ≤ (getZone s g).zstate then s
  else setIZ g { getIZ s g with st := 4 } (setZone g { getZone s g with zstate := 4, zfc := true } s)

/-- Every zone on the surface of a head that is absent or faulty becomes Read Only with Zone Finished by Controller,
unless it is Offline (R181). -/
def failSurfaces (s : State) : State :=
  ((List.range (zoneCount s.cmd.fmt)).filter fun g => zoneHeadBad s g && decide ((getZone s g).zstate < 5)).foldl (fun t g =>
    setIZ g { getIZ t g with st := 5 } (setZone g { getZone t g with zstate := 5, zfc := true } t)) s

/-! ### ANA groups (R149–R151) -/

/-- Groups: one per listed actuator, or one joint group (R149). -/
def anaGroups (f : Fmt) : List Nat := if f.layout = 0 then f.acts.map (· + 1) else [1]

/-- The actuators of a group. -/
def groupActs (f : Fmt) (g : Nat) : List Nat := if f.layout = 0 then [g - 1] else f.acts

/-- The group of a namespace. -/
def groupOf (f : Fmt) (nsid : Nat) : Nat := if f.layout = 0 then (if nsid ≤ 4 then nsid else nsid - 4) else 1

/-- An actuator's condition puts its group in Change: not yet in service, or parked otherwise than for PS3 or PS4
(R150). -/
def actInChange (s : State) (n : Nat) : Bool :=
  let st := (getSched s n).st
  st == 1 || (st == 4 && !(decide (3 ≤ s.cmd.ps)) && !s.cmd.saved.parked.contains n)

/-- An actuator is write-degraded: by its held slots, or while its HSLn.D is FAILED (R193, R228). -/
def isDegraded (s : State) (n : Nat) : Bool := s.jrn.degraded.contains n || (getHsl s n).dSt == 5

/-- The ANA state of a group: 0x0F Change, 0x02 Non-Optimized, 0x01 Optimized, in the order of precedence (R150). -/
def anaState (s : State) (g : Nat) : Nat :=
  let a := groupActs s.cmd.fmt g
  if a.any (actInChange s) then 0x0F
  else if a.any (fun n => (getSched s n).st == 5) then 0x02
  else if a.any (isDegraded s) then 0x02 else 0x01

/-- ANA state changes are counted and announced (R151). -/
def noteAna (s : State) : State :=
  (anaGroups s.cmd.fmt).foldl (fun t g =>
    let now := anaState t g
    if smGet (fun _ => 0) t.host.anaLast g = now then t
    else
      let h := t.host
      let h := { h with anaLast := smSet (fun _ => 0) h.anaLast g now, anaCount := h.anaCount + 1,
                        anaSince := if now = 0x0F then smSet (fun _ => 0) h.anaSince g t.now else h.anaSince }
      postEvent { type_ := 2, info := 3, log := 0x0C } (some 11) { t with host := h }) s

/-! ### Deferred write errors (R190–R193) -/

/-- Entry into and exit from write-degraded each make a record, an entry in the health report and a change of the group's
ANA state (R151, R193). -/
def setDegraded (n : Nat) (on : Bool) (s : State) : State :=
  if s.jrn.degraded.contains n = on then s
  else
    let d := s.jrn.degraded.filter (· != n)
    let s := { s with jrn := { s.jrn with degraded := if on then n :: d else d } }
    let s := record srcCmd 0x64 [n, if on then 1 else 0] s
    let s := if on then { s with red := { s.red with wdegEntries := s.red.wdegEntries + 1 } } else s
    noteAna (faultEvent 0x50 n (if on then 1 else 2) s)

/-- Write-degraded ends once held slots fall below three quarters of the limit (R193). -/
def endDegraded (s : State) : State :=
  if 4 * deferHeld s < 3 * deferLimit s then forTo (fun n t => setDegraded n false t) 4 s else s

/-- The log 0xC1 entry that a new deferral takes: a free one, else the oldest resolved, else the oldest reported
(R192). The log is held oldest first: DESIGN CHOICE (log 103), the entry overwritten leaves its place, those behind it move
up, and the new one stands last. -/
def makeRoom (l : List Defer) : Option (List Defer) :=
  if l.length < 255 then some l
  else match takeFirst (fun d : Defer => d.status == 3) l with
    | some (_, rest) => some rest
    | none => (takeFirst (fun d : Defer => d.status == 2) l).map (·.2)

/-- Entries of log 0xC1 given a status; GENERATION rises by one for each (R192). -/
def markDefers (p : Defer → Bool) (status : Nat) (s : State) : State :=
  let n := (s.jrn.log.filter p).length
  { s with jrn := { s.jrn with log := mapIf p (fun d => { d with status := status }) s.jrn.log, logGen := s.jrn.logGen + n } }

/-- Marking deferred errors resolved (R193). -/
def resolveDefer (p : Defer → Bool) (s : State) : State := markDefers (fun d => p d && d.status != 3) 3 s

/-- A breach: a record with the ranks of the guarantee broken and of the one kept, and the count of the rank broken
(R35). -/
def breach (broken kept seq : Nat) (s : State) : State :=
  incReg (aBreach broken) (record srcCmd 0x61 [seq, broken + kept * 256] s)

/-- An uncorrectable block of an acknowledged write: durability yields to rank 1, and the unit's atomicity to durability
where other blocks of it stand; counted once for a record (R35). -/
def breachBlock (i : Nat) (all : Bool) (s : State) : State :=
  let r := getRec s i
  if r.breached then s
  else
    let s := breach 2 1 r.seq (setRec i { r with breached := true } s)
    if all then s else breach 3 2 r.seq s

/-- A record that cannot be placed becomes deferred (R190, R192, R193). -/
def deferRecord (i reason failed : Nat) (s : State) : State :=
  let r := getRec s i
  if r.state = 4 ∨ r.state = 0 then s
  else
    let f := s.cmd.fmt
    let zoned := isZoned f r.nsid
    let g := zoneOfLba f r.nsid r.slba
    let s := setRec i { r with state := 4 } s
    let s := if zoned then finishByController g s else s
    let d : Defer := { seq := r.seq, nsid := r.nsid, zone := if zoned then r.slba / 65536 else 0xFFFFFFFF,
                       slba := r.slba, nlb := r.nlb, failed, reason, status := 1, tb := s.now, wall := wallNow s,
                       hostIdx := r.hostIdx, recIdx := i }
    let j := s.jrn
    let j := { j with logTotal := satAdd 32 j.logTotal 1 }
    let j := match makeRoom j.log with
      | some l => { j with log := l ++ [d], logGen := j.logGen + 1 }
      | none => { j with logOverflow := satAdd 32 j.logOverflow 1 }
    let mark := (r.hostIdx, r.nsid)
    let j := if j.pendingErr.contains mark then j else { j with pendingErr := j.pendingErr ++ [mark] }
    let s := { s with jrn := j }
    let s := record srcCmd 0x62 [r.seq, j.log.length - 1] s
    let s := trigger 5 s
    let s := syncDesc s
    if deferLimit s < deferHeld s then setDegraded (actOfLba f r.nsid r.slba) true s else s

/-- A deferred record freed, its entry resolved (R193). -/
def freeDeferred (i : Nat) (s : State) : State :=
  let r := getRec s i
  let s := resolveDefer (fun d => d.recIdx == i && d.seq == r.seq) s
  endDegraded (leaveJournal i s)

end Sys2Proof.Machine
end

