-- ==== Sys2Proof/Machine/MramView.lean ====
section
/-! DEFINITION. The bytes of the MRAM's journal and Strata mirror regions, as engines read them: views of what Caisson and
the recorder hold (R90, R165–R169, R421, R428, R429). -/

namespace Sys2Proof.Machine

/-- A structure of 60 bytes with the CRC32C that closes it. -/
def withCrc (bs : List Byte) : List Byte := let b := padTo 60 bs; b ++ leBytes 4 (crc32c b).toNat

/-- An entry record's 64 bytes, none where they are not known (R168). -/
def entryRecBytes (r : EntryRec) : Option (List Byte) :=
  if r.state = 0 then some (zeros 64)
  else if !r.crcOk then none
  else some (withCrc (leBytes 1 r.state ++ leBytes 1 r.kind ++ leBytes 1 r.piece ++ leBytes 1 r.pieces ++ leBytes 4 r.nsid
    ++ leBytes 8 r.slba ++ leBytes 2 r.nlb ++ leBytes 2 r.hostIdx ++ leBytes 8 r.seq
    ++ padTo 32 (r.runs.flatMap fun e => leBytes 4 (e.1 + e.2 * 2 ^ 18))))

/-- A zone table entry's 8 bytes (R166). -/
def zoneBytes (z : ZoneEnt) : List Byte :=
  leBytes 8 (z.zstate + bnat z.zfc * 8 + bnat z.rzr * 16 + z.zgen % 65536 * 2 ^ 8 + z.mediaWp * 2 ^ 24)

/-- A journal region descriptor copy's 4 KiB, none where it is not valid (R167). -/
def descBytes (d : JDesc) : Option (List Byte) :=
  if !d.good then none
  else some (padTo 4096 (withCrc (leBytes 4 0x4A43515A ++ leBytes 2 1 ++ leBytes 2 0 ++ leBytes 4 d.gen ++ leBytes 1 d.fwMib ++ zeros 3
    ++ leBytes 4 d.dataSlots ++ leBytes 4 d.unreleased ++ leBytes 8 d.hwm ++ leBytes 4 d.deferHeld)))

/-- A slot tag's 32 bytes, none for a slot that no record holds (R169). -/
def tagBytes (k : Slot) : Option (List Byte) :=
  if k = {} then none else some (leBytes 8 k.lba ++ leBytes 4 k.nsid ++ leBytes 4 k.seqLo ++ padTo 16 k.pi)

/-- Byte `i` of bytes that may not be known; `a` is its address. -/
def knownByte (a : Nat) (b : Option (List Byte)) (i : Nat) : Byte :=
  match b with
  | some l => l.getD i 0
  | none => Config.staleByte a

/-- A byte of the journal region at an offset (R165). -/
def jrnByte (s : State) (o : Nat) : Byte :=
  let a := mramBase + o
  if o < 0x1000 then knownByte a (descBytes s.jrn.desc0) o
  else if 0x8000 ≤ o ∧ o < 0x9000 then knownByte a (descBytes s.jrn.desc1) (o - 0x8000)
  else if 0x10000 ≤ o ∧ o < 0x810000 then knownByte a (entryRecBytes (getRec s ((o - 0x10000) / 64))) (o % 64)
  else if 0x810000 ≤ o ∧ o < 0x1000000 then (zoneBytes (getZone s ((o - 0x810000) / 8))).getD (o % 8) 0
  else if 0x1000000 ≤ o ∧ o < 0x1800000 then
    let k := (o - 0x1000000) / 32
    if k < jrnSlots s then knownByte a (tagBytes (getSlot s k)) (o % 32) else 0
  else if 0x1800000 ≤ o then
    let k := getSlot s ((o - 0x1800000) / 4096)
    if k.data.isEmpty then Config.staleByte a else k.data.getD (o % 4096) 0
  else 0

/-- A byte of a ring of records at an offset: of the record that covers it, or of a filler, which reads 0 (R421, R428). -/
def ringByte (ring : List (Nat × Rec)) (size o : Nat) : Byte :=
  match ring.find? fun e => decide ((o + size - e.1 % size) % size < e.2.len) with
  | some e => (recBytes e.2).getD ((o + size - e.1 % size) % size) 0
  | none => 0

/-- An epoch table entry's 32 bytes (R429). -/
def epochBytes (e : Epoch) : List Byte := leBytes 4 e.life ++ leBytes 4 e.flags ++ leBytes 8 e.tbAt ++ leBytes 8 e.wallAt ++ zeros 8

/-- The mirror's control block (R429). -/
def mirrorControl (m : Mirror) : Option (List Byte) :=
  if !m.good then none
  else some (withCrc (leBytes 4 0x4D53515A ++ leBytes 2 1 ++ leBytes 2 0 ++ leBytes 4 m.life ++ leBytes 1 m.epoch ++ zeros 3
    ++ leBytes 8 m.mhead ++ leBytes 4 mirrorRing))

/-- A byte of the Strata mirror at an offset (R429). -/
def mirrorByte (s : State) (o : Nat) : Byte :=
  if o < 0x40 then knownByte (mirrorBase + o) (mirrorControl s.mirror) o
  else if 0x10000 ≤ o ∧ o < 0x12000 then
    (epochBytes (smGet (fun _ => {}) s.mirror.epochs ((o - 0x10000) / 32))).getD (o % 32) 0
  else if 0x20000 ≤ o then ringByte s.mirror.ring mirrorRing (o - 0x20000)
  else Config.staleByte (mirrorBase + o)

end Sys2Proof.Machine
end

