-- ==== Sys2Proof/Machine/Cache.lean ====
section
/-! DEFINITION. The caches of the clusters, atomic operations, and the DRAM and MRAM as engines and scrubbers reach
them (R74–R91, R103). -/

namespace Sys2Proof.Machine

/-! ### Memory errors (R88, R89, R414) -/

/-- The number of corrected errors of the last hour. -/
def hourCount (now : Nat) (l : List (Nat × Nat)) : Nat :=
  ((l.filter fun e => decide (now - e.1 < 3600000000000)).map (·.2)).sum

/-- Corrected errors noted with their time; entries older than an hour go. -/
def noteHour (now k : Nat) (l : List (Nat × Nat)) : List (Nat × Nat) :=
  if k = 0 then l else (now, k) :: l.filter fun e => decide (now - e.1 < 3600000000000)

/-- Corrected DRAM errors counted; more than 10,000 within an hour raise the trend 0x0042 (R88, R414). -/
def dramCe (k : Nat) (s : State) : State :=
  let s := incWideBy aDramCeLo k s
  let s := { s with red := { s.red with dramCe := noteHour s.now k s.red.dramCe } }
  if 10000 < hourCount s.now s.red.dramCe then addFault 0x42 0 s else s

/-- Corrected MRAM errors counted (R89, R414). -/
def mramCe (k : Nat) (s : State) : State :=
  let s := incRegBy aMramCe k s
  let s := { s with red := { s.red with mramCe := noteHour s.now k s.red.mramCe } }
  if 10000 < hourCount s.now s.red.mramCe then addFault 0x43 0 s else s

/-- A block is uncorrectable. -/
def isBad (s : State) (block : Nat) : Bool := smGet (fun _ => false) s.bad block

/-- A block found uncorrectable. -/
def markBad (block : Nat) (s : State) : State := { s with bad := smSet (fun _ => false) s.bad block true }

/-- An uncorrectable error of a block counted and recorded, with its address (R88, R89). -/
def noteUe (block : Nat) (s : State) : State :=
  if block * 64 < mramBase then record srcSys 0x23 [block * 64] (incReg aDramUe s)
  else record srcSys 0x24 [block * 64] (incReg aMramUe s)

/-- A read of a block meets what the code finds: the state after it, and whether the block is uncorrectable. -/
def readBlock (block : Nat) (e : MemErr) (s : State) : State × Bool :=
  let s := if e = .uncorrectable then markBad block s else s
  if isBad s block then (noteUe block s, true)
  else if e = .corrected then (if block * 64 < mramBase then dramCe 1 s else mramCe 1 s, false)
  else (s, false)

/-- A scrub pass: corrected blocks are rewritten and counted, uncorrectable ones counted and recorded (R88, R89). -/
def scrub (lo hi : Nat) (corrected bad : List Nat) (s : State) : State :=
  let inside := fun b => decide (lo ≤ b * 64) && decide (b * 64 + 64 ≤ hi)
  let s := (bad.filter inside).foldl (fun t b => markBad b t) s
  let s := (s.bad.filter fun e => e.2 && inside e.1).foldl (fun t e => noteUe e.1 t) s
  let k := (corrected.filter fun b => inside b && !isBad s b).length
  if lo < mramBase then dramCe k s else mramCe k s

/-- DRAM_SCRUB (R88): one pass over the usable blocks, which are numbered by address ÷ 64. -/
def execDramScrub (corrected bad : List Nat) (s : State) : Host.Outcome State Fault Refusal := act s fun s =>
  if dramUsable s = 0 then s else scrub dramBase (dramBase + dramUsable s) corrected bad s

/-- MRAM_SCRUB (R89): one pass over every block. -/
def execMramScrub (corrected bad : List Nat) (s : State) : Host.Outcome State Fault Refusal := act s
  (scrub mramBase (mramBase + 0x40000000) corrected bad)

/-- CORRECTABLE_RATE_FAILBACK (R414): 24 h below the rate. -/
def execCorrectableRateFailback (mram : Bool) (s : State) : Host.Outcome State Fault Refusal := act s fun s =>
  if mram then (if 10000 < hourCount s.now s.red.mramCe then s else clearFault 0x43 0 s)
  else if 10000 < hourCount s.now s.red.dramCe then s else clearFault 0x42 0 s

/-! ### Locks (R90, R103, R430, R434) -/

/-- A write to SYS_DRAM_CFG (R11, R95, R103). -/
def writeDramCfg (v : Nat) (s : State) : State :=
  if regB s aDramCfg 7 then
    if bits v 0 5 ≠ regF s aDramCfg 0 5 ∨ bit v 7 = false then noteViolation aDramCfg v s else s
  else
    let rate := bits v 0 2
    let capBad := decide (3 < bits v 2 3)
    let cap := if capBad then regF s aDramCfg 2 3 else bits v 2 3
    let lockBad := bit v 7 && (rate == 0 || cap == 0)
    let s := setReg aDramCfg (rate + cap * 4 + bnat (bit v 7 && !lockBad) * 128) s
    if capBad || lockBad then noteReserved aDramCfg v s else s

/-- DRAM_CFG_LOCK (R87, R103). -/
def execDramCfgLock (v : Nat) (s : State) : Host.Outcome State Fault Refusal := act s (writeDramCfg v)

/-- A new epoch of the wall clock, with its table entry (R434). -/
def openEpoch (flags wallAt : Nat) (s : State) : State :=
  let e := (s.mirror.epoch + 1) % 256
  let entry : Epoch := { life := s.mirror.life, flags := flags, tbAt := s.now, wallAt := wallAt }
  { s with mirror := { s.mirror with epoch := e, epochs := smSet (fun _ => {}) s.mirror.epochs e entry },
           wall := { epoch := e, wallAt := wallAt, tbAt := s.now, valid := bit flags 0 } }

/-- START's payload completed (R423, R430). -/
def completeStart (s : State) : State :=
  let fix := fun (r : Rec) => if r.src = srcSys ∧ r.code = 1 then
    { r with args := [s.mirror.life, s.pwr.cause + s.pwr.resetCount * 65536, reg s aBootStatus] } else r
  { s with strata := { s.strata with queue := s.strata.queue.map fix, ring := s.strata.ring.map fun e => (e.1, fix e.2) } }

/-- A new life begins when the MRAM regions are locked (R430). -/
def newLife (s : State) : State :=
  let m := s.mirror
  let m := if m.good then m else { m with good := true, life := 0, epoch := 0, mhead := 0, ring := [] }
  let s := { s with mirror := { m with life := (m.life + 1) % 2 ^ 32 } }
  let s := openEpoch (if s.wall.valid then 3 else 0) (if s.wall.valid then wallNow s else 0) s
  completeStart { s with strata := { s.strata with mbase := up64k s.mirror.mhead, copied := 0, mirrorRun := true } }

/-- A write to SYS_MRAM_REGION (R11, R90, R95, R103). -/
def writeMramRegion (v : Nat) (s : State) : State :=
  if mramLocked s then
    if bits v 0 7 ≠ fwMib s ∨ bit v 7 = false then noteViolation aMramRegion v s else s
  else
    let bad := decide (64 < bits v 0 7)
    let s := setReg aMramRegion ((if bad then fwMib s else bits v 0 7) + bnat (bit v 7) * 128) s
    let s := if bad then noteReserved aMramRegion v s else s
    if bit v 7 then newLife s else s

/-- MRAM_REGION_LOCK (R90, R430). -/
def execMramRegionLock (v : Nat) (s : State) : Host.Outcome State Fault Refusal := act s (writeMramRegion v)

/-! ### Reading memory through the caches (R75–R79, R85) -/

/-- Where a physical address is held: both DRAM windows show the same bytes. -/
def homeAddr (s : State) (a : Nat) : Nat := match regionOf s a with | .dram off => dramBase + off | _ => a

/-- A hardware block's read of `n` bytes of usable DRAM counts and records each uncorrectable block it meets; the data comes
poisoned (R88). -/
def noteRead (off n : Nat) (s : State) : State :=
  if n = 0 then s
  else ((List.range (n / 64 + 2)).filter fun i =>
      let b := (dramBase + off) / 64 + i
      decide (b * 64 < dramBase + off + n) && decide (b * 64 < dramBase + dramUsable s) && isBad s b).foldl (fun t i => noteUe ((dramBase + off) / 64 + i) t) s

/-- A byte as memory holds it. -/
def physByte (s : State) (a : Nat) : Byte :=
  match regionOf s a with
  | .rom => Config.bootRomByte a
  | .flash => smGet (fun _ => 0xFF) s.flash (a - 0x08000000)
  | .journal => jrnByte s (a - mramBase)
  | .mirror => mirrorByte s (a - mirrorBase)
  | _ => memByte s (homeAddr s a)

/-- Bytes as memory holds them. -/
def physBytes (s : State) (a n : Nat) : List Byte := (List.range n).map fun i => physByte s (a + i)

/-- The 64 bytes of a line. -/
def lineBytes (s : State) (line : Nat) : List Byte := physBytes s (line * 64) 64

/-- The L2 of a cluster is in use. -/
def l2On (s : State) (c : Nat) : Bool := regB s (aL2Ctl c) 0

/-- The valid line of a cluster's L2. -/
def l2Find (s : State) (c line : Nat) : Option L2Line :=
  if l2On s c then (getL2 s c).lines.find? fun x => x.line == line else none

/-- A requester has its one read miss outstanding (R77). -/
def missing (b : L2) (r : Nat) : Bool := b.fills.any fun f => f.first.req == r || f.merged.any fun m => m.req == r

/-- The hart of a cluster's requester (R75). -/
def hartOf (c r : Nat) : Nat := 8 * c + r / 2

/-- A way of a set is the one used last. -/
def touch (c line way : Nat) (s : State) : State :=
  let b := getL2 s c
  setL2 c { b with used := smSet (fun _ => 0) b.used (line % 1024) (16 - way) } s

/-- The ways that pseudo-LRU replacement may take among those allowed: not the one used last, while there is another. Which of
them it takes the spec does not say (R75, log 81). -/
def victims (b : L2) (line : Nat) (ways : List Nat) : List Nat :=
  let k := smGet (fun _ => 0) b.used (line % 1024)
  let l := ways.filter fun w => k == 0 || w != 16 - k
  if l.isEmpty then ways else l

/-- A line enters a requester's L1, in a way of its set (R74). -/
def l1Fill (c r line : Nat) (data : List Byte) (way : Option (Fin 4)) (s : State) : State :=
  match way with
  | none => s
  | some w =>
    let l := (getL1 s (16 * c + r)).filter fun x => x.line != line && !(x.line % 128 == line % 128 && x.way == w.val)
    setL1 (16 * c + r) ({ line, way := w.val, data } :: l) s

/-- A line leaves a requester's L1. -/
def l1Drop (c r line : Nat) (s : State) : State :=
  setL1 (16 * c + r) ((getL1 s (16 * c + r)).filter fun x => x.line != line) s

/-- A line delivered to a requester. -/
def deliver (c r line : Nat) (data : List Byte) (way : Option (Fin 4)) (s : State) : State :=
  emit (.line c r line data) (l1Fill c r line data way s)

/-- A read that misses: it waits for its requester's first miss, merges with a fill in flight, or reads memory; with the L2
disabled every read goes to memory (R77, R82). -/
def startMiss (c : Nat) (m : Miss) (e : MemErr) (s : State) : State :=
  let b := getL2 s c
  let line := m.addr / 64
  if missing b m.req then setL2 c { b with waits := b.waits ++ [m] } s
  else if l2On s c && b.fills.any fun f => f.line == line then
    setL2 c { b with fills := mapIf (fun f => f.line == line) (fun f => { f with merged := f.merged ++ [m] }) b.fills } s
  else
    let home := homeAddr s (line * 64) / 64
    let p := match regionOf s (line * 64) with | .dram _ => readBlock home e s | _ => (s, false)
    let f : Fill := { line, first := m, merged := [], data := lineBytes s line, noAlloc := !l2On s c, bad := p.2 }
    setL2 c { b with fills := b.fills ++ [f] } p.1

/-- The cacheable regions (R85). -/
def cacheable (s : State) (a : Nat) : Bool :=
  match regionOf s a with
  | .rom => true
  | .flash => true
  | .dram _ => decide (a < dramAlias)
  | _ => false

/-- A cacheable read by a requester that may not be made, and its kind (R71, R86, R412). -/
def readRefused (s : State) (c r a : Nat) : Option Nat :=
  if fenced s (hartOf c r) a then some errIsolated
  else match regionOf s a with | .unmapped => some errUnmapped | .fused => some errFused | _ => none

/-- An L1 parity error: the line is invalidated and refetched, and L2_CE counts it (R74). -/
def l1Parity (c r line : Nat) (on : Bool) (s : State) : State :=
  if on then incWideBy (aL2CeLo c) 1 (l1Drop c r line s) else s

/-- The ways a requester's fill may use: set in its mask and not retired (R76). -/
def fillWays (s : State) (c r : Nat) : List Nat :=
  (List.range 16).filter fun w => regB s (aL2Waymask c r) w && !regB s (aL2Retired c) w

/-- A line allocated in a way, over its victim (R79). -/
def allocate (c line way : Nat) (data : List Byte) (s : State) : State :=
  let b := getL2 s c
  let l := b.lines.filter fun x => !(x.set == line % 1024 && x.way == way) && x.line != line
  touch c line way (setL2 c { b with lines := { set := line % 1024, way, line, data } :: l } s)

/-- The waiting misses of a requester that now hit are served; the first that misses starts, and `e` is what its memory read
finds (R77). The fuel bounds how many wait. -/
def nextWait (c r : Nat) (e : MemErr) (way : Option (Fin 4)) : Nat → State → State
  | 0, s => s
  | k + 1, s =>
    let b := getL2 s c
    match takeFirst (fun w : Miss => w.req == r) b.waits with
    | none => s
    | some (m, rest) =>
      let s := setL2 c { b with waits := rest } s
      match l2Find s c (m.addr / 64) with
      | some x => nextWait c r e way k (touch c x.line x.way (deliver c r x.line x.data way s))
      | none => startMiss c m e s

/-- One requester's fill delivered, or answered with MEM_UNCORRECTABLE for the access it made (R77, R88, R93). -/
def deliverFill (c : Nat) (f : Fill) (e : MemErr) (way : Option (Fin 4)) (m : Miss) (s : State) : State :=
  let s := if f.bad then accError (hartOf c m.req) m.addr errMem m.size false s else deliver c m.req f.line f.data way s
  nextWait c m.req e way (getL2 s c).waits.length s

/-- L2_FILL_RETURN (R76, R77, R79): the data goes to everyone waiting for it, and the line is allocated in one of the
ways the starting requester's mask allows now: the pseudo-LRU's choice among its victims, given by `pick`. A read of the flash
window returns only once no flash command is on the bus (R128). `e` is what the read of a miss that waited finds. -/
def execL2FillReturn (c : Fin 8) (a pick : Nat) (l1Way : Option (Fin 4)) (e : MemErr) (s : State) : Host.Outcome State Fault Refusal :=
  act s fun s =>
    let b := getL2 s c.val
    match takeFirst (fun f : Fill => f.line == a / 64) b.fills with
    | none => s
    | some (f, rest) =>
      let flash := regionOf s (f.line * 64) == .flash
      if flash && s.boot.busy then s
      else
        let f := if flash then { f with data := lineBytes s f.line } else f
        let s := setL2 c.val { b with fills := rest } s
        let ways := fillWays s c.val f.first.req
        let v := victims b f.line ways
        let s := if f.bad || f.noAlloc || ways.isEmpty || !l2On s c.val then s
          else allocate c.val f.line (v.getD (pick % v.length) 0) f.data s
        (f.first :: f.merged).foldl (fun t m => deliverFill c.val f e l1Way m t) s

/-! ### Stores (R74, R78) -/

/-- Bytes of a store put over those of a line. -/
def overlay (line : Nat) (old : List Byte) (a : Nat) (bs : List Byte) : List Byte :=
  (List.range 64).map fun i =>
    if a ≤ line * 64 + i ∧ line * 64 + i < a + bs.length then bs.getD (line * 64 + i - a) 0 else old.getD i 0

/-- A store's reservation effects: every other hart's reservation of the granule is lost (PRESUMED, log 23). -/
def breakRes (h line : Nat) (s : State) : State :=
  forTo (fun k t => if k ≠ h ∧ getRes t k = some line then setRes k none t else t) 64 s

/-- One line of a store in its cluster's caches: a hit line and a fill in flight take it, the storing core's L1 takes
it, and every other L1 data copy goes (R74, R78). -/
def storeLine (c k a : Nat) (bs : List Byte) (line : Nat) (s : State) : State :=
  let b := getL2 s c
  let s := setL2 c { b with
    lines := mapIf (fun x => x.line == line) (fun x => { x with data := overlay line x.data a bs }) b.lines
    fills := mapIf (fun f => f.line == line) (fun f => { f with data := overlay line f.data a bs }) b.fills } s
  let s := setL1 (16 * c + 2 * k + 1)
    (mapIf (fun x => x.line == line) (fun x => { x with data := overlay line x.data a bs }) (getL1 s (16 * c + 2 * k + 1))) s
  let s := forTo (fun j t => if j = k then t else l1Drop c (2 * j + 1) line t) 8 s
  breakRes (8 * c + k) (homeAddr s (line * 64) / 64) s

/-- What a store by an engine to memory meets, if it is refused (R71, R86, R90). -/
def storeRefused (s : State) (h a : Nat) : Option Nat :=
  if fenced s h a then some errIsolated
  else match regionOf s a with
    | .rom | .flash | .journal | .mirror => some errReadOnly
    | .unmapped => some errUnmapped
    | .fused => some errFused
    | _ => none

/-- The size code of an access (R103). -/
def sizeCode (n : Nat) : Nat := if n ≤ 1 then 0 else if n = 2 then 1 else if n ≤ 4 then 2 else 3

/-- The blocks of MRAM that an engine's store changes, as they were: until a fence of the hart completes, a power collapse may
leave them so (R91). -/
def noteUnfenced (h a n : Nat) (s : State) : State :=
  if a < mramBase ∨ n = 0 then s
  else
    let old := (List.range ((a + n - 1) / 64 - a / 64 + 1)).map fun i => (h, a / 64 + i, memBytes s ((a / 64 + i) * 64) 64)
    { s with unfenced := old.reverse ++ s.unfenced }

/-- An engine's store to DRAM or the firmware region of MRAM (R74, R78, R90). One that its own size does not align is performed
byte by byte (DESIGN CHOICE, log 84). -/
def engineStore (c k a : Nat) (bs : List Byte) (s : State) : State :=
  match storeRefused s (8 * c + k) a with
  | some e => accError (8 * c + k) a e (sizeCode bs.length) true s
  | none =>
    if regionOf s a = .io ∨ bs.length = 0 then s
    else
      let lines := ((List.range bs.length).map fun i => (a + i) / 64).eraseDups
      let s := memWrite (homeAddr s a) bs (noteUnfenced (8 * c + k) (homeAddr s a) bs.length s)
      lines.foldl (fun t l => storeLine c k a bs l t) s

/-! ### Hits and errors (R80, R81) -/

/-- How cluster and way stand in one payload word: the way in bits [15:8] (DESIGN CHOICE, log 24). -/
def cluWay (c w : Nat) : Nat := c + w * 256

/-- Retired ways of a cluster. -/
def retiredCount (s : State) (c : Nat) : Nat := countTo (regB s (aL2Retired c)) 16

/-- A way retired: its lines go, it takes no more fills, and the fault is complete at once (R81, R414). -/
def retireWay (c w : Nat) (s : State) : State :=
  let b := getL2 s c
  let s := setL2 c { b with lines := b.lines.filter fun x => x.way != w } s
  let s := setRegF (aL2Retired c) w 1 1 s
  faultEvent 0x41 c 2 (faultEvent 0x41 c 1 (record srcSys 0x22 [cluWay c w] s))

/-- An L2 error counts toward its way's retirement over a sliding second; a fifth retirement is a cluster fault
instead (R81). -/
def wayError (c w : Nat) (s : State) : State :=
  let b := getL2 s c
  let errs := (w, s.now) :: b.errs.filter fun e => decide (s.now - e.2 < 1000000000)
  let s := setL2 c { b with errs := errs } s
  if regB s (aL2Retired c) w then s
  else if (errs.filter fun e => e.1 == w).length < regF s (aL2Ctl c) 8 8 then s
  else if 4 ≤ retiredCount s c then clusterFault c 0x21 s
  else retireWay c w s

/-- A line leaves the L2. -/
def l2Drop (c line : Nat) (s : State) : State :=
  let b := getL2 s c
  setL2 c { b with lines := b.lines.filter fun x => x.line != line } s

/-- A lookup after its errors have been dealt with: a hit is delivered, a miss starts. -/
def lookup (c : Nat) (m : Miss) (e : MemErr) (way : Option (Fin 4)) (s : State) : State :=
  match l2Find s c (m.addr / 64) with
  | some x => touch c x.line x.way (deliver c m.req x.line x.data way s)
  | none => startMiss c m e s

/-- The errors of R80 that the lookup of a line meets: a correctable one is corrected, an uncorrectable one takes the line, and
a tag parity error takes the entry of its way. Each counts toward its way's retirement (R81). With the L2 disabled there is no
lookup, and data errors are met on a hit only. -/
def lookupErrors (c line : Nat) (e : L2Err) (s : State) : State :=
  if !l2On s c then s
  else match e, l2Find s c line with
    | .tag w, _ =>
      let b := getL2 s c
      let s := setL2 c { b with lines := b.lines.filter fun y => !(y.set == line % 1024 && y.way == w.val) } s
      wayError c w.val (incReg (aL2Tagpe c) s)
    | .correctable, some x => wayError c x.way (incWideBy (aL2CeLo c) 1 s)
    | .uncorrectable, some x =>
      wayError c x.way (record srcSys 0x21 [cluWay c x.way] (incReg (aL2Ue c) (l2Drop c line s)))
    | _, _ => s

/-- L2_HIT (R75, R80, R81): a lookup that finds the line, and the errors it meets; an L1 line with a parity error is refetched
(R74). Hits go on while the requester's own miss is outstanding (R77). -/
def execL2Hit (c : Fin 8) (r : Fin 16) (a : Nat) (size : Fin 4) (parity : Bool) (e : L2Err) (m : MemErr) (way : Option (Fin 4))
    (s : State) : Host.Outcome State Fault Refusal := actSev s fun s =>
  let line := a / 64
  if pmpFault s (hartOf c r) a (2 ^ size.val) (if r.val % 2 = 0 then pmpX else pmpR) then s
  else match readRefused s c.val r.val a with
    | some k => accError (hartOf c r) a k size.val false s
    | none =>
      match l2Find s c.val line with
      | none => s
      | some x =>
        let s := l1Parity c.val r.val line parity s
        match e with
        | .correctable =>
          lookupErrors c.val line e (touch c.val line x.way (deliver c.val r.val line x.data way s))
        | _ => lookup c.val { req := r.val, addr := a, size := size.val } m way (lookupErrors c.val line e s)

/-- A load from memory that no cache serves: a hart's uncached access, or the debug module's. One of the flash window waits while a
flash command is on the bus (R128); `e` is what the memory's code finds (R88, R89). -/
def readMem (source a size : Nat) (e : MemErr) (s : State) : State :=
  let n := 2 ^ size
  if regionOf s a = .flash ∧ s.boot.busy then
    { s with boot := { s.boot with waits := s.boot.waits ++ [(source, a - 0x08000000, n)] } }
  else
    let p := if 0x1000000000 ≤ a then readBlock (homeAddr s a / 64) e s else (s, false)
    if p.2 then accError source a errMem size false p.1 else emit (.readData source (leNat (physBytes s a n))) p.1

/-- L2_READ_MISS (R77, R80, R85, R86): a read that misses the L2, after a tag parity error its lookup may meet; a read of an
uncached region goes to memory by itself. An access the map or a fence refuses gets its error response. -/
def execL2ReadMiss (c : Fin 8) (r : Fin 16) (a : Nat) (size : Fin 4) (parity : Bool) (tag : Option (Fin 16)) (e : MemErr) (s : State) :
    Host.Outcome State Fault Refusal := actSev s fun s =>
  let s := l1Parity c.val r.val (a / 64) parity s
  if pmpFault s (hartOf c r) a (2 ^ size.val) (if r.val % 2 = 0 then pmpX else pmpR) then s
  else match readRefused s c.val r.val a with
    | some k => accError (hartOf c r) a k size.val false s
    | none =>
      if regionOf s a = .io then s
      else if !cacheable s a then (if a % 2 ^ size.val = 0 then readMem (hartOf c r) a size.val e s else s)
      else
        let s := match tag with | some w => lookupErrors c.val (a / 64) (.tag w) s | none => s
        if (l2Find s c.val (a / 64)).isSome then s else startMiss c.val { req := r.val, addr := a, size := size.val } e s

/-- L2_STORE (R78, R80): a store of 1, 2, 4 or 8 bytes, after the error its lookup meets; register stores are REGISTER_WRITE's. -/
def execL2Store (c k : Fin 8) (a : Nat) (bs : List Byte) (e : L2Err) (s : State) : Host.Outcome State Fault Refusal := actSev s fun s =>
  if pmpFault s (8 * c.val + k.val) a bs.length pmpW then s
  else
    let s := if (storeRefused s (8 * c.val + k.val) a).isNone && cacheable s a then lookupErrors c.val (a / 64) e s else s
    engineStore c.val k.val a bs s

/-! ### Disable, enable, cache-block operations (R79, R82, R83) -/

/-- The fields of L2_CTL that are written (R103). -/
def l2CtlFields : List Fld := [⟨0, 1, .rw, fun _ => true⟩, ⟨8, 8, .rw, fun v => v != 0⟩]

/-- A write to L2_CTL: disabling makes fills in flight deliver without allocating and invalidates every line; ENABLED
follows (R82). -/
def writeL2Ctl (c v : Nat) (s : State) : State :=
  let s := writeFields (aL2Ctl c) l2CtlFields v s
  let on := regB s (aL2Ctl c) 0
  let s := setRegF (aL2Ctl c) 1 1 (bnat on) s
  if on then s
  else
    let b := getL2 s c
    setL2 c { b with lines := [], fills := b.fills.map fun f => { f with noAlloc := true } } s

/-- L2_DISABLE (R82). -/
def execL2Disable (c : Fin 8) (s : State) : Host.Outcome State Fault Refusal := act s fun s =>
  writeL2Ctl c.val (setBits (reg s (aL2Ctl c.val)) 0 1 0) s

/-- L2_ENABLE (R82). -/
def execL2Enable (c : Fin 8) (s : State) : Host.Outcome State Fault Refusal := act s fun s =>
  writeL2Ctl c.val (setBits (reg s (aL2Ctl c.val)) 0 1 1) s

/-- A cluster's cached copies of a line invalidated; a fill in flight delivers without allocating (R79, R84). -/
def invalidate (c line : Nat) (s : State) : State :=
  let s := l2Drop c line s
  let b := getL2 s c
  let s := setL2 c { b with fills := mapIf (fun f => f.line == line) (fun f => { f with noAlloc := true }) b.fills } s
  forTo (fun r t => l1Drop c r line t) 16 s

/-- CBO_INVAL (R79, R83): cbo.inval or cbo.flush. -/
def execCboInval (c : Fin 8) (a : Nat) (s : State) : Host.Outcome State Fault Refusal := act s (invalidate c.val (a / 64))

/-- CBO_CLEAN (R74, R83, R91): every earlier store of the hart has reached memory and is durable; no line changes. `fence w,w`
does the same, and `fence.i`, which the table gives no row of its own, makes the hart's fetches observe stores: its
instruction cache starts empty (log 85). -/
def execCboClean (h : Fin 64) (_a : Nat) (op : FenceOp) (s : State) : Host.Outcome State Fault Refusal := act s fun s =>
  match op with
  | .fenceI => setL1 (16 * (h.val / 8) + 2 * (h.val % 8)) [] s
  | _ => { s with unfenced := s.unfenced.filter fun e => e.1 != h.val }

/-! ### Atomic operations (R84) -/

/-- The value an atomic operation stores (the A extension of R69). -/
def amoValue (op : AmoOp) (w old v : Nat) : Nat :=
  match op with
  | .swap => v
  | .add => (old + v) % 2 ^ w
  | .xor => Nat.xor old v
  | .and => Nat.land old v
  | .or => Nat.lor old v
  | .min => if sgn w old ≤ sgn w v then old else v
  | .max => if sgn w old ≤ sgn w v then v else old
  | .minu => min old v
  | .maxu => max old v
  | .lr => old
  | .sc => v

/-- What an atomic operation meets, if it is refused (R71, R84, R86, R90). -/
def atomicRefused (s : State) (h a : Nat) (reads : Bool) : Option Nat :=
  if fenced s h a then some errIsolated
  else match regionOf s a with
    | .rom | .flash | .io => some errAtomic
    | .fused => some errFused
    | .journal | .mirror => if reads then none else some errReadOnly
    | .unmapped => some errUnmapped
    | _ => none

/-- What an atomic operation's store leaves unfenced (R91). -/
def atomicWrite (h home : Nat) (bs : List Byte) (s : State) : State :=
  breakRes h (home / 64) (memWrite home bs (noteUnfenced h home bs.length s))

/-- ATOMIC_OPERATION (R84): performed at the memory controller, after the executing cluster's copies of the line have
been invalidated. LR reserves a 64-byte granule; SC stores, and answers 0, while the reservation stands. A misaligned one never
leaves the core, and SYS_ACCERR_INFO.WRITE reads 1 for an AMO or SC and 0 for an LR (DESIGN CHOICE, log 23). -/
def execAtomicOperation (h : Fin 64) (op : AmoOp) (wide : Bool) (a v : Nat) (e : MemErr) (s : State) :
    Host.Outcome State Fault Refusal := act s fun s =>
  let n := if wide then 8 else 4
  if pmpFault s h.val a n pmpR || (op != .lr && pmpFault s h.val a n pmpW) then s
  else match atomicRefused s h.val a (op == .lr) with
  | some k => accError h.val a k (sizeCode n) (op != .lr) s
  | none =>
    if a % n ≠ 0 then s
    else
      let home := homeAddr s a
      let s := invalidate (h.val / 8) (a / 64) s
      let p := if op = .sc then (s, false) else readBlock (home / 64) e s
      let s := p.1
      if p.2 then accError h.val a errMem (sizeCode n) (op != .lr) s
      else
        let old := leNat (physBytes s a n)
        match op with
        | .lr => emit (.atomic h.val old) (setRes h.val (some (home / 64)) s)
        | .sc =>
          let ok := getRes s h.val == some (home / 64)
          let s := setRes h.val none s
          if ok then emit (.atomic h.val 0) (atomicWrite h.val home (leBytes n v) s) else emit (.atomic h.val 1) s
        | _ => emit (.atomic h.val old) (atomicWrite h.val home (leBytes n (amoValue op (8 * n) old (v % 2 ^ (8 * n)))) s)

end Sys2Proof.Machine
end

