-- ==== Sys2Proof/Machine/Ldpc.lean ====
section
/-! DEFINITION. The LDPC code: its parity-check matrix as shifted identities, the systematic encoder, and the syndrome
(R241, R242, R274, R275). -/

namespace Sys2Proof.Machine

/-! ### H (R275) -/

/-- The shift of block (r, b) of H; none for a zero block. -/
def hShift (r b : Nat) : Option Nat :=
  let v := (Config.ldpcH (r * 144 + b)).toNat
  if v = 0xFFFF then none else some (v % 256)

/-- 256 bits through a shifted identity: bit i of the product is bit (i + s) mod 256. -/
def rotDown (s x : Nat) : Nat := x % 2 ^ 256 / 2 ^ s + x % 2 ^ s * 2 ^ (256 - s)

/-- 256 bits back through a shifted identity. -/
def rotUp (s x : Nat) : Nat := rotDown ((256 - s) % 256) x

/-- What block (r, b) of H makes of 256 bits. -/
def hTerm (r b x : Nat) : Nat := match hShift r b with | none => 0 | some s => rotDown s x

/-- A block row of H times blocks of 256 bits, the first in column `b`. -/
def hRow (r : Nat) : Nat → List Nat → Nat
  | _, [] => 0
  | b, x :: xs => Nat.xor (hTerm r b x) (hRow r (b + 1) xs)

/-! ### Codewords (R241, R274) -/

/-- Bytes as blocks of 256 bits, bit i of a block being bit (i mod 8) of its byte i / 8. -/
def blocksOf : Nat → List Byte → List Nat
  | 0, _ => []
  | k + 1, bs => leNat (padTo 32 bs) :: blocksOf k (bs.drop 32)

/-- The parity blocks of rows 0 to `k` − 1, by recursion over the block rows: the parity part is dual-diagonal, with its shifted
identities at columns 129 + r and, below row 0, 128 + r (DEDUCED, log 117). -/
def parityRows (info : List Nat) : Nat → List Nat
  | 0 => []
  | r + 1 =>
    let before := parityRows info r
    let below := if r = 0 then 0 else hTerm r (128 + r) (before.getLastD 0)
    before ++ [match hShift r (129 + r) with
      | some s => rotUp s (Nat.xor (hRow r 0 info) below)
      | none => 0]

/-- The 480 parity bytes of information bytes. -/
def parityBytes (info : List Byte) : List Byte := (parityRows (blocksOf 129 info) 15).flatMap (leBytes 32)

/-- The codeword of information bytes: the code is systematic (R274). -/
def codeword (info : List Byte) : List Byte := padTo 4128 info ++ parityBytes (padTo 4128 info)

/-- The syndrome of 4,608 bytes is zero: H · c = 0 (R25, R274). -/
def syndromeZero (cw : List Byte) : Bool :=
  let bs := blocksOf 144 cw
  (List.range 15).all fun r => hRow r 0 bs == 0

/-- Bits as bytes, bit i being bit (i mod 8) of byte i / 8. -/
def bytesOfBits : Nat → List Bool → List Byte
  | 0, _ => []
  | k + 1, l => BitVec.ofNat 8 ((List.range 8).foldl (fun v i => v + bnat (l.getD i false) * 2 ^ i) 0) :: bytesOfBits k (l.drop 8)

end Sys2Proof.Machine
end

