-- ==== Sys2Proof/Machine/Detect.lean ====
section
/-! DEFINITION. From samples to soft bits: the stages of a lane in their order, what erased values do in each, the sync search
on hard bits, and a decoder's pass over a codeword. The arithmetic that the spec leaves to silicon stands in `Config` (R234–R238,
R246, R249, R256, R257, R286, log 116). -/

namespace Sys2Proof.Machine

/-! ### Parameter sets (R244) -/

/-- The sample rate of a RATE code, in 10 MS/s (R206). -/
def rateMs (r : Nat) : Nat := [640, 560, 480, 400].getD r 640

def setRate (p : List Byte) : Nat := fieldN p 0 1
def setRatio (p : List Byte) : Nat := fieldN p 2 2
def setWin (p : List Byte) : Nat := fieldN p 4 1
def setCand (p : List Byte) : Nat := fieldN p 5 1
def setThr (p : List Byte) : Nat := fieldN p 6 1
def setIterMax (p : List Byte) : Nat := fieldN p 7 1

/-- A coefficient of a set, Q2.14. -/
def setQ (p : List Byte) (off : Nat) : Int := sgn 16 (fieldN p off 2)

/-- TARGET, and the taps of EQ_AB, EQ_A1, EQ_B1 and EQ_V1 in their order. -/
def setTarget (p : List Byte) : List Int := (List.range 5).map fun i => setQ p (0x16 + 2 * i)
def setTaps (p : List Byte) : List Int := (List.range 60).map fun i => setQ p (0x20 + 2 * i)

/-- VFY_LAG of a write set (R281). -/
def wsLag (w : List Byte) : Nat := fieldN w 0x0A 2

/-! ### Sector formats (R239) -/

abbrev sm0 : Nat := 0xE41D7A3B96
abbrev sm1 : Nat := 0x1BE285C469

/-- The preamble of fragment `j` in channel bits, and its sync mark. -/
def preambleBits (j : Nat) : Nat := if j = 0 then 192 else 96
def markOfFrag (j : Nat) : Nat := if j = 0 then sm0 else sm1

/-! ### The front end (R234, R249) -/

/-- The samples a channel bit takes, in 2^-24 of a sample (R235). -/
def nominalFreq (p : List Byte) : Int := ((2 ^ 39 / max 1 (setRatio p) : Nat) : Int)

/-- A path seeded by a set. -/
def seedHold (p : List Byte) (r : Nat) : Hold :=
  let v := Config.frontSeed p r
  { dc := v.1, gain := v.2.1, phase := v.2.2, freq := nominalFreq p }

/-- The front end at the start of an operation: the set's seeds and its taps. -/
def seedFront (p : List Byte) : Front := { a := seedHold p 0, b := seedHold p 1, v := seedHold p 2, taps := setTaps p }

/-- DC restore and gain: each sample scaled; the loops do not move on erased ones (R236). -/
def gainLoop (p : List Byte) : Int × Int → List (Option Int) → List (Option Int) × (Int × Int)
  | h, [] => ([], h)
  | h, none :: xs => let r := gainLoop p h xs; (none :: r.1, r.2)
  | h, some v :: xs => let r := gainLoop p (Config.gainStep p h v) xs; (some (Config.scaled h.1 h.2 v) :: r.1, r.2)

/-- MRA correction: MRA × sample² subtracted, exactly, in 2^-30 of a sample unit. -/
def mraCorrect (mra v : Int) : Int := v * 2 ^ 22 - mra * v * v

/-- The value interpolated at a place: erased where any sample it uses is erased or has not come (R236). -/
def interpolate (xs : List (Option Int)) (phase : Int) : Option Int :=
  let i := phase / 2 ^ 24
  if i < (Config.interpBefore : Int) then none
  else
    let lo := i.toNat - Config.interpBefore
    let used := (xs.drop lo).take (Config.interpBefore + Config.interpAfter + 1)
    if used.length = Config.interpBefore + Config.interpAfter + 1 ∧ used.all (·.isSome) then
      some (Config.interpolated (phase % 2 ^ 24) (used.map (·.getD 0)))
    else none

/-- Timing recovery: one value for each of `k` channel bits. The second-order loop moves by TR_KP and TR_KI times the error, stays
within 1 % of the set's bit rate, and does not move on erased values (R234–R236). -/
def timingLoop (p : List Byte) (xs : List (Option Int)) : Nat → Int × Int → Int → List (Option Int) × (Int × Int)
  | 0, h, _ => ([], h)
  | k + 1, (phase, freq), prev =>
    let v := interpolate xs phase
    let e := match v with | some x => Config.timingError prev x | none => 0
    let nom := nominalFreq p
    let f := clampI (nom - nom / 100) (nom + nom / 100) (freq + setQ p 0x12 * e / 2 ^ 14)
    let r := timingLoop p xs k (phase + f + setQ p 0x10 * e / 2 ^ 14, f) (v.getD prev)
    (v :: r.1, r.2)

/-- The first three stages of a reader's path over a fragment: bit-rate values, and what the path holds after it. With a preamble
found, gain and timing are acquired on it; with none, the path goes on with what it held (R249). -/
def readerBits (p : List Byte) (r : Nat) (found : Bool) (h : Hold) (xs : List (Option Int)) (k : Nat) : List (Option Int) × Hold :=
  let h := if found then
      let v := Config.acquired p r xs (h.dc, h.gain, h.phase)
      { h with dc := v.1, gain := v.2.1, phase := v.2.2 }
    else h
  let g := gainLoop p (h.dc, h.gain) xs
  let t := timingLoop p (g.1.map (Option.map (mraCorrect (setQ p (0x0A + 2 * r))))) k (h.phase % 2 ^ 24, h.freq) 0
  (t.1, { dc := g.2.1, gain := g.2.2, phase := t.2.1 % 2 ^ 24, freq := t.2.2 })

/-! ### The equalizer (R234, R236, R237) -/

/-- The path that equalizes: both readers, one alone, or the verify reader. -/
inductive EqPath where
  | both | onlyA | onlyB | verify
  deriving DecidableEq, Repr

/-- Twelve taps on a reader's values at bit `k`. -/
def fir (taps : List Int) (w : List (Option Int)) : Int :=
  if w.all (·.isSome) then (List.zipWith (fun t v => t * v.getD 0) taps w).sum else Config.firErased taps w

/-- The twelve values of a reader that the taps stand on at bit `k`. -/
def eqWindow (v : List (Option Int)) (k : Nat) : List (Option Int) :=
  (List.range 12).map fun i => if i ≤ k + Config.eqPlace then v.getD (k + Config.eqPlace - i) none else none

/-- The equalized value of bit `k`: where one reader's value is erased and the other's is not, the other's single-reader path gives
it; where both are, there is none (R236). -/
def equalOne (e : EqPath) (taps : List Int) (a b : List (Option Int)) (k : Nat) : Option Int :=
  let t := fun (i : Nat) => (taps.drop i).take 12
  let wa := eqWindow a k
  let wb := eqWindow b k
  match e, a.getD k none, b.getD k none with
  | .both, some _, some _ => some (fir (t 0) wa + fir (t 12) wb)
  | .both, some _, none => some (fir (t 24) wa)
  | .both, none, some _ => some (fir (t 36) wb)
  | .onlyA, some _, _ => some (fir (t 24) wa)
  | .onlyB, _, some _ => some (fir (t 36) wb)
  | .verify, some _, _ => some (fir (t 48) wa)
  | _, _, _ => none

/-- `k` equalized values from bit `i` on, and the taps as adapted: with LMS_STEP other than 0 they move on every value that is not
erased (R234, R236). -/
def equalize (p : List Byte) (e : EqPath) (a b : List (Option Int)) : Nat → Nat → List Int → List (Option Int) × List Int
  | 0, _, taps => ([], taps)
  | k + 1, i, taps =>
    let y := equalOne e taps a b i
    let step := fieldN p 0x14 1
    let taps := match y with
      | some v => if step = 0 then taps else Config.lmsTaps step (setTarget p) taps (eqWindow a i) (eqWindow b i) v
      | none => taps
    let r := equalize p e a b k (i + 1) taps
    (y :: r.1, r.2)

/-! ### Fragments and sectors -/

/-- Channel bits before a fragment's sync mark: its preamble, and VFY_LAG more at the verify reader (R239, R286). -/
def markPlace (e : EqPath) (w : List Byte) (j : Nat) : Nat :=
  preambleBits j + match e with | .verify => wsLag w | _ => 0

/-- Channel bits that a fragment's search and data can reach. -/
def fragReach (e : EqPath) (w : List Byte) (j len : Nat) : Nat := markPlace e w j + 40 + 64 * len + 15

/-- The samples of a sector from the start of fragment `j` on. -/
def fragSamples (x : Sector) (j : Nat) : List (Option Int) × List (Option Int) :=
  let st := x.starts.getD j (0, 0)
  (x.a.drop st.1, x.b.drop st.2)

/-- A preamble is found at the start of fragment `j` (R234, R249). -/
def preambleAt (p : List Byte) (x : Sector) (j : Nat) : Bool :=
  let m := fragSamples x j
  Config.preambleSeen p m.1 m.2

/-- The equalized values of one fragment, and the front end after it. -/
def fragValues (p w : List Byte) (e : EqPath) (x : Sector) (j len : Nat) (f : Front) : List (Option Int) × Front :=
  let m := fragSamples x j
  let k := fragReach e w j len
  let found := preambleAt p x j
  if e = .verify then
    let v := readerBits p 2 found f.v m.1 k
    let y := equalize p e v.1 [] k 0 f.taps
    (y.1, { f with v := v.2, taps := y.2 })
  else
    let a := readerBits p 0 found f.a m.1 k
    let b := readerBits p 1 found f.b m.2 k
    let y := equalize p e a.1 b.1 k 0 f.taps
    (y.1, { f with a := a.2, b := b.2, taps := y.2 })

/-- The equalized values of the fragments of a sector from the `j`-th on, in order, and the front end after them. -/
def sectorValues (p w : List Byte) (e : EqPath) (x : Sector) : Nat → List (Nat × Nat) → Front → List (List (Option Int)) × Front
  | _, [], f => ([], f)
  | j, fr :: rest, f =>
    let v := fragValues p w e x j fr.2 f
    let r := sectorValues p w e x (j + 1) rest v.2
    (v.1 :: r.1, r.2)

/-- The equalized values of a sector, by fragment. -/
def valuesOf (p w : List Byte) (e : EqPath) (x : Sector) : List (List (Option Int)) := (sectorValues p w e x 0 x.frags x.front).1

/-- The front end after a sector. -/
def frontAfter (p w : List Byte) (e : EqPath) (x : Sector) : Front := (sectorValues p w e x 0 x.frags x.front).2

/-! ### The sync search (R246) -/

/-- The hard bit at a place; none where the value is erased. -/
def hardAt (p : List Byte) (z : List (Option Int)) (k : Nat) : Option Bool :=
  match z.getD k none with
  | some _ => some (Config.hardBit (setTarget p) z k)
  | none => none

/-- The number of the 40 hard bits that differ from a mark's pattern, sent from bit 39 down; an erased bit differs. -/
def markDistance (bits_ : Nat → Option Bool) (pattern : Nat) : Nat :=
  countTo (fun i => decide (bits_ i ≠ some (bit pattern (39 - i)))) 40

/-- The distance at each offset from −win to +win around a mark's expected place. -/
def windowDistances (p : List Byte) (z : List (Option Int)) (place win pattern : Nat) : List Nat :=
  (List.range (2 * win + 1)).map fun i => markDistance (fun k => hardAt p z (place + i + k - win)) pattern

/-- The mark distances of a sector, by fragment. -/
def sectorDistances (p w : List Byte) (e : EqPath) (win : Nat) (x : Sector) : List (List Nat) :=
  (valuesOf p w e x).zipIdx.map fun v => windowDistances p v.1 (markPlace e w v.2) win (markOfFrag v.2)

/-! ### Soft bits and a decoder's pass (R236, R238, R257) -/

/-- The equalized values of the codeword's bits at a candidate's offsets, none beyond what was read. -/
def codeValues (e : EqPath) (w : List Byte) (x : Sector) (vs : List (List (Option Int))) (offs : List Int) : List (Option Int) :=
  let l := x.frags.zipIdx.flatMap fun f =>
    let at_ := ((markPlace e w f.2 + 40 : Nat) : Int) + offs.getD f.2 0
    (List.range (64 * f.1.2)).map fun k => (vs.getD f.2 []).getD (at_.toNat + k) none
  (List.range 36864).map fun k => l.getD k none

/-- The LLRs of the soft detector, 6 bits each; 0 for a bit erased on both readers. -/
def softBits (p : List Byte) (z : List (Option Int)) (apriori : List Int) : List Int :=
  z.zipIdx.map fun v => match v.1 with
    | some _ => clampI (-32) 31 (Config.softBit (setTarget p) z apriori v.2)
    | none => 0

/-- What a pass leaves: the syndrome is zero, the codeword's bytes, and the extrinsic LLRs. -/
structure Pass where
  zero : Bool
  cw : List Byte
  ext : List Int
  deriving DecidableEq, Repr

/-- A decoder's part of a global iteration, which rests on nothing but the LLRs (R238, R257). -/
def garnet (llr : List Int) : Pass :=
  let r := Config.layered llr
  let cw := bytesOfBits 4608 r.1
  { zero := syndromeZero cw, cw, ext := r.2 }

/-- LLRs added bit by bit, held in `k` bits. -/
def addLlr (lo hi : Int) (x y : List Int) : List Int := (List.range 36864).map fun i => clampI lo hi (x.getD i 0 + y.getD i 0)

/-- LLRs with the sign turned where a codeword has a 1 (R262). -/
def flipLlr (v : List Int) (acc : List Byte) : List Int :=
  v.zipIdx.map fun e => if bit ((acc.getD (e.2 / 8) 0).toNat) (e.2 % 8) then -e.1 else e.1

/-- The hard decisions after a pass of the detector that differ from a codeword; erased bits differ (R287). -/
def hardErrors (z : List (Option Int)) (llr : List Int) (cw : List Byte) : Nat :=
  countTo (fun i => (z.getD i none).isNone || decide (llr.getD i 0 < 0) != bit ((cw.getD (i / 8) 0).toNat) (i % 8)) 36864

/-! ### LLRs and front ends as bytes (R265, R440) -/

def llrBytes (l : List Int) : List Byte := l.map fun v => BitVec.ofNat 8 (unsgn 8 v)
def bytesLlr (b : List Byte) : List Int := b.map fun v => sgn 8 v.toNat

/-- A front end as the numbers a capture entry holds, and back. -/
def frontInts (f : Front) : List Int :=
  [f.a.dc, f.a.gain, f.a.phase, f.a.freq, f.b.dc, f.b.gain, f.b.phase, f.b.freq, f.v.dc, f.v.gain, f.v.phase, f.v.freq] ++ f.taps

def intsFront (l : List Int) : Front :=
  let h := fun i => ({ dc := l.getD i 0, gain := l.getD (i + 1) 0, phase := l.getD (i + 2) 0, freq := l.getD (i + 3) 0 } : Hold)
  { a := h 0, b := h 4, v := h 8, taps := l.drop 12 }

end Sys2Proof.Machine
end

