-- ==== Sys2Proof/Machine/Hsl.lean ====
section
/-! DEFINITION. The Head Sample Link: upstream frames and their erasures, lane states, the safe line, control frames,
and the preamplifier at the other end (R199–R233, R122, R123). -/

namespace Sys2Proof.Machine

/-! ### Frames (R202–R208) -/

abbrev upMarker : Nat := 0x9E2B
abbrev downMarker : Nat := 0x61D4

/-- A good frame: its MARKER is at its slot and its CRC checks over header, payload and AUX (R204). -/
def frameGood (m : Nat) (f : LinkFrame) : Bool :=
  f.marker == m && (crc32c (leBytes 4 f.header ++ padTo 128 f.payload ++ leBytes 2 f.aux)).toNat == f.crc

/-- Line bits 0–1,087 of a frame: header, payload and CRC, the least significant bit first (R201, R202). -/
def lineBits (f : LinkFrame) : Nat := f.header % 2 ^ 32 + leNat (padTo 128 f.payload) * 2 ^ 32 + f.crc % 2 ^ 32 * 2 ^ 1056

/-- What a scrambler or a descrambler keeps of 1,088 line bits: the last 58 (R203). -/
def lineTail (line : Nat) : Nat := line / 2 ^ 1030 % 2 ^ 58

/-- The self-synchronizing descrambler of x⁵⁸ + x³⁹ + 1 over 1,088 line bits, from the 58 before them (R203). -/
def descramble (before line : Nat) : Nat :=
  let w := before % 2 ^ 58 + line % 2 ^ 1088 * 2 ^ 58
  Nat.xor (Nat.xor (w / 2 ^ 58) (w / 2 ^ 19)) w % 2 ^ 1088

/-- `k` groups of 39 bits scrambled: each bit is added to the line bits 39 and 58 before it (R203). -/
def scrambleGroups : Nat → Nat → Nat → Nat
  | 0, _, _ => 0
  | k + 1, before, data =>
    let c := Nat.xor (Nat.xor data (before / 2 ^ 19)) before % 2 ^ 39
    c + scrambleGroups k ((before + c * 2 ^ 58) / 2 ^ 39) (data / 2 ^ 39) * 2 ^ 39

/-- The scrambler over the 1,088 bits of a frame (R203). -/
def scramble (before data : Nat) : Nat := scrambleGroups 28 (before % 2 ^ 58) data % 2 ^ 1088

/-- A frame whose line bits 0–1,087 are given. -/
def ofLine (line : Nat) (f : LinkFrame) : LinkFrame :=
  { f with header := bits line 0 32, payload := leBytes 128 (bits line 32 1024), crc := bits line 1056 32 }

/-- The frame that a receiver finds in the one that stands on the line (R203). -/
def received (before : Nat) (f : LinkFrame) : LinkFrame := ofLine (descramble before (lineBits f)) f

/-- FSEQ, HEAD, PTYPE, RATE, DS_UP of an upstream header (R206). -/
def upFseq (f : LinkFrame) : Nat := bits f.header 0 8
def upHead (f : LinkFrame) : Nat := bits f.header 8 3
def upPtype (f : LinkFrame) : Nat := bits f.header 11 2
def upRate (f : LinkFrame) : Nat := bits f.header 13 2
def upDsUp (f : LinkFrame) : Bool := bit f.header 23

/-- A sample position of the cadence (R208). -/
def samplePos (rate fseq : Nat) : Bool := decide (fseq % 8 < 8 - rate)

/-- The samples of a payload; 0x80 is an erased sample (R207). -/
def payloadSamples (p : List Byte) : List (Option Int) :=
  (padTo 128 p).map fun b => if b.toNat = 0x80 then none else some (sgn 8 b.toNat)

def erasedCount (l : List (Option Int)) : Nat := (l.filter (·.isNone)).length

/-! ### Lanes (R222–R224) -/

def getLane (h : Hsl) (l : Nat) : UpLane := smGet (fun _ => {}) h.lanes l
def putLane (l : Nat) (v : UpLane) (h : Hsl) : Hsl := { h with lanes := smSet (fun _ => {}) h.lanes l v }

/-- A lane is UP. -/
def laneUp (s : State) (n l : Nat) : Bool := (getLane (getHsl s n) l).st == 3

/-- HSLn.D is UP. -/
def downUp (s : State) (n : Nat) : Bool := (getHsl s n).dSt == 3

/-- The lane whose clock is CLK_HSLn: the first that is UP, 3 for none (R224). -/
def clkSrc (s : State) (n : Nat) : Nat :=
  if laneUp s n 0 then 0 else if laneUp s n 1 then 1 else if laneUp s n 2 then 2 else 3

/-- The registers that an upstream clock's domain shows: its present ones while CLK_HSLn runs, and the last crossed ones while
it is stopped (R23, R224). -/
def upView (s : State) (n : Nat) : State :=
  if clkSrc s n != 3 then s
  else
    let c := (getCrossed s (2 + n)).getD {}
    { s with regs := c.regs, wide := c.wide }

/-- The addresses of a group's registers that cross from CLK_HSLn (R232). The holding registers of high words do not. -/
def fromUp (n a : Nat) : Bool :=
  a == aHslPaStat n || a == aHslPaSense n ||
    (decide (aUpCrcLo n 0 ≤ a) && decide (a < aDnFramesLo n) && a % 0x20 != 4 && a % 0x20 != 0xC)

/-- CLK_HSLn stops: what its domain shows from then on is what it shows now (R23). -/
def upFreeze (n : Nat) (s : State) : State :=
  setCrossed (2 + n) (some { regs := s.regs.filter fun e => fromUp n e.1, wide := s.wide.filter fun e => fromUp n e.1 }) s

/-! ### PAn_MGT and the safe state (R225, R226) -/

/-- The cluster of causes by which the controller pulls PAn_MGT low (R226, R296). -/
def mgtLow (s : State) (n : Nat) : Bool :=
  let h := getHsl s n
  regB s (aHslCtl n) 2 || h.lanesPull || h.failPull || h.shockPull

/-- A cause of the preamplifier's safe state holds (R225). -/
def safeCause (s : State) (n : Nat) : Bool :=
  let p := getPre s n
  !p.running || (getHsl s n).dSt == 0 || mgtLow s n || p.safeCmd || !p.dsUp || p.training || p.faults != 0

/-- What a preamplifier drives: the selected head alone, its assist element undriven in the safe state, and its heater off while
the preamplifier is in reset (R214, R225). -/
def preDrive (p : Pre) : Nat × Nat × Nat :=
  (p.head, if p.assistEn && !p.safe then p.assist else 0, if p.heaterEn && p.running then p.heater else 0)

/-- A change of what is driven. -/
def preApply (n : Nat) (s : State) : State :=
  let d := preDrive (getPre s n)
  if (getPre s n).driven = d then s else emit (.driven n d.1 d.2.1 d.2.2) (setPre n { getPre s n with driven := d } s)

/-- The preamplifier enters the safe state while a cause holds: write current off, FIFO empty, assist undriven (R225). -/
def preSafe (n : Nat) (s : State) : State :=
  preApply n (if safeCause s n then setPre n { getPre s n with safe := true, fifo := [], emitting := false } s else s)

/-- HW_SAFE follows the line; each change from 0 to 1 is counted once (R226). -/
def mgtUpdate (n : Nat) (s : State) : State :=
  let h := getHsl s n
  let low := mgtLow s n
  let s := if low && !h.hwSafe then incReg (aDnSafe n) s else s
  preSafe n (setHsl n { h with hwSafe := low } s)

/-! ### Control frames sent by the controller (R218, R219, R221) -/

/-- The four AUX units of a message (R218). -/
def auxUnits (msg : Nat) : List Nat :=
  [bits msg 0 14 + 0x4000, bits msg 14 14 + 0x8000, bits msg 28 14 + 0x8000, bits msg 42 14 + 0x8000]

/-- A request message (R219). -/
def reqMsg (op tag reg data : Nat) : Nat := op % 8 + tag % 64 * 8 + reg % 1024 * 512 + data % 2 ^ 32 * 2 ^ 19

/-- The message of an access. -/
def cfMsg (r : CfReq) (tag : Nat) : Nat := reqMsg (if r.write then 2 else 1) tag r.reg (if r.write then r.data else 0)

/-- A SAFE control frame sent at a power failure wherever HSLn.D is UP, and PAn_MGT pulled (R226). -/
def failSafe (n : Nat) (s : State) : State :=
  let h := getHsl s n
  let h := if h.dSt = 3 then { h with auxOut := h.auxOut ++ auxUnits (reqMsg 3 h.tag 0 1), tag := (h.tag + 1) % 64 } else h
  mgtUpdate n (setHsl n { h with failPull := true, writeEn := false } s)

/-! ### Receiving control frames (R205, R218) -/

/-- An AUX unit taken: a control frame is its first unit and the three continuations directly behind it. Answers the
message when it is whole. -/
def takeUnit (a : AuxIn) (fseq unit : Nat) : AuxIn × Option Nat :=
  let next := match a.fseq with | some f => (f + 1) % 256 == fseq | none => false
  let a := if next then a else { a with count := 0, bits := 0 }
  let a := { a with fseq := some fseq }
  match unit / 0x4000 % 4 with
  | 1 => ({ a with bits := unit % 0x4000, count := 1 }, none)
  | 2 =>
    if a.count = 0 then (a, none)
    else
      let b := a.bits + unit % 0x4000 * 2 ^ (14 * a.count)
      if a.count = 3 then ({ a with bits := 0, count := 0 }, some b) else ({ a with bits := b, count := a.count + 1 }, none)
  | 0 => ({ a with bits := 0, count := 0 }, none)
  | _ => (a, none)

/-- The AUX unit of the frames of one FSEQ: that of the first good one; none was good where it is lost (R205). -/
def upAux (fseq : Nat) (unit : Option Nat) (h : Hsl) : Hsl :=
  match unit with
  | none => h
  | some u =>
    let r := takeUnit h.auxIn fseq u
    { h with auxIn := r.1, inbox := match r.2 with | some m => h.inbox ++ [m] | none => h.inbox }

/-! ### Leaving and entering UP (R222, R226) -/

/-- HSLn.D leaves UP (R222). -/
def downLost (n : Nat) (s : State) : State :=
  let h := getHsl s n
  if h.dSt = 3 then incReg (aDnLoss n) (setHsl n { h with dSt := 4, auxOut := [], dsRun := 0 } s) else s

/-- An upstream lane has MARKER lock: it is in TRAIN or UP (R222). -/
def markerLock (h : Hsl) : Bool := (List.range 3).any fun l => (getLane h l).st == 2 || (getLane h l).st == 3

/-- What follows once a lane is not UP: the last one pulls PAn_MGT, and with no MARKER lock left HSLn.D is lost. -/
def lanesChanged (n : Nat) (was : Bool) (s : State) : State :=
  let h := getHsl s n
  let some_ := laneUp s n 0 || laneUp s n 1 || laneUp s n 2
  let h := if some_ then { h with lanesPull := false }
           else { h with lanesPull := h.lanesPull || was, skew := [], passed := none }
  let s := setHsl n h s
  let s := if markerLock h then s else downLost n s
  mgtUpdate n (if was && !some_ then upFreeze n s else s)

/-- Any upstream lane is UP. -/
def anyUp (s : State) (n : Nat) : Bool := clkSrc s n != 3

/-- A lane's state changed, with what follows. -/
def setLaneSt (n l st : Nat) (s : State) : State :=
  let was := anyUp s n
  let h := getHsl s n
  let x := getLane h l
  let x := if x.st = 3 ∧ st ≠ 3 then { x with samples := [], resume := true } else x
  lanesChanged n was (setHsl n (putLane l { x with st := st, noMark := 0, errRun := 0, train := 0, markRun := 0 } h) s)

/-! ### UPSTREAM_FRAME (R206–R211) -/

/-- What a frame of a lane that is UP delivers: the samples, none for erased ones (R210). -/
def delivered (x : UpLane) (f : LinkFrame) : List (Option Int) :=
  if frameGood upMarker f then (if upPtype f = 0 then payloadSamples f.payload else [])
  else if (x.ptype = 0 ∨ x.ptype = 1) ∧ samplePos x.rate ((x.fseq + 1) % 256) then List.replicate 128 none else []

/-- Samples lost in a full receive FIFO are delivered erased (R211). -/
def withDrops (k : Nat) (l : List (Option Int)) : List (Option Int) := List.replicate (min k l.length) none ++ l.drop k

/-- The FSEQ of a frame of a lane, the PTYPE, RATE and HEAD of the last good one (R210). -/
def laneSeen (good : Bool) (f : LinkFrame) (x : UpLane) : UpLane :=
  if good then { x with fseq := upFseq f, ptype := upPtype f, rate := upRate f, head := upHead f }
  else { x with fseq := (x.fseq + 1) % 256 }

/-- How far the frames of an FSEQ stand behind the foremost lane's, or behind those passed on: none where another lane is not
UP, or where they are not behind. -/
def lagOf (s : State) (n l fseq : Nat) (ref : Option Nat) : Option Nat :=
  if (List.range 3).any (fun k => k != l && laneUp s n k) then
    match ref with
    | some r => let d := (r + 256 - fseq % 256) % 256; if d < 128 then some d else none
    | none => none
  else none

/-- The FSEQ of the foremost lane's last frame. -/
def foremost (h : Hsl) : Option Nat := (h.skew.getLast?.map (·.fseq)) <|> h.passed

/-- A frame more than 2 behind the foremost lane's lies beyond the deskew range: it counts as errored (R200). -/
def tooLate (s : State) (n l fseq : Nat) : Bool :=
  match lagOf s n l fseq (foremost (getHsl s n)) with | some d => decide (2 < d) | none => false

/-- DS_UP of a frame of a lane with MARKER lock (R222): HSLn.D becomes UP after 8 good ones in a row that show 1, and leaves UP
on one that shows 0. -/
def dsSeen (n : Nat) (good : Bool) (f : LinkFrame) (s : State) : State :=
  let h := getHsl s n
  if !good then setHsl n { h with dsRun := 0 } s
  else if !upDsUp f then downLost n (setHsl n { h with dsRun := 0 } s)
  else if (h.dSt = 2 ∨ h.dSt = 4) ∧ 8 ≤ h.dsRun + 1 then setHsl n { h with dsRun := 0, dSt := 3 } s
  else setHsl n { h with dsRun := Nat.min 8 (h.dsRun + 1) } s

/-- What a lane brings into the deskew buffer, under its FSEQ, and its AUX unit where it is good (R200, R205). -/
def putSkew (fseq : Nat) (g : Brought) (aux : Option Nat) : List Skew → List Skew
  | [] => [{ fseq, got := [g], aux }]
  | b :: r =>
    if b.fseq = fseq then { b with got := b.got ++ [g], aux := b.aux <|> aux } :: r
    else b :: putSkew fseq g aux r

/-- The samples erased in a lane's place where it brings no frame of an FSEQ (R200, R210). -/
def missed (x : UpLane) (fseq : Nat) : List (Option Int) :=
  if (x.ptype = 0 ∨ x.ptype = 1) ∧ samplePos x.rate fseq then List.replicate 128 none else []

/-- A frame of a lane that is UP: counted, its samples and its AUX unit brought into the deskew buffer, DS_UP followed. The
frames whose FSEQ has been passed on already bring nothing. A receive FIFO loses the first samples of a frame: `drops` are those
that the channel lane's and the two islands' lose (R200, R204–R211). -/
def upFrame (n l : Nat) (f : LinkFrame) (drops : Nat × Nat × Nat) (s : State) : State :=
  let h := getHsl s n
  let x := getLane h l
  let good := frameGood upMarker f && !tooLate s n l (upFseq f)
  let fs := if good then upFseq f else (x.fseq + 1) % 256
  let gone := (lagOf s n l fs h.passed).isSome
  let raw := if gone then [] else if good then delivered x f else missed x fs
  let most := Nat.max drops.1 (Nat.max drops.2.1 drops.2.2)
  let lost := min drops.1 raw.length + min drops.2.1 raw.length + min drops.2.2 raw.length
  let out := withDrops drops.1 raw
  let s := if f.marker = upMarker then s else incReg (aUpMarker n l) s
  let s := if good then s else incWideBy (aUpCrcLo n l) 1 s
  let s := incRegBy (aUpDrop n l) lost (incWideBy (aUpErasedLo n l) (erasedCount (withDrops most raw)) s)
  let y := laneSeen good f x
  let y := { y with noMark := if f.marker = upMarker then 0 else y.noMark + 1, errRun := if good then 0 else y.errRun + 1 }
  let y := if out.isEmpty then y else { y with samples := out, resume := false }
  let h := putLane l y h
  let g : Brought := { lane := l, resume := x.resume && !out.isEmpty, chan := out, islA := withDrops drops.2.1 raw,
                       islB := withDrops drops.2.2 raw, rate := y.rate, hsw := good && upPtype f == 0 && bit f.header 22 }
  let h := if gone then h else { h with skew := putSkew fs g (if good then some f.aux else none) h.skew }
  dsSeen n good f (setHsl n h s)

/-- A lane that is UP becomes LOST after 4 slots in a row without MARKER or 16 errored frames in a row (R222). -/
def lossDue (x : UpLane) : Bool := x.st == 3 && (decide (4 ≤ x.noMark) || decide (16 ≤ x.errRun))

/-- A lane leaves UP as LOST (R222). -/
def upLost (n l : Nat) (s : State) : State := setLaneSt n l 4 (incReg (aUpLoss n l) s)

/-- A frame of a lane in TRAIN (R222): 1,024 good training frames in a row make it UP. -/
def trainFrame (n l : Nat) (f : LinkFrame) (s : State) : State :=
  let good := frameGood upMarker f
  let h := getHsl s n
  let x := laneSeen good f (getLane h l)
  let x := { x with train := if good && upPtype f == 3 then x.train + 1 else 0 }
  let s := setHsl n (putLane l x h) s
  let s := if good || clkSrc s n == 3 then s else incWideBy (aUpCrcLo n l) 1 s
  let s := dsSeen n good f s
  if 1024 ≤ x.train then setLaneSt n l 3 s else s

/-- A slot of a lane in ACQUIRE or LOST (R222): MARKER found 8 times in a row takes it to TRAIN. -/
def acquireFrame (n l : Nat) (f : LinkFrame) (s : State) : State :=
  let h := getHsl s n
  let k := if f.marker = upMarker then (getLane h l).markRun + 1 else 0
  if 8 ≤ k then setLaneSt n l 2 s else setHsl n (putLane l { getLane h l with markRun := k } h) s

/-! ### Lane events (R222) -/

/-- LANE_ACQUIRED. -/
def execLaneAcquired (n : Fin 4) (l : Fin 3) (s : State) : Host.Outcome State Fault Refusal := act s fun s =>
  let x := getLane (getHsl s n.val) l.val
  if x.st = 1 ∨ x.st = 4 then setLaneSt n.val l.val 2 s else s

/-- LANE_UP; lane 3 is HSLn.D, which needs an upstream lane with MARKER lock. The first sample after a lane returns is marked as
a resumption (R211, R222). -/
def execLaneUp (n : Fin 4) (l : Fin 4) (s : State) : Host.Outcome State Fault Refusal := act s fun s =>
  let h := getHsl s n.val
  if l.val = 3 then (if (h.dSt = 2 ∨ h.dSt = 4) ∧ markerLock h then setHsl n.val { h with dSt := 3 } s else s)
  else if (getLane h l.val).st = 2 then setLaneSt n.val l.val 3 s else s

/-! ### HSL_CTL (R222, R226, R227, R232) -/

/-- The preamplifier's reset: every register at its reset value; the element check of the wired heads begins when it
ends (R123, R230). -/
def preReset (n : Nat) (run : Bool) (s : State) : State :=
  let wired := bits (Config.preamp n 8) 0 4
  let stat := forTo (fun m v => if m < wired then setBits v (2 * m) 2 3 else v) 8 0
  setPre n { running := run, headstat := if run then stat else 0, faults := (getPre s n).faults, driven := (getPre s n).driven } s

/-- The fields of HSL_CTL. -/
def hslCtlFields : List Fld := [⟨0, 1, .rw, fun _ => true⟩, ⟨1, 1, .rw, fun _ => true⟩, ⟨2, 1, .rw, fun _ => true⟩,
  ⟨8, 3, .rw, fun _ => true⟩]

/-- One upstream receiver turned on or off (R222). -/
def rxChange (n l : Nat) (was is : Bool) (s : State) : State :=
  if was = is then s else setLaneSt n l (if is then 1 else 0) s

/-- A write to HSL_CTL. -/
def writeHslCtl (n v : Nat) (s : State) : State :=
  if !actPresent s n then s
  else
    let old := reg s (aHslCtl n)
    let s := writeFields (aHslCtl n) hslCtlFields v s
    let new := reg s (aHslCtl n)
    let on := fun r l => bit r 0 && bit r (8 + l)
    let h := getHsl s n
    let h := if bit old 0 && !bit new 0 then { h with dSt := 0, auxOut := [] }
             else if !bit old 0 && bit new 0 then { h with dSt := 2, dsRun := 0 } else h
    let s := setHsl n h s
    let s := forTo (fun l t => rxChange n l (on old l) (on new l) t) 3 s
    let s := if bit old 1 = bit new 1 then s else preReset n (bit new 1) s
    mgtUpdate n s

/-- PA_RUN. -/
def execPaRun (n : Fin 4) (on : Bool) (s : State) : Host.Outcome State Fault Refusal := act s fun s =>
  writeHslCtl n.val (setBits (reg s (aHslCtl n.val)) 1 1 (bnat on)) s

/-- MGT_SAFE. -/
def execMgtSafe (n : Fin 4) (on : Bool) (s : State) : Host.Outcome State Fault Refusal := act s fun s =>
  writeHslCtl n.val (setBits (reg s (aHslCtl n.val)) 2 1 (bnat on)) s

/-- PA_FAULT_N: the preamplifier's fault bits change, and its fault line with them (R227, R230). -/
def execPaFaultN (n : Fin 4) (faults : Fin 32) (s : State) : Host.Outcome State Fault Refusal := act s fun s =>
  let s := setPre n.val { getPre s n.val with faults := faults.val } s
  preSafe n.val (setHsl n.val { getHsl s n.val with paFault := faults.val != 0 } s)

/-- HSL_STATUS (R232). -/
def hslStatus (s : State) (n : Nat) : Nat :=
  let h := getHsl s n
  (getLane h 0).st + (getLane h 1).st * 8 + (getLane h 2).st * 64 + h.dSt * 512 + bnat h.paFault * 4096
    + bnat h.hwSafe * 8192 + bnat (regB (upView s n) (aHslPaStat n) 10) * 16384
    + bnat (regB (upView s n) (aHslPaStat n) 9) * 32768 + clkSrc s n * 65536

/-! ### Serving accesses (R221) -/

/-- CONTROL_REQUEST (R221): the next access of the group's queue is sent, unless its pair has already given it up. -/
def startRequest : Nat → Nat → State → State
  | 0, _, s => s
  | fuel + 1, n, s =>
    let h := getHsl s n
    match h.cur, h.queue with
    | none, r :: rest =>
      let s := setHsl n { h with queue := rest } s
      if r.dead then startRequest fuel n s
      else
        let c : CfCur := { req := r, tag := h.tag }
        setHsl n { h with queue := rest, cur := some c, tag := (h.tag + 1) % 64, auxOut := h.auxOut ++ auxUnits (cfMsg r h.tag) } s
    | _, _ => s

def execControlRequest (n : Fin 4) (s : State) : Host.Outcome State Fault Refusal := act s fun s =>
  if downUp s n.val then startRequest ((getHsl s n.val).queue.length) n.val s else s

/-- CONTROL_RESEND (R221): once, with the same TAG. -/
def execControlResend (n : Fin 4) (s : State) : Host.Outcome State Fault Refusal := act s fun s =>
  let h := getHsl s n.val
  match h.cur with
  | some c =>
    if c.resent || h.dSt != 3 then s
    else incRegF (aHslCfCount n.val) 0 16
      (setHsl n.val { h with cur := some { c with resent := true }, auxOut := h.auxOut ++ auxUnits (cfMsg c.req c.tag) } s)
  | none => s

/-- The first received message with an OP that a test accepts, and the group without it. -/
def takeMsg (h : Hsl) (p : Nat → Bool) : Option (Nat × Hsl) :=
  match takeFirst (fun m => p (m % 8)) h.inbox with
  | some (m, rest) => some (m, { h with inbox := rest })
  | none => none

/-- DATA of a message (R219). -/
def msgData (m : Nat) : Nat := bits m 19 32

/-! ### The preamplifier (R214–R220, R230) -/

/-- A writable register of the preamplifier: its reset value and the bits it implements (R230). -/
def preWritable (off : Nat) : Option (Nat × Nat) :=
  if 0x60 ≤ off ∧ off < 0x80 ∧ off % 4 = 0 then some (0x14, 0x73F)
  else if off = 0x88 ∨ off = 0x8C then some (0, 0x3FF)
  else if off = 0x90 then some (0, 0xF3F) else none

/-- A writable register's value. -/
def preReg (p : Pre) (off : Nat) : Nat := smGet (fun o => match preWritable o with | some r => r.1 | none => 0) p.regs off
def setPreReg (off v : Nat) (p : Pre) : Pre :=
  { p with regs := smSet (fun o => match preWritable o with | some r => r.1 | none => 0) p.regs off v }

/-- PA_STATUS (R230). -/
def preStatus (p : Pre) : Nat :=
  p.fifo.length / 2 % 512 + bnat p.wabort * 512 + bnat p.safe * 1024 + bnat p.limit * 2048 + p.faults % 32 * 4096

/-- A register that the preamplifier's maker fixes: its reserved bits read 0, its FIFO holds at least 512 symbols, and
writing starts at 256 (R122, R230). -/
def preFixed (n off : Nat) : Nat :=
  let v := Config.preamp n off
  if off = 4 ∨ off = 0x80 ∨ off = 0x84 then bits v 0 16
  else if off = 8 then bits v 0 6
  else if off = 0x94 then bits v 0 8
  else if off = 0x98 then max 512 (bits v 0 10) + 256 * 65536
  else bits v 0 32

/-- A register that only the preamplifier writes: its value, or none where there is no such register. PA_TEMP's is a
free value. -/
def preRead (p : Pre) (n off free : Nat) : Option Nat :=
  if off = 0xC then some p.headstat
  else if off = 0 ∨ off = 4 ∨ off = 8 then some (preFixed n off)
  else if 0x20 ≤ off ∧ off < 0x40 then some (smGet (fun _ => 0) p.elems ((off - 0x20) / 4))
  else if off = 0x40 then some (preStatus p)
  else if off = 0x44 then some (free % 4096)
  else if off = 0x4C then some p.crcErr
  else if off = 0x50 then some p.loss
  else if off = 0x54 then some p.waborts
  else if off = 0x48 ∨ off = 0x80 ∨ off = 0x84 ∨ off = 0x94 ∨ off = 0x98 then some (preFixed n off)
  else match preWritable off with
    | some _ => some (preReg p off)
    | none => none

/-- The preamplifier refuses a write in its present state (R220). -/
def preRefuses (p : Pre) (off : Nat) : Bool := p.writeEn && (off == 0x90 || off == 0x60 + p.head * 4)

/-- A reply made: it waits behind those made before it (R220). -/
def preReply (n op tag res data : Nat) (s : State) : State :=
  let m := op + tag * 8 + res * 512 + data % 2 ^ 32 * 2 ^ 19
  emit (.paReply n m) (setPre n { getPre s n with replies := (getPre s n).replies ++ [m] } s)

/-- PA_REQUEST (R219, R220): one request is answered with one reply of the same TAG. Requests of a reserved OP have no
answer. -/
def execPaRequest (n : Fin 4) (s : State) : Host.Outcome State Fault Refusal := act s fun s =>
  let p := getPre s n.val
  match p.inbox with
  | [] => s
  | m :: rest =>
    let p := { p with inbox := rest }
    let off := bits m 9 10 * 4
    let tag := bits m 3 6
    let reply := fun op res data => preReply n.val op tag res data
    if !p.running then s
    else match m % 8 with
      | 1 =>
        let f := fresh (setPre n.val p s)
        let s := if off = 0x44 then f.2 else setPre n.val p s
        match preRead p n.val off f.1 with
        | some v => reply 1 0 v s
        | none => reply 1 1 0 s
      | 2 =>
        match preWritable off with
        | some (_, mask) =>
          if preRefuses p off then reply 2 3 0 (setPre n.val p s)
          else reply 2 0 0 (setPre n.val (setPreReg off (Nat.land (msgData m) mask) p) s)
        | none =>
          let res := if (preRead p n.val off 0).isSome then 2 else 1
          reply 2 res 0 (setPre n.val p s)
      | 3 => reply 3 0 0 (preSafe n.val (setPre n.val { p with safeCmd := bit (msgData m) 0 } s))
      | _ => setPre n.val p s

/-- The demand block of a downstream payload: bits [1023:976] (R213). -/
def demandOf (f : LinkFrame) : Nat := leNat ((padTo 128 f.payload).drop 122)

/-- A downstream frame that the preamplifier takes as good (R204, R212, R213). -/
def downGood (f : LinkFrame) : Bool :=
  let t := bits f.header 8 2
  let k := bits f.header 13 7
  frameGood downMarker f && t != 2 && decide (k ≤ 122) && (t == 1 || k == 0) && (t == 3 || decide (bits (demandOf f) 24 24 ≤ 0xC00000))

/-- A write stream aborted: write current off and FIFO empty until the next WSTART (R216). -/
def preAbort (p : Pre) : Pre :=
  if p.wabort then { p with fifo := [], emitting := false }
  else { p with wabort := true, fifo := [], emitting := false, waborts := satAdd 32 p.waborts 1 }

/-- The downstream receiver goes down (R222, R223). -/
def preDown (p : Pre) : Pre :=
  if p.dsUp then { p with dsUp := false, trainRun := 0, heard := false, loss := satAdd 32 p.loss 1 } else p

/-- An errored downstream frame (R214, R216, R223): the last good demand is held. -/
def preErrored (f : LinkFrame) (p : Pre) : Pre :=
  let p := { p with crcErr := satAdd 32 p.crcErr 1, errRun := p.errRun + 1, trainRun := 0, auxIn := {},
                    markRun := if f.marker = downMarker then 0 else p.markRun + 1 }
  let p := if p.writeEn then preAbort p else p
  if 16 ≤ p.errRun ∨ 4 ≤ p.markRun then preDown p else p

/-- A write cell emitted: its level, whether write current flows in it, and its precompensation (R215). -/
def preCell (current : Bool) (symbol : Nat) : Bool × Bool × Nat := (bit symbol 0, current && bit symbol 1, bits symbol 2 3)

/-- The write current and the amplitude of its overshoot, µA: PA_WCUR, OVS as 10 at most (R279). -/
def preCurrent (p : Pre) : Nat × Nat :=
  let i := 5000 + 750 * bits (preReg p 0x90) 0 6
  (i, i / 10 * Nat.min 10 (bits (preReg p 0x90) 8 4))

/-- `k` write symbols leave the FIFO, in order: current flows where GATE and WRITE_EN are 1 and no cause of the safe state holds;
running dry aborts the stream (R215, R216). -/
def preEmit (n k : Nat) (s : State) : State :=
  let p := getPre s n
  if !p.emitting then s
  else
    let q := if k ≤ p.fifo.length then { p with fifo := p.fifo.drop k }
             else if p.writeEn then preAbort p else { p with fifo := [] }
    emit (.cells n (preCurrent p).1 (preCurrent p).2 ((p.fifo.take k).map (preCell (p.writeEn && !p.safe && !safeCause s n)))) (setPre n q s)

/-- A good demand block applied, with its clamps (R213, R214). -/
def preDemand (d : Nat) (p : Pre) : Pre :=
  let a := bits d 0 10
  let h := bits d 12 10
  let am := preReg p 0x88
  let hm := preReg p 0x8C
  { p with assist := min a am, assistEn := bit d 10, writeEn := bit d 11, heater := min h hm, heaterEn := bit d 22,
           wfreq := bits d 24 24, limit := p.limit || decide (am < a) || decide (hm < h) }

/-- The write symbols of a good write frame (R215, R216). -/
def preSymbols (n : Nat) (syms : List Nat) (p : Pre) : Pre :=
  if p.safe || p.wabort then p
  else
    let q := { p with fifo := p.fifo ++ syms }
    let q := { q with emitting := q.emitting || decide (256 ≤ q.fifo.length) }
    if max 512 (bits (Config.preamp n 0x98) 0 10) < q.fifo.length then (if q.writeEn then preAbort q else { q with fifo := [] }) else q

/-- The write symbols of a frame, in slot order (R213). -/
def symbolsIn (f : LinkFrame) : List Nat := ((padTo 128 f.payload).take (bits f.header 13 7)).map (·.toNat)

/-- The head and reader selection of a good frame. A HEAD change while WRITE_EN is 1 is ignored; any other begins now, and a
reader newly enabled shows it in its first sample frame (R206, R208, R212, R217). -/
def preSelect (hdr : Nat) (p : Pre) : Pre :=
  let m := bits hdr 10 3
  let p := if p.writeEn ∨ m = p.headTo then p else { p with headTo := m, switching := true, offSent := 0 }
  let new := (if bit hdr 24 && !p.abEn then 3 else 0) + (if bit hdr 25 && !p.vEn then 4 else 0)
  { p with abEn := bit hdr 24, vEn := bit hdr 25, rateTo := bits hdr 26 2, usUp := bits hdr 21 3, hsw := Nat.lor p.hsw new }

/-- A downstream frame taken, descrambled (R204, R212–R216, R223, R225). -/
def preTake (n : Nat) (f : LinkFrame) (s : State) : State :=
  let p := getPre s n
  if !downGood f then preSafe n (setPre n (preErrored f p) s)
  else
    let p := { p with errRun := 0, markRun := 0, heard := true }
    let r := takeUnit p.auxIn (bits f.header 0 8) f.aux
    let p := { p with auxIn := r.1, inbox := match r.2 with | some m => p.inbox ++ [m] | none => p.inbox }
    if bits f.header 8 2 = 3 then
      let p := { p with training := true, trainRun := p.trainRun + 1, usUp := bits f.header 21 3 }
      preSafe n (setPre n { p with dsUp := p.dsUp || decide (1024 ≤ p.trainRun) } s)
    else
      let p := preDemand (demandOf f) (preSelect f.header { p with training := false, trainRun := 0 })
      let s := setPre n p s
      let start := bit f.header 20
      let p := if start && !safeCause s n then { p with safe := false } else p
      let p := if start then { p with wabort := false, fifo := [], emitting := false } else p
      preSafe n (setPre n (if bits f.header 8 2 = 1 then preSymbols n (symbolsIn f) p else p) s)

/-! ### What the preamplifier sends (R205–R208, R217, R220, R223) -/

/-- A head change ends once the readers have settled, and after 100 reader-off frames at the latest; a rate change takes effect
at FSEQ modulo 8 = 0 (R208, R217, R229). -/
def preTurn (settled : Bool) (p : Pre) : Pre :=
  let p := if p.switching && (settled || decide (100 ≤ p.offSent)) then { p with head := p.headTo, switching := false, hsw := 7 }
           else if p.switching then { p with offSent := p.offSent + 1 } else p
  if p.upFseq % 8 = 0 ∧ p.rate ≠ p.rateTo then { p with rate := p.rateTo, hsw := 7 } else p

/-- PTYPE of the next frame of a lane: training where the controller does not show it UP, reader off where its reader is not
enabled or a head change runs, else a sample or a fill frame by the cadence (R206, R208, R217, R223). -/
def prePtype (p : Pre) (l : Nat) : Nat :=
  if !p.heard || !bit p.usUp l then 3
  else if p.switching || !(if l = 2 then p.vEn else p.abEn) then 2
  else if samplePos p.rate p.upFseq then 0 else 1

/-- The header of the next frame of a lane, with SAT 0 (R206). -/
def preHeader (p : Pre) (l : Nat) : Nat :=
  let t := prePtype p l
  p.upFseq + p.head % 8 * 2 ^ 8 + t * 2 ^ 11 + p.rate % 4 * 2 ^ 13 + bits (preReg p (0x60 + p.head * 4)) 0 6 * 2 ^ 16
    + bnat (t == 0 && bit p.hsw l) * 2 ^ 22 + bnat p.dsUp * 2 ^ 23

/-- The next message: replies in the order of their requests, ahead of STATUS and SENSE, each of which is due 25 frames after the
one before. A STATUS ends LIMIT's interval. The sense values are free values (R220, R229, R230). -/
def preMessage (n : Nat) (s : State) : State :=
  let p := getPre s n
  let p := { p with statusAge := Nat.min 25 (p.statusAge + 1), senseAge := Nat.min 25 (p.senseAge + 1) }
  if !p.auxOut.isEmpty then setPre n p s
  else match p.replies with
    | m :: rest => setPre n { p with replies := rest, auxOut := auxUnits m } s
    | [] =>
      if p.dsUp && p.statusAge == 25 then
        setPre n { p with auxOut := auxUnits (7 + preStatus p * 2 ^ 19), limit := false, statusAge := 0 } s
      else if (p.assistEn || p.heaterEn) && p.senseAge == 25 then
        let f := fresh s
        setPre n { p with auxOut := auxUnits (6 + f.1 % 2 ^ 32 * 2 ^ 19), senseAge := 0 } f.2
      else setPre n p s

/-- The frames of the three lanes in a frame time. -/
def preSend (n : Nat) (settled : Bool) (s : State) : State :=
  let s := preMessage n (setPre n (preTurn settled (getPre s n)) s)
  let p := getPre s n
  let shown := ((List.range 3).filter fun l => prePtype p l == 0).foldl (fun m l => setBits m l 1 0) p.hsw
  preApply n (emit (.upFrames n ((List.range 3).map (preHeader p)) (p.auxOut.headD 0))
    (setPre n { p with hsw := shown, upFseq := (p.upFseq + 1) % 256, auxOut := p.auxOut.drop 1 } s))

/-- PA_DOWNSTREAM_FRAME (R203–R208, R212–R217, R220, R223, R225): a frame slot at the preamplifier, in which it also sends its
three upstream frames. `emitted` write symbols left the FIFO since the slot before, and `settled` says that its readers have
settled on a new head. -/
def execPaDownstreamFrame (n : Fin 4) (f : LinkFrame) (emitted : Nat) (settled : Bool) (s : State) : Host.Outcome State Fault Refusal :=
  act s fun s =>
    let p := getPre s n.val
    if !p.running then s
    else
      let s := preEmit n.val emitted (setPre n.val { p with descr := lineTail (lineBits f) } s)
      preSend n.val settled (preTake n.val (received p.descr f) s)

/-- ELEMENT_CHECK_COMPLETE (R122, R123): a wired head's six elements are judged; it is present only when all are within
limits. -/
def execElementCheckComplete (n : Fin 4) (m : Fin 8) (elems : Fin 64) (s : State) : Host.Outcome State Fault Refusal := act s fun s =>
  let p := getPre s n.val
  if bits p.headstat (2 * m.val) 2 ≠ 3 then s
  else setPre n.val { p with headstat := setBits p.headstat (2 * m.val) 2 (if elems.val = 0 then 1 else 2),
                             elems := smSet (fun _ => 0) p.elems m.val elems.val } s

end Sys2Proof.Machine
end

