-- ==== Sys2Proof/Machine/Islands.lean ====
section
/-! DEFINITION. The two Basalt islands as the redundancy logic handles them: states, failing, rejoining, golden checks
and the clock of the sequencers (R334, R367, R398–R407). -/

namespace Sys2Proof.Machine

/-! ### An island's storage -/

/-- After a reset of the island every coefficient word reads 0 but b0 of each notch biquad (R334). -/
def cmReset (off : Nat) : Word :=
  if off < 0x2000 && decide (0x100 ≤ off % 0x400) && decide (off % 0x400 < 0x280) && off % 0x20 == 0 then 0x4000 else 0

def getBas (s : State) (x : Nat) : Island := smGet (fun _ => {}) s.bas x
def setBas (x : Nat) (v : Island) (s : State) : State := { s with bas := smSet (fun _ => {}) s.bas x v }
def getAct (s : State) (x n : Nat) : ActSt := smGet (fun _ => {}) (getBas s x).acts n
def setAct (x n : Nat) (v : ActSt) (s : State) : State :=
  setBas x { getBas s x with acts := smSet (fun _ => {}) (getBas s x).acts n v } s

/-- A word of a coefficient memory (R334). -/
def cmWord (s : State) (x off : Nat) : Nat := (smGet cmReset (getBas s x).cmem off).toNat

/-- The 16-bit words of the notch biquads keep bits [15:0] alone (R334). -/
def cmKept (off v : Nat) : Nat :=
  if off < 0x2000 && decide (0x100 ≤ off % 0x400) && decide (off % 0x400 < 0x280) && decide (off % 0x20 < 0x14) then v % 65536
  else v

/-- A coefficient word written (R334, R337). -/
def setCm (x off v : Nat) (s : State) : State :=
  setBas x { getBas s x with cmem := smSet cmReset (getBas s x).cmem off (BitVec.ofNat 32 (cmKept off v)) } s

/-- A counter of an actuator in an island (R338). -/
def basCount (x n j : Nat) (s : State) : State := incReg (aBasCount x n j) s

/-! ### States (R400) -/

/-- The island is HEALTHY. -/
def islHealthy (s : State) (x : Nat) : Bool := (getIsl s x).st == 1


/-- WEDGES of an island. -/
def basWedges (s : State) (x : Nat) : Nat := regF s (aBasCfg x) 0 11

/-- A block reset of an island: its registers, coefficient memory and loop states (R61, R334, R400). -/
def resetIsland (x : Nat) (s : State) : State := resetRegs (basBase x) (basBase x + 0x8000) (setBas x {} s)

/-! ### The sequencers' clock (R367, R401) -/

/-- Every sequencer of the variant is to move to an island's CLK_SPIN at its next wedge boundary. Where that island does not
serve the actuator it counts no wedge of it, and the move is made at once (DEDUCED, log 83). -/
def moveClock (toB : Bool) (s : State) : State :=
  forTo (fun n t =>
    let q := smGet (fun _ => ({} : Seqr)) t.seq n
    if !actPresent t n then t
    else if q.clkB == toB then { t with seq := smSet (fun _ => {}) t.seq n { q with clkMove := none } }
    else if serves t (bnat toB) n then { t with seq := smSet (fun _ => {}) t.seq n { q with clkMove := some toB } }
    else { t with seq := smSet (fun _ => {}) t.seq n { q with clkB := toB, clkMove := none } }) 4 s

/-- A wedge boundary of an actuator: a clock move that waits takes place; with the last of them an activation that waited
begins (R38). -/
def clockBoundary (n : Nat) (s : State) : State :=
  let q := smGet (fun _ => ({} : Seqr)) s.seq n
  match q.clkMove with
  | none => s
  | some b => startHeld { s with seq := smSet (fun _ => {}) s.seq n { q with clkB := b, clkMove := none } }

/-- What the registers of an island show once its clock has stopped: what they held until then (R23). -/
def stopIslClock (x : Nat) (s : State) : State :=
  if (getCrossed s x).isSome then s
  else
    let here := fun (a : Nat) => decide (basBase x ≤ a) && decide (a < basBase x + 0x8000)
    setCrossed x (some { regs := s.regs.filter fun e => here e.1, wide := s.wide.filter fun e => here e.1, isl := getBas s x }) s

/-! ### Entering HEALTHY and leaving it (R400, R401, R405, R406) -/

/-- An island becomes HEALTHY: its fault has failed back. -/
def makeHealthy (x : Nat) (s : State) : State :=
  let i := getIsl s x
  let s := setIsl x { i with st := 1, step := 0, code := 0, goldenOrdered := false, goldenResult := none } s
  if i.code = 0 then s else clearFault i.code x s

/-- An island returns to RESETTING after an aborted rejoin, the third within 24 h making it LOCKED_OUT (R405, R406). -/
def abortRejoin (x : Nat) (s : State) : State :=
  let i := getIsl s x
  if i.st != 4 then s
  else
    let times := withinDay s.now i.aborts
    let s := redCount 3 s
    if 3 ≤ times.length then faultEvent i.code x 3 (resetIsland x (setIsl x { i with st := 5, step := 0, aborts := times } s))
    else setIsl x { i with st := 3, step := 0, aborts := times } s

/-- What an island's leaving HEALTHY means for its peer: a rejoin in shadow ends HEALTHY, an earlier one aborts, and the
sequencers return to island A's clock when island B left it (R401, R405, R406). -/
def leftHealthy (x : Nat) (s : State) : State :=
  let y := 1 - x
  let i := getIsl s y
  let s := if i.st = 4 then (if i.step = 2 then redCount 2 (makeHealthy y s) else abortRejoin y s) else s
  if x = 1 && islHealthy s 0 then moveClock false s else s

/-- An island's fault (R401, R406, R414). An OFF island meets no cause, and one already held stays held (R400). -/
def failIsland (x code : Nat) (s : State) : State :=
  let i := getIsl s x
  if !redActive s || i.st == 0 || islHeld s x then s
  else
    let times := withinDay s.now i.fails
    let s := if i.code = 0 || i.code = code then s else clearFault i.code x s
    let s := trigger 4 (redCount x (addFault code x s))
    let locked := decide (3 ≤ times.length)
    let s := setIsl x { i with st := if locked then 5 else 2, code := code, step := 0, fails := times,
                               goldenOrdered := false, goldenResult := none, golden := false } s
    let s := resetIsland x s
    let s := if locked then faultEvent code x 3 s else s
    let s := if x = 0 then moveClock true s else s
    startHeld (if i.st = 1 then leftHealthy x s else s)

/-- An island's rail is good (R52). -/
def railOk (s : State) (x : Nat) : Bool := if x = 0 then s.pwr.islAOk else s.pwr.islBOk

/-- An island's CLK_SPIN runs (R23, R49, R414). -/
def islClock (s : State) (x : Nat) : Bool := railOk s x && !(getIsl s x).clockStopped

/-- EN has come into effect or gone: OFF to HEALTHY, or to FAILED while a cause holds, and any state to OFF (R400). -/
def enableIsland (x : Nat) (s : State) : State :=
  let i := getIsl s x
  if islHeld s x then s
  else if islOn s x then
    if i.st != 0 then s
    else if !railOk s x || i.clockBad then failIsland x (if railOk s x then 2 else 1) (setIsl x { i with st := 1 } s)
    else makeHealthy x s
  else if i.st = 0 then s
  else
    let s := setIsl x { i with st := 0, step := 0, goldenOrdered := false, goldenResult := none } s
    if i.st = 1 then leftHealthy x s else s

/-! ### Golden checks (R404) -/

/-- A disagreement, or a rise of TDM_MISMATCH, orders a golden check in both islands or joins the one in hand. -/
def orderGolden (s : State) : State :=
  if !redActive s || (getIsl s 0).goldenOrdered || (getIsl s 1).goldenOrdered then s
  else forTo (fun x t =>
    if islHealthy t x then setIsl x { getIsl t x with goldenOrdered := true, goldenResult := none } t else t) 2 s

/-- A golden check of an island has ended (R404): a failing island becomes FAILED; an ordered check that every island
ordered has passed raises DISAGREE once. -/
def goldenEnd (x : Nat) (pass : Bool) (s : State) : State :=
  let i := getIsl s x
  let s := setIsl x { i with golden := false } s
  if !islHealthy s x || !(i.golden || i.goldenOrdered) then s
  else if !pass then
    let s := failIsland x 5 (redCount 5 s)
    if i.goldenOrdered then forTo (fun y t =>
      if (getIsl t y).goldenResult == some true then setIsl y { getIsl t y with goldenOrdered := false, goldenResult := none } t
      else t) 2 s
    else s
  else if !i.goldenOrdered then s
  else
    let s := setIsl x { i with goldenResult := some true, golden := false } s
    let both := (List.range 2).all fun y => (getIsl s y).goldenOrdered && (getIsl s y).goldenResult == some true
    if both then
      redCount 4 (forTo (fun y t => setIsl y { getIsl t y with goldenOrdered := false, goldenResult := none } t) 2 s)
    else if (List.range 2).all fun y => !(getIsl s y).goldenOrdered || (getIsl s y).goldenResult == some true then
      forTo (fun y t => setIsl y { getIsl t y with goldenOrdered := false, goldenResult := none } t) 2 s
    else s

end Sys2Proof.Machine
end

