-- ==== Sys2Proof/Machine/Demod.lean ====
section
/-! DEFINITION. The receive side of an island and the demodulation of a wedge from its samples: slicing, the search for the servo
address mark, the dibit fields, the null bursts (R211, R301–R306). -/

namespace Sys2Proof.Machine

/-! ### The streams (R211) -/

def getRx (s : State) (x n : Nat) : Rx := smGet (fun _ => {}) (getBas s x).rx n
def setRx (x n : Nat) (v : Rx) (s : State) : State :=
  setBas x { getBas s x with rx := smSet (fun _ => {}) (getBas s x).rx n v } s

/-- The time that `k` samples of a RATE take, ns/256. -/
def sampleSpan (rate k : Nat) : Nat := k * 25600 / rateMs rate

/-- What a lane brought, as an island's FIFO delivers it. -/
def Brought.isl (x : Nat) (g : Brought) : List (Option Int) := if x = 0 then g.islA else g.islB

/-- The samples in hand given up: the next one is the first. -/
def rxCut (gap : Nat) (r : Rx) : Rx := { r with a := [], b := [], from_ := r.from_ + sampleSpan r.rate r.a.length + gap }

/-- The frames of an FSEQ reach an island. Each stream holds its place in time: where a reader brings nothing in a sample position,
the place of its samples is left erased. What came before a head switch, or before both streams were absent, is given up (R211,
R304, R308). -/
def rxTake (x now fseq : Nat) (got : List Brought) (r : Rx) : Rx :=
  let mine := got.filter fun g => decide (g.lane < 2)
  let back := !mine.isEmpty && mine.all (·.resume)
  let rate := (mine.head?.map (·.rate)).getD r.rate
  let hsw := mine.any (·.hsw)
  let r := if back then rxCut ((now - r.last) * 256) r else if hsw || rate != r.rate then rxCut 0 r else r
  let r := { r with rate := rate, last := now, hsw := if hsw then some r.from_ else r.hsw }
  let put := fun (l : Nat) => padNone ((mine.find? fun g => g.lane == l).map (Brought.isl x))
  if samplePos rate fseq then { r with a := r.a ++ put 0, b := r.b ++ put 1 } else r
where
  /-- The 128 samples of a frame time. -/
  padNone (l : Option (List (Option Int))) : List (Option Int) :=
    let l := l.getD []
    l.take 128 ++ List.replicate (128 - l.length) none

/-- The frames of an FSEQ reach the islands that serve the actuator and search (R211, R308). -/
def islandsTake (n : Nat) (b : Skew) (s : State) : State :=
  forTo (fun x t =>
    if serves t x n && (getAct t x n).mode != 0 then setRx x n (rxTake x t.now b.fseq b.got (getRx t x n)) t else t) 2 s

/-! ### Places in a stream (R301, R304) -/

/-- How a stream is read: RATE, the servo bit rate of the head, UQ10.6 Mbit/s, the last measured wedge period, ns/256, with
SPIN_RPM × WEDGES, and SAM_WIN and SAM_THR. -/
structure Servo where
  rate : Nat
  sbr : Nat
  wper : Nat
  spin : Nat
  win : Nat
  thr : Nat
  phase : Nat

/-- `k` servo bits at the servo bit rate, in 2^-16 of a sample. -/
def Servo.bits (v : Servo) (k : Nat) : Nat := k * rateMs v.rate * 640 * 65536 / max 1 v.sbr

/-- `k` servo bits scaled by the last measured wedge period against the nominal one (R304). -/
def Servo.scaled (v : Servo) (k : Nat) : Nat :=
  if v.wper = 0 ∨ v.spin = 0 then v.bits k else v.bits k * (v.wper * v.spin) / 15360000000000

/-- The servo bit whose cell begins at a place, as it is sliced; none where a sample of the cell is erased (R304). -/
def slicedBit (v : Servo) (xs : List (Option Int)) (p : Nat) : Option Bool :=
  let cell := (xs.drop (p / 65536)).take ((p + v.bits 1) / 65536 - p / 65536)
  if (xs.drop ((p + v.bits 1) / 65536)).isEmpty || cell.any (·.isNone) then none
  else some (Config.servoBit xs (v.bits 1) p)

/-! ### The servo address mark (R304) -/

/-- The servo bits that differ from the SAM at a sample. -/
def samDistance (v : Servo) (xs : List (Option Int)) (i : Nat) : Nat :=
  countTo (fun k => slicedBit v xs (i * 65536 + v.bits k) != some (bit 0x1F35 (15 - k))) 16

/-- The samples at which a SAM qualifies, with their distances: within SAM_WIN of the place expected, or anywhere. -/
def samsOf (v : Servo) (xs : List (Option Int)) (expected : Option Nat) : List (Nat × Nat) :=
  let near := fun (i : Nat) => match expected with
    | none => true
    | some e => decide (((i : Int) * 65536 - (e : Int)).natAbs ≤ v.bits v.win)
  (List.range xs.length).filterMap fun i =>
    if near i && decide (samDistance v xs i ≤ v.thr) then some (i, samDistance v xs i) else none

/-- The sample at which the SAM found begins; which of several qualifying is taken is left open (log 121). -/
def samFound (v : Servo) (xs : List (Option Int)) (expected : Option Nat) : Option Nat :=
  let l := samsOf v xs expected
  match l[Config.samChoice l]? with
  | some p => some p.1
  | none => l.head?.map (·.1)

/-! ### The fields (R301, R302, R305, R306) -/

/-- The code bits of `k` dibits from servo bit `o` after the SAM's first, none for an invalid one. -/
def dibits (v : Servo) (xs : List (Option Int)) (sam o k : Nat) : List (Option Bool) :=
  (List.range k).map fun i =>
    let at_ := fun j => Config.servoBit xs (v.bits 1) (sam * 65536 + v.scaled (o + 2 * i + j))
    if at_ 0 == at_ 1 then none else some (at_ 0)

/-- A binary number, most significant bit first, unless a dibit is invalid. -/
def binaryOf (l : List (Option Bool)) : Option Nat :=
  if l.any (·.isNone) then none else some (l.foldl (fun n b => 2 * n + bnat (b == some true)) 0)

/-- A reflected Gray code, most significant bit first, unless a dibit is invalid (R301). -/
def grayOf (l : List (Option Bool)) : Option Nat :=
  if l.any (·.isNone) then none
  else some (l.foldl (fun (p : Nat × Bool) b => let c := p.2 != (b == some true); (2 * p.1 + bnat c, c)) (0, false)).1

/-- The RRO value, Q1.15, unless a dibit is invalid or the number of ones is odd (R302). -/
def rroOf (l : List (Option Bool)) : Option Int :=
  match binaryOf l with
  | none => none
  | some v => if (l.filter (· == some true)).length % 2 = 0 then some (sgn 16 (v / 2)) else none

/-- The middle 32 servo bits of the burst whose first servo bit is `o` after the SAM's first: each sample with its distance from
the burst's start, in 2^-16 of a sample (R306). -/
def burstSamples (v : Servo) (xs : List (Option Int)) (sam o : Nat) : List (Option Int × Nat) :=
  let at_ := fun k => sam * 65536 + v.scaled k
  let lo := (at_ (o + 4) + 65535) / 65536
  let hi := (at_ (o + 36) + 65535) / 65536
  (List.range (hi - lo)).map fun j => ((xs[lo + j]?).join, (lo + j) * 65536 - at_ o)

/-- v_x of a burst in Q16.16, over the samples that are not erased; 0 without one (R306). -/
def burstValue (v : Servo) (l : List (Option Int × Nat)) : Int :=
  let got := l.filterMap fun e => e.1.map fun x => (x, e.2)
  let term := fun (e : Int × Nat) => e.1 * Config.servoSine ((e.2 * v.sbr * 256 / (rateMs v.rate * 10) + v.phase * 65536) % 2 ^ 32)
  if got.isEmpty then 0 else roundDiv (2 * (got.map term).sum) (got.length * 2 ^ 14)
where
  /-- A quotient rounded to the nearest integer, ties away from zero. -/
  roundDiv (a : Int) (b : Nat) : Int := if 0 ≤ a then (2 * a + b) / (2 * b : Nat) else -((-2 * a + b) / (2 * b : Nat))

/-- At least 75 % of a burst's samples are not erased (R306). -/
def burstEnough (l : List (Option Int × Nat)) : Bool := decide (3 * l.length ≤ 4 * (l.filter (·.1.isSome)).length)

/-- What a reader's stream shows, with its SAM, if one qualifies, and that of the wedge, if one is found (R305, R306). -/
def readerSees (v : Servo) (xs : List (Option Int)) (own found : Option Nat) : Reader :=
  match found with
  | none => { sam := false, wedge := none, track := none, rro := none, enough := false, n := 0, q := 0 }
  | some p =>
    let b := fun o => burstSamples v xs p o
    let w := fun o => burstValue v (b o)
    { sam := own.isSome, track := grayOf (dibits v xs p 16 22), wedge := binaryOf (dibits v xs p 60 10), rro := rroOf (dibits v xs p 240 17),
      enough := [80, 120, 160, 200].all fun o => burstEnough (b o), n := (w 80 - w 160) / 2, q := (w 120 - w 200) / 2 }

/-- How the streams of an actuator are read in an island. -/
def servoOf (s : State) (x n : Nat) (head : Nat → Nat) : Servo :=
  let c := reg s (aBasCfg x)
  { rate := (getRx s x n).rate, sbr := head 0x08 % 65536, wper := (getAct s x n).wper, spin := bits c 0 11 * bits c 11 13,
    win := bits (head 0x0C) 0 4, thr := bits (head 0x0C) 8 3, phase := bits (head 0x10) 16 16 }

/-- The time from the last SAM found to the one expected while LOCKED, ns/256. -/
def samDue (a : ActSt) : Option Nat := if a.locked then some ((a.since + 1) * a.wper) else none

/-- The SAMs that readers A and B show. -/
def samsSeen (v : Servo) (a : ActSt) (r : Rx) : Option Nat × Option Nat :=
  let e := (samDue a).map fun t => (t - r.from_) * rateMs v.rate * 65536 / 25600
  (samFound v r.a e, samFound v r.b e)

/-- The wedge that an island makes of its streams (R304–R308); `samTime` is the SAM's time against CLK_REF (R309). -/
def observe (s : State) (x n samTime : Nat) (head : Nat → Nat) : WedgeObs :=
  let v := servoOf s x n head
  let r := getRx s x n
  let a := getAct s x n
  let p := samsSeen v a r
  let window := fun t => (t + sampleSpan v.rate (v.scaled 80 / 65536), t + sampleSpan v.rate (v.scaled 274 / 65536))
  let inside := match r.hsw, samDue a with
    | some h, some t => decide ((window t).1 ≤ h) && decide (h < (window t).2)
    | _, _ => false
  { a := readerSees v r.a p.1 (p.1 <|> p.2), b := readerSees v r.b p.2 (p.2 <|> p.1), samTime, hsw := r.hsw.isSome, inBurst := inside }

/-- The streams behind a wedge: what they go on from is its SAM, where it is found, or still the one before. -/
def rxNext (found : Bool) (p : Option Nat × Option Nat) (r : Rx) : Rx :=
  let r := { r with hsw := none }
  match if found then p.1 <|> p.2 else none with
  | some i => { r with a := [], b := [], from_ := sampleSpan r.rate (r.a.length - i) }
  | none => rxCut 0 r

end Sys2Proof.Machine
end

