-- ==== Sys2Proof/Machine/Tcp.lean ====
section
/-! DEFINITION. Hardware TCP: the frames it sends, its acknowledgement, loss recovery and window arithmetic, and how read
data goes out in segments (R130, R132–R134, R137). -/

namespace Sys2Proof.Machine

/-! ### Frames (R130, R132, R133) -/

/-- The sum of the 16-bit words of bytes, the first byte of each word high. -/
def wordSum : List Byte → Nat
  | [] => 0
  | [a] => a.toNat * 256
  | a :: b :: rest => a.toNat * 256 + b.toNat + wordSum rest

/-- The Internet checksum of bytes: the complement of their ones' complement sum (R132). -/
def inetSum (bs : List Byte) : Nat :=
  let fold := fun (n : Nat) => n % 65536 + n / 65536
  65535 - fold (fold (fold (wordSum bs)))

/-- The VLAN tag a port puts on every frame it sends (R130). -/
def portTag (s : State) (p : Nat) : Option Nat :=
  if regB s (aPortCfg p) 14 then some (regF s (aPortCfg p) 19 12 + regF s (aPortCfg p) 16 3 * 8192) else none

/-- A context's address entry is IPv6 (R132, R158). -/
def overV6 (s : State) (c : Ctx) : Bool := regB s (aAddrCtl c.port c.entry) 1

/-- The address of a context's entry, and its peer's, in network order. -/
def ownAddr (s : State) (c : Ctx) : List Byte :=
  (List.range (if overV6 s c then 4 else 1)).flatMap fun i => beBytes 4 (reg s (aAddrIp c.port c.entry i))
def peerAddr (s : State) (c : Ctx) : List Byte := beBytes (if overV6 s c then 16 else 4) c.peerIp

/-- The MAC header of a context's frames: to the link-layer source address of the SYN that opened it (R133). -/
def macHeader (s : State) (c : Ctx) : List Byte :=
  beBytes 6 c.peerMac ++ beBytes 2 (regF s (aPortMacHi c.port) 0 16) ++ beBytes 4 (reg s (aPortMacLo c.port))
    ++ beBytes 2 (if overV6 s c then 0x86DD else 0x0800)

/-- The IP header before `n` bytes of TCP, with the two ECN bits: IPv4 with DF and its checksum, or IPv6 (R132).
Identification 0, hop limit 64 and flow label 0 are the model's (log 97). -/
def ipHeader (s : State) (c : Ctx) (ecn n : Nat) : List Byte :=
  if overV6 s c then
    beBytes 4 (0x60000000 + ecn * 2 ^ 20) ++ beBytes 2 n ++ [6, 64] ++ ownAddr s c ++ peerAddr s c
  else
    let a := beBytes 1 0x45 ++ beBytes 1 ecn ++ beBytes 2 (20 + n) ++ beBytes 4 0x00004000 ++ [64, 6]
    let b := ownAddr s c ++ peerAddr s c
    a ++ beBytes 2 (inetSum (a ++ b)) ++ b

/-- The receive window: 512 KiB less what waits out of order (R134). -/
def rcvWnd (c : Ctx) : Nat := 524288 - (c.ooo.map fun r => (r.2 + 2 ^ 32 - r.1) % 2 ^ 32).sum

/-- The timestamps option, when in use: the model's clock is in ms (R134, log 97). -/
def tsOption (s : State) (c : Ctx) : List Byte :=
  match c.tsRecent with
  | some t => [1, 1, 8, 10] ++ beBytes 4 (s.now / 1000000) ++ beBytes 4 t
  | none => []

/-- The options of a segment: timestamps, and SACK blocks for what waits out of order, the latest first (R134). -/
def segOptions (s : State) (c : Ctx) : List Byte :=
  let b := if c.sackOk then c.ooo.take 3 else []
  tsOption s c ++ (if b.isEmpty then [] else [1, 1, 5] ++ beBytes 1 (2 + 8 * b.length) ++ b.flatMap fun r => beBytes 4 r.1 ++ beBytes 4 r.2)

/-- A TCP header without its checksum. -/
def tcpHeader (c : Ctx) (flags seq wnd : Nat) (options : List Byte) : List Byte :=
  beBytes 2 c.ownPort ++ beBytes 2 c.peerPort ++ beBytes 4 seq ++ beBytes 4 (if bit flags 4 then c.rcvNxt else 0)
    ++ beBytes 1 ((20 + options.length) / 4 * 16) ++ beBytes 1 flags ++ beBytes 2 wnd ++ zeros 4 ++ options

/-- The window field of a segment after the handshake: our own shift is 4 (R134). -/
def wndField (c : Ctx) : Nat := if c.wscale.isSome then rcvWnd c / 16 else min 65535 (rcvWnd c)

/-- A segment without data as it is sent: both checksums are right (R132). -/
def bareFrame (s : State) (c : Ctx) (flags wnd : Nat) (options : List Byte) : Out :=
  let h := tcpHeader c flags c.sndNxt wnd options
  let pseudo := ownAddr s c ++ peerAddr s c ++ beBytes 4 h.length ++ beBytes 4 6
  .tcp c.port (portTag s c.port)
    (macHeader s c ++ ipHeader s c 0 h.length ++ h.take 16 ++ beBytes 2 (inetSum (pseudo ++ h)) ++ h.drop 18)

/-- SYN and ACK: the options that the SYN offered (R134). -/
def synAckFrame (s : State) (c : Ctx) (own : Nat) : Out :=
  bareFrame s c (0x12 + (if c.ecn then 0x40 else 0)) (min 65535 (rcvWnd c))
    ([2, 4] ++ beBytes 2 own ++ (if c.wscale.isSome then [1, 3, 3, 4] else []) ++ (if c.sackOk then [1, 1, 4, 2] else []) ++ tsOption s c)

/-- An acknowledgement, echoing a congestion mark (R134). -/
def ackFrame (s : State) (c : Ctx) : Out := bareFrame s c (0x10 + (if c.echo then 0x40 else 0)) (wndField c) (segOptions s c)

/-- A reset, and a FIN. -/
def rstFrame (s : State) (c : Ctx) : Out := bareFrame s c 0x14 0 []
def finFrame (s : State) (c : Ctx) : Out := bareFrame s c 0x11 (wndField c) (tsOption s c)

/-- The headers of a segment that carries data (R132–R134). -/
def dataHeaders (s : State) (c : Ctx) (g : Seg) : List Byte :=
  let h := tcpHeader c (0x18 + (if c.echo then 0x40 else 0) + (if c.cwrDue then 0x80 else 0)) ((g.endSeq + 2 ^ 32 - g.len) % 2 ^ 32) (wndField c)
    (segOptions s c)
  macHeader s c ++ ipHeader s c (if c.ecn then 2 else 0) (h.length + g.len) ++ h

/-! ### Sending (R134, R137) -/

/-- What is in flight. -/
def flight (c : Ctx) : Nat := (c.segs.map (·.len)).sum

/-- Segments sent while the peer's window and the congestion window allow. The fuel bounds how many. -/
def sendReady : Nat → Nat → State → State
  | 0, _, s => s
  | k + 1, x, s =>
    match getCtx s x with
    | none => s
    | some c =>
      match c.unsent with
      | [] => s
      | (len, q) :: rest =>
        let n := min len (max 1 c.mss)
        if min c.cwnd c.sndWnd < flight c + n then s
        else
          let g : Seg := { endSeq := (c.sndNxt + n) % 2 ^ 32, len := n, cmd := q }
          let d := { c with sndNxt := g.endSeq, segs := c.segs ++ [g], unsent := if n < len then (len - n, q) :: rest else rest,
                            unacked := 0, cwrDue := false }
          sendReady k x (setCtx x (some d) (emit (.segment x g.endSeq n (portTag s c.port) (dataHeaders s c g)) s))

/-- Everything that may be sent now. -/
def sendAll (x : Nat) (s : State) : State :=
  match getCtx s x with
  | some c => sendReady ((c.unsent.map (·.1)).sum / max 1 c.mss + c.unsent.length + 1) x s
  | none => s

/-- The padding of a C2HData PDU between its header and its data (R137). -/
def c2hPad (c : Ctx) : Nat :=
  let h := 24 + 4 * bnat c.hdgst
  let a := 4 * (c.hpda + 1)
  (h + a - 1) / a * a - h

/-- C2HData of a command, as its connection's ICReq asked, sent in segments that hold its staging buffer until they are
acknowledged (R134, R137). -/
def sendC2h (x q cid : Nat) (data : List Byte) (s : State) : State :=
  match getCtx s x with
  | none => s
  | some c =>
    if data.isEmpty then s
    else
      let n := 24 + 4 * bnat c.hdgst + c2hPad c + data.length + 4 * bnat c.ddgst
      sendAll x (setCtx x (some { c with unsent := c.unsent ++ [(n, q)] }) (emit (.c2hData x cid (c2hPad c) data) s))

/-! ### Acknowledgements and loss recovery (R134) -/

/-- A sequence number lies at or before an acknowledgement, modulo 2³². -/
def ackCovers (ack seq : Nat) : Bool := decide ((ack + 2 ^ 32 - seq % 2 ^ 32) % 2 ^ 32 < 2 ^ 31)

/-- RFC 6298's timer from a measured round trip, in ms, between 5 ms and 4 s (R134). -/
def withRtt (r : Nat) (c : Ctx) : Ctx :=
  let srtt := if c.srtt = 0 then r else (7 * c.srtt + r) / 8
  let var := if c.srtt = 0 then r / 2 else (3 * c.rttvar + (if c.srtt < r then r - c.srtt else c.srtt - r)) / 4
  { c with srtt := srtt, rttvar := var, rto := min 4000 (max 5 (srtt + 4 * var)) }

/-- A segment lies within a SACK block. -/
def sackCovers (l : List (Nat × Nat)) (g : Seg) : Bool :=
  l.any fun b => ackCovers ((g.endSeq + 2 ^ 32 - g.len) % 2 ^ 32) b.1 && ackCovers b.2 g.endSeq

/-- RFC 6675's test of loss: more than two segments' bytes after it have been selectively acknowledged. -/
def isLost (c : Ctx) (g : Seg) : Bool :=
  decide (2 * c.mss < ((c.segs.filter fun h => h.sacked && h.endSeq != g.endSeq && ackCovers h.endSeq g.endSeq).map (·.len)).sum)

/-- RFC 6675's estimate of what is still in the network. -/
def pipeOf (c : Ctx) : Nat :=
  ((c.segs.filter fun g => !g.sacked && (g.again || !isLost c g)).map (·.len)).sum

/-- A segment marked as resent. -/
def markAgain (g : Seg) (c : Ctx) : Ctx :=
  { c with segs := mapIf (fun h => h.endSeq == g.endSeq) (fun h => { h with again := true, tries := h.tries + 1 }) c.segs }

/-- Lost segments resent while the congestion window allows (RFC 6675). The fuel bounds how many. -/
def resendLost : Nat → Ctx → Ctx × List Seg
  | 0, c => (c, [])
  | k + 1, c =>
    match c.segs.find? fun g => !g.sacked && !g.again && isLost c g with
    | none => (c, [])
    | some g =>
      if c.cwnd < pipeOf c + g.len then (c, [])
      else
        let r := resendLost k (markAgain g c)
        (r.1, g :: r.2)

/-- The first segment resent, and, with SACK, the lost ones after it. -/
def resendFirst (c : Ctx) : Ctx × List Seg :=
  match c.segs with
  | [] => (c, [])
  | g :: _ =>
    let r := if c.sackOk then resendLost c.segs.length (markAgain g c) else (markAgain g c, [])
    (r.1, g :: r.2)

/-- The window halved, to no less than two segments. -/
def halved (flying mss : Nat) : Nat := max (flying / 2) (2 * mss)

/-- An acknowledgement's effect on what is in flight and on the congestion window: slow start and congestion avoidance of
RFC 5681, recovery after the third duplicate with NewReno's partial acknowledgements (RFC 6582) or SACK's (RFC 6675), and
one reduction a window for an echoed congestion mark (RFC 3168). The second part is the segments to resend. -/
def onAck (a : AckSeg) (c : Ctx) : Ctx × List Seg :=
  let covered := c.segs.filter fun g => ackCovers a.ack g.endSeq
  let got := (covered.map (·.len)).sum
  let rest := (c.segs.filter fun g => !ackCovers a.ack g.endSeq).map fun g => if c.sackOk && sackCovers a.sack g then { g with sacked := true } else g
  let d := { c with segs := rest, sndUna := if got = 0 then c.sndUna else a.ack % 2 ^ 32 }
  match c.recover with
  | some r =>
    if ackCovers a.ack r then
      ({ d with recover := none, dupAcks := 0, cwnd := min c.ssthresh (flight d + c.mss), segs := rest.map fun g => { g with again := false } }, [])
    else if c.sackOk then resendLost rest.length d
    else if got = 0 then ({ d with cwnd := c.cwnd + c.mss }, [])
    else resendFirst { d with cwnd := max c.mss (c.cwnd - got + c.mss), segs := rest.map fun g => { g with again := false } }
  | none =>
    if got = 0 then
      let n := c.dupAcks + 1
      let lost := match rest.head? with | some g => c.sackOk && isLost d g | none => false
      if rest.isEmpty then ({ d with dupAcks := 0 }, [])
      else if n = 3 ∨ lost = true then
        let h := halved (flight d) c.mss
        resendFirst { d with dupAcks := n, ssthresh := h, cwnd := if c.sackOk then h else h + 3 * c.mss, recover := some c.sndNxt }
      else ({ d with dupAcks := n }, [])
    else if c.ecn && a.ece && ackCovers a.ack c.cwrTo then
      let h := halved c.cwnd c.mss
      ({ d with dupAcks := 0, ssthresh := h, cwnd := h, cwrDue := true, cwrTo := c.sndNxt }, [])
    else
      let w := if c.cwnd < c.ssthresh then c.cwnd + min got c.mss else c.cwnd + max 1 (c.mss * c.mss / max 1 c.cwnd)
      ({ d with dupAcks := 0, cwnd := w }, [])

/-- What any segment's header tells: window, timestamp, round trip, congestion marks (R134). -/
def noteHeader (a : AckSeg) (c : Ctx) : Ctx :=
  let c := { c with sndWnd := a.wnd * 2 ^ (c.wscale.getD 0), tsRecent := if c.tsRecent.isSome && a.tsval.isSome then a.tsval else c.tsRecent,
                    echo := c.ecn && (a.ce || (c.echo && !a.cwr)) }
  match a.rtt with | some r => withRtt r c | none => c

/-- An acknowledgement sent. -/
def sendAck (x : Nat) (c : Ctx) (s : State) : State := setCtx x (some { c with unacked := 0 }) (emit (ackFrame s c) s)

/-- Data that arrives out of order waits in the receive area if it lies in the window, and is acknowledged at once; old
data, and data beyond the window, is acknowledged and dropped (R134). -/
def outOfOrder (x : Nat) (d : Nat × Nat) (s : State) : State :=
  match getCtx s x with
  | none => s
  | some c =>
    let last := (d.1 + d.2) % 2 ^ 32
    let fits := !ackCovers c.rcvNxt last && decide ((last + 2 ^ 32 - c.rcvNxt) % 2 ^ 32 ≤ 524288)
    sendAck x (if fits && !c.ooo.contains (d.1, last) then { c with ooo := (d.1, last) :: c.ooo } else c) s

/-- Blocks of the read staging buffer that unacknowledged read data holds (R134, R161). -/
def unackedBlocks (s : State) : Nat :=
  (s.host.ctxs.map fun e => match e.2 with
    | some c => (flight c + (c.unsent.map (·.1)).sum + 4095) / 4096
    | none => 0).sum

/-- `n` bytes of PDUs received in order: every second full segment is acknowledged at once, and data that fills a gap;
otherwise within 0.5 ms (R134). -/
def noteReceived (x n : Nat) (s : State) : State :=
  match getCtx s x with
  | none => s
  | some c =>
    let nxt := (c.rcvNxt + n) % 2 ^ 32
    let d := { c with rcvNxt := nxt, unacked := c.unacked + n, ooo := c.ooo.filter fun r => !ackCovers nxt r.2 }
    if 2 * c.mss ≤ d.unacked ∨ c.ooo.isEmpty = false then sendAck x d s else setCtx x (some d) s

end Sys2Proof.Machine
end

