-- ==== Sys2Proof/Machine/Command.lean ====
section
/-! DEFINITION. The command engine's shared operations: completing and discarding commands in their zone's order, the
fates of an ended connection's commands, effects in intake order, reservation, commit, supersession, the choice of a
read's sources, and the schedulers (R152, R159–R164, R170–R178, R194). -/

namespace Sys2Proof.Machine

/-! ### Status codes, as SCT × 256 + SC -/

abbrev stOk : Nat := 0
abbrev stInvalidOpcode : Nat := 0x001
abbrev stInvalidField : Nat := 0x002
abbrev stAborted : Nat := 0x007
abbrev stInvalidNs : Nat := 0x00B
abbrev stInterrupted : Nat := 0x021
abbrev stTransient : Nat := 0x022
abbrev stLbaRange : Nat := 0x080
abbrev stFormatInProgress : Nat := 0x084
abbrev stControllerBusy : Nat := 0x181
abbrev stConnectParams : Nat := 0x182
abbrev stConnectHost : Nat := 0x184
abbrev stAerLimit : Nat := 0x105
abbrev stFwSlot : Nat := 0x106
abbrev stFwImage : Nat := 0x107
abbrev stLogPage : Nat := 0x109
abbrev stInvalidFormat : Nat := 0x10A
abbrev stNotSaveable : Nat := 0x10D
abbrev stZoneBoundary : Nat := 0x1B8
abbrev stZoneFull : Nat := 0x1B9
abbrev stZoneReadOnly : Nat := 0x1BA
abbrev stZoneOffline : Nat := 0x1BB
abbrev stZoneInvalidWrite : Nat := 0x1BC
abbrev stTooManyActive : Nat := 0x1BD
abbrev stTooManyOpen : Nat := 0x1BE
abbrev stZoneTransition : Nat := 0x1BF
abbrev stUnrecoveredRead : Nat := 0x281
abbrev stAnaTransition : Nat := 0x303
abbrev stDeferred : Nat := 0x780
abbrev stActUnavailable : Nat := 0x781

/-! ### Commands in flight -/

/-- The command with an intake number. -/
def findCmd (s : State) (q : Nat) : Option Cmd := s.cmd.cmds.find? fun c => c.seq == q

/-- A command's record replaced. -/
def putCmd (c : Cmd) (s : State) : State :=
  { s with cmd := { s.cmd with cmds := mapIf (fun x => x.seq == c.seq) (fun _ => c) s.cmd.cmds } }

/-- The schedulers' waiting entries that a test leaves (R44, R172). -/
def keepEntries (p : SchedEnt → Bool) (s : State) : State :=
  { s with cmd := { s.cmd with bufWaits := s.cmd.bufWaits.filter p,
                               sched := (s.cmd.sched.map fun (n, c) => (n, { c with queue := c.queue.filter p, window := c.window.filter p })).filter
                                 fun e => e.2 != {} } }

/-- A command's slot given back, with the read entries it still has waiting in the schedulers (R44, R161). -/
def dropCmd (q : Nat) (s : State) : State :=
  keepEntries (fun e => !(e.kind == 0 && e.seq == q))
    { s with cmd := { s.cmd with cmds := s.cmd.cmds.filter (fun c => c.seq != q), waits := s.cmd.waits.filter (· != q) } }

/-- The command whose own meaning comes next (log 12). -/
def freshCmd (s : State) : Option Cmd := s.cmd.cmds.find? fun c => c.phase == .fresh

/-- Opcodes of the I/O command sets (R143). -/
def isWrite (o : Nat) : Bool := o == 0x01
def isZeroes (o : Nat) : Bool := o == 0x08
def isAppend (o : Nat) : Bool := o == 0x7D
def isRead (o : Nat) : Bool := o == 0x02
def isVerify (o : Nat) : Bool := o == 0x0C
def isFlush (o : Nat) : Bool := o == 0x00
def isZms (o : Nat) : Bool := o == 0x79
def isZmr (o : Nat) : Bool := o == 0x7A

/-- A command that places blocks: Write, Write Zeroes or Zone Append. -/
def placesBlocks (c : Cmd) : Bool := c.io && (isWrite c.cap.opc || isZeroes c.cap.opc || isAppend c.cap.opc)

/-- A command whose data the host sends. -/
def carriesData (c : Cmd) : Bool := c.io && (isWrite c.cap.opc || isAppend c.cap.opc)

/-- A zone action of Zone Management Send: 1 close, 2 finish, 3 open, 4 reset, 5 offline, 0x10 descriptor. -/
def zsa (c : Cmd) : Nat := bits c.cap.cdw13 0 8

/-- A command that ends the discarding of R164: Reset Zone or Finish Zone of the zone. -/
def stopsDiscard (g : Nat) (c : Cmd) : Bool :=
  c.io && isZms c.cap.opc && (zsa c == 4 || zsa c == 2) && (c.zone == some g || c.zset.contains g)

/-! ### The INTAKE capture stream (R439) -/

/-- PHASH of blocks: the XOR of CRC-64/XZ over each block and its LBA (R439). -/
def phash (lba : Nat) : List (List Byte) → Nat
  | [] => 0
  | b :: bs => (crc64xz (padTo 4096 b ++ leBytes 8 lba)).toNat ^^^ phash (lba + 1) bs

/-- The bytes of a command's data from `off` for `n`, from the parts that arrived; later parts win. -/
def dataBytes (parts : List (Nat × List Byte)) (off n : Nat) : List Byte :=
  (List.range n).map fun i =>
    match parts.find? fun p => decide (p.1 ≤ off + i) && decide (off + i < p.1 + p.2.length) with
    | some p => p.2.getD (off + i - p.1) 0
    | none => 0

/-- The blocks of a command's write data. -/
def writeBlocks (s : State) (c : Cmd) : List (List Byte) :=
  let bb := blockBytes s.cmd.fmt c.cap.nsid
  (List.range c.nlb).map fun k => dataBytes c.data (k * bb) bb

/-- The blocks of a read that has them all. -/
def readBlocks (c : Cmd) : List (List Byte) := (List.range c.nlb).map fun k => smGet (fun _ => []) c.have_ k

/-- An INTAKE item: event 1 at intake, 2 at completion (R439). -/
def intakeItem (s : State) (c : Cmd) (event status hash : Nat) : List Byte :=
  let x := match c.ctx with | some i => (match getCtx s i with | some x => (x.port, i, x.qid) | none => (0, i, 0)) | none => (0, 0, 0)
  let hi := match hostIdxOf s c.hostNqn c.hostId with | some i => i | none => 0
  leBytes 8 s.now ++ leBytes 8 c.seq ++ leBytes 1 event ++ leBytes 1 x.1 ++ leBytes 2 x.2.1 ++ leBytes 2 x.2.2
    ++ leBytes 2 c.cap.cid ++ leBytes 1 c.cap.opc ++ leBytes 4 c.cap.nsid ++ leBytes 8 c.slba ++ leBytes 4 c.nlb
    ++ leBytes 2 status ++ leBytes 2 hi ++ leBytes 8 hash ++ zeros 11

/-- The hash an INTAKE item of a completion carries. -/
def completionHash (s : State) (c : Cmd) (status : Nat) : Nat :=
  if status ≠ 0 then 0
  else if carriesData c then phash c.slba (writeBlocks s c)
  else if c.io && isRead c.cap.opc then phash c.slba (readBlocks c) else 0

/-! ### Completions (R137, R152, R163) -/

/-- Do Not Retry, where the spec sets it (R148, R191). -/
def dnrOf (status : Nat) : Bool := status == stActUnavailable

/-- A command that fails enters its controller's Error Information log, of 64 entries (R142, R144). -/
def noteError (c : Cmd) (status : Nat) (s : State) : State :=
  match getCtrl s c.ctrl with
  | none => s
  | some t =>
    if status = stOk then s
    else
      let qid := match c.ctx with | some x => (match getCtx s x with | some k => k.qid | none => 0) | none => 0
      let e : ErrEntry := { count := t.errCount + 1, sqid := qid, cid := c.cap.cid, status := status, lba := c.slba, nsid := c.cap.nsid }
      setCtrl c.ctrl (some { t with errCount := t.errCount + 1, errors := (e :: t.errors).take 64 }) s

/-- A command completes: its completion goes to its connection, if that still stands, and its slot is given back. -/
def postCompletion (c : Cmd) (status dw0 dw1 : Nat) (s : State) : State :=
  let s := captureItem 1 (intakeItem s c 2 status (completionHash s c status)) s
  let s := match c.ctx with
    | some x => emit (.completion x c.cap.cid status (dnrOf status) dw0 dw1) s
    | none => s
  let s := if c.io then { s with cmd := { s.cmd with idleFrom := s.now } } else s
  dropCmd c.seq (noteError c status s)

/-- A command that completes on its own, in no order. -/
def completeNow (c : Cmd) (status : Nat) (s : State) : State := postCompletion c status 0 0 s

/-- A write-pool command of a sequential zone has an earlier one of its zone still uncompleted (R163). -/
def zoneTurnWaits (s : State) (c : Cmd) : Bool :=
  match c.zone with
  | none => false
  | some g => s.cmd.cmds.any fun x => x.pool == 1 && (x.zone == some g || x.zset.contains g) && decide (x.seq < c.seq)

/-- The result of a command that completes: for Zone Append the LBA given (R163). -/
def resultLo (c : Cmd) : Nat := if isAppend c.cap.opc then c.slba % 2 ^ 32 else 0
def resultHi (c : Cmd) : Nat := if isAppend c.cap.opc then c.slba / 2 ^ 32 else 0

/-- Commands that have taken effect complete, each when its zone's turn comes (R163). The fuel bounds how many. -/
def postEffective : Nat → State → State
  | 0, s => s
  | n + 1, s =>
    match s.cmd.cmds.find? fun c => c.phase == .effective && !zoneTurnWaits s c with
    | none => s
    | some c =>
      postEffective n (postCompletion c c.status (if c.status = 0 then resultLo c else 0) (if c.status = 0 then resultHi c else 0) s)

/-- All completions that are due. -/
def postDue (s : State) : State := postEffective s.cmd.cmds.length s

/-- A command marked as having taken effect with a status; its completion follows in its turn (R163). -/
def markEffective (c : Cmd) (status : Nat) (s : State) : State :=
  postDue (putCmd { c with phase := .effective, status := status } s)

/-! ### Supersession (R172) -/

/-- A read that has not chosen its sources still needs a record that later records up to `hi` supersede. -/
def readNeeds (s : State) (r : EntryRec) (hi : Nat) : Bool :=
  s.cmd.cmds.any fun c => c.io && (isRead c.cap.opc || isVerify c.cap.opc) && (c.phase == .fresh || c.phase == .waiting)
    && c.cap.nsid == r.nsid && rangesMeet c.slba c.nlb r.slba r.nlb && decide (r.seq < c.seq) && decide (c.seq < hi)

/-- The committed records that overwrite a block of a record. -/
def overwriters (s : State) (r : EntryRec) (lba : Nat) : List EntryRec :=
  (s.jrn.recs.map (·.2)).filter fun x => decide (2 ≤ x.state) && decide (x.state ≤ 4) && x.nsid == r.nsid
    && decide (r.seq < x.seq) && decide (x.slba ≤ lba) && decide (lba < x.slba + x.nlb)

/-- Every block of a record is overwritten by later committed records and no earlier read needs it (R172). A deferred
record leaves so only in a conventional namespace (R193). -/
def superseded (s : State) (r : EntryRec) : Bool :=
  (r.state == 2 || (r.state == 4 && !isZoned s.cmd.fmt r.nsid))
    && ((List.range r.nlb).all fun k => !(overwriters s r (r.slba + k)).isEmpty)
    && !readNeeds s r (((List.range r.nlb).flatMap fun k => (overwriters s r (r.slba + k)).map (·.seq)).foldl max 0)

/-- Destage entries of records that no longer wait to be destaged are withdrawn. -/
def pruneSched (s : State) : State :=
  keepEntries (fun e => e.kind != 1 || (getRec s e.rcd).state == 2 || (getRec s e.rcd).state == 3) s

/-- Superseded records leave the journal (R172). -/
def sweep (s : State) : State :=
  let gone := (s.jrn.recs.filter fun e => superseded s e.2)
  pruneSched (gone.foldl (fun t e => if e.2.state = 4 then freeDeferred e.1 t else leaveJournal e.1 t) s)

/-! ### Discarding (R164) -/

/-- A command that takes no effect waits for its zone's turn to complete with a status (R163); data still under way for it
is dropped as it arrives (log 104). -/
def markGone (c : Cmd) (status : Nat) (s : State) : State :=
  let s := match c.ctx with
    | some x => (match getCtx s x with
      | some k => if c.r2ts.isEmpty then s else setCtx x (some { k with stale := k.stale ++ c.r2ts.map R2T.tag }) s
      | none => s)
    | none => s
  putCmd { c with phase := .effective, status := status, gone := true, r2ts := [] }
    { s with cmd := { s.cmd with waits := s.cmd.waits.filter (· != c.seq) } }

/-- The commands of a zone discarded with one: later Writes, Zone Appends and Write Zeroes not yet completed, up to the
first Reset or Finish of the zone taken in after it. -/
def discardedWith (s : State) (c : Cmd) (g : Nat) : List Cmd :=
  let later := s.cmd.cmds.filter fun x => decide (c.seq < x.seq) && x.zone == some g && !x.gone
  let stop := (s.cmd.cmds.filter fun x => decide (c.seq < x.seq) && stopsDiscard g x).map (·.seq)
  later.filter fun x => placesBlocks x && !stop.any (fun q => decide (q < x.seq))

/-- A zone as intake sees it after a Zone Management Send action: 1 close, 2 finish, 3 open, 4 reset, 5 offline (R180). -/
def izAfter (action : Nat) (z : IZone) : IZone :=
  match action with
  | 1 => if zOpen z.st then { z with st := 3 } else z
  | 2 => if z.st ≤ 3 then { z with st := 4 } else z
  | 3 => if z.st = 0 ∨ z.st = 1 ∨ z.st = 3 then { z with st := 2 } else z
  | 4 => if z.st ≤ 4 then {} else z
  | 5 => if z.st = 5 then { z with st := 6 } else z
  | _ => z

/-- The zones that a Zone Management Send selects, by global index: with Select All set, those that intake found it to
change. -/
def zmsZones (s : State) (c : Cmd) : List Nat :=
  if bit c.cap.cdw13 8 then c.zset else [zoneOfLba s.cmd.fmt c.cap.nsid c.slba]

/-- A command in flight acts on a zone. -/
def actsOnZone (s : State) (g : Nat) (x : Cmd) : Bool :=
  x.io && !x.gone && ((placesBlocks x && x.zone == some g) || (isZms x.cap.opc && x.phase != .effective && (zmsZones s x).contains g))

/-- A zone as it will stand once every command in flight has taken effect: from its durable state and the records of
completed commands, the commands in flight in intake order (R163). -/
def zoneAhead (g : Nat) (s : State) : IZone :=
  let f := s.cmd.fmt
  let z := getZone s g
  let flying := s.cmd.cmds.filter (actsOnZone s g)
  let done := s.jrn.recs.filter fun e => decide (2 ≤ e.2.state) && decide (e.2.state ≤ 4) && isZoned f e.2.nsid
    && zoneOfLba f e.2.nsid e.2.slba == g && !(flying.any fun x => x.seq == e.2.seq)
  let base : IZone := { st := z.zstate, wp := done.foldl (fun w e => max w (e.2.slba % 65536 + e.2.nlb)) z.mediaWp,
                        lastSeq := (getIZ s g).lastSeq }
  flying.foldl (fun i x =>
    if placesBlocks x then
      let wp := x.slba % 65536 + x.nlb
      let st := if 5 ≤ z.zstate ∨ z.zfc = true then i.st else if zoneCap f g ≤ wp then 4 else if i.st = 2 then 2 else 1
      { st := st, wp := wp, lastSeq := x.seq }
    else izAfter (zsa x) i) base

/-- The commands discarded with one in a zone complete with Zone Invalid Write, in their turn, and intake sees the zone
without them. A zone that only discarded writes opened is Empty again, and one that only they filled is not Full (R164). -/
def discardInZone (c : Cmd) (g : Nat) (s : State) : State :=
  let s := (discardedWith s c g).foldl (fun t x => markGone x stZoneInvalidWrite (freeCommand x.seq t)) s
  let stopped := s.cmd.cmds.any fun x => decide (c.seq < x.seq) && stopsDiscard g x
  if stopped then s
  else
    let z := getZone s g
    let s := if z.zfc then s
      else if zoneWp s g = 0 ∧ (z.zstate = 1 ∨ (z.zstate = 4 ∧ placesBlocks c = true)) then setZState g 0 s
      else if z.zstate = 4 ∧ placesBlocks c = true then setZState g 1 s else s
    let i := zoneAhead g s
    setIZ g (if placesBlocks c then { i with wp := c.slba % 65536 } else i) s

/-- A write-pool command discarded after intake: its reservation is released, and in its zones the commands behind it
are discarded too (R164). `status` is what it completes with, none where its completion is discarded (R152). -/
def discard (c : Cmd) (status : Option Nat) (s : State) : State :=
  let zs := if isZms c.cap.opc then zmsZones s c
    else match c.zone with | some g => if placesBlocks c then [g] else [] | none => []
  let s := if isZms c.cap.opc then s else freeCommand c.seq s
  let s := match status with
    | some st => markGone c st s
    | none => dropCmd c.seq s
  postDue (sweep (zs.foldl (fun t g => discardInZone c g t) s))

/-! ### Effects in intake order (R162) -/

/-- An earlier write-pool command that overlaps has neither taken effect nor been discarded (R162). -/
def blockedBy (s : State) (q nsid lba n : Nat) : Bool :=
  s.cmd.cmds.any fun c => c.pool == 1 && decide (c.seq < q) && (c.phase != .effective) && !isFlush c.cap.opc
    && (c.cap.nsid == nsid) && (if isZms c.cap.opc && bit c.cap.cdw13 8 then true else rangesMeet c.slba c.nlb lba n)

/-- An earlier read that overlaps has not chosen its sources (R162). -/
def readBefore (s : State) (q nsid lba n : Nat) : Bool :=
  s.cmd.cmds.any fun c => c.io && (isRead c.cap.opc || isVerify c.cap.opc) && (c.phase == .fresh || c.phase == .waiting)
    && decide (c.seq < q) && (c.cap.nsid == nsid) && rangesMeet c.slba c.nlb lba n

/-- The records of a zone with intake numbers below a command's. -/
def zoneRecs (s : State) (g q : Nat) : List (Nat × EntryRec) :=
  s.jrn.recs.filter fun e => decide (2 ≤ e.2.state) && decide (e.2.state ≤ 4) && isZoned s.cmd.fmt e.2.nsid
    && zoneOfLba s.cmd.fmt e.2.nsid e.2.slba == g && decide (e.2.seq < q)

/-- A zone's records voided by a reset or offline: they leave without destage, and deferred errors of the zone are
resolved (R172, R193). -/
def voidZone (g q : Nat) (s : State) : State :=
  pruneSched ((zoneRecs s g q).foldl (fun t e => if e.2.state = 4 then freeDeferred e.1 t else leaveJournal e.1 t) s)

/-- The blocks a committed command places in a zone open it, advance it and fill it (R178); a zone that the device has
closed meanwhile to make room stays closed. -/
def zoneWritten (g : Nat) (s : State) : State :=
  let z := getZone s g
  let closed := (getIZ s g).st == 3 && !(s.cmd.cmds.any fun x => isZms x.cap.opc && actsOnZone s g x)
  let s := if z.zstate = 0 ∨ z.zstate = 3 then setZState g (if closed then 3 else 1) s else s
  if zoneCap s.cmd.fmt g ≤ zoneWp s g ∧ z.zstate ≤ 3 then setZState g 4 s else s

/-- Staging copies of some blocks serve only reads below an intake number from now on (R175). -/
def limitStaged (p : Staged → Bool) (q : Nat) (s : State) : State :=
  { s with cmd := { s.cmd with staged := mapIf p (fun x => { x with below := some (min q (x.below.getD q)) }) s.cmd.staged } }

/-- A staging copy lies in a zone. -/
def stagedIn (s : State) (g : Nat) (x : Staged) : Bool := isZoned s.cmd.fmt x.nsid && zoneOfLba s.cmd.fmt x.nsid x.lba == g

/-- One zone changed by a Zone Management Send as it takes effect (R166, R172, R178, R180, R181). -/
def zmsEffect (c : Cmd) (g : Nat) (s : State) : State :=
  let z := getZone s g
  match zsa c with
  | 1 => if z.zstate = 1 ∨ z.zstate = 2 then setZState g 3 s else s
  | 2 => if z.zstate ≤ 3 then setZState g 4 s else s
  | 3 => if z.zstate = 0 ∨ z.zstate = 1 ∨ z.zstate = 3 then setZState g 2 s else s
  | 4 =>
    if z.zstate = 0 ∨ 5 ≤ z.zstate then s
    else
      let s := limitStaged (stagedIn s g) c.seq (voidZone g c.seq s)
      let j := s.jrn
      let s := { s with jrn := { j with zoneResets := smSet (fun _ => 0) j.zoneResets g (smGet (fun _ => 0) j.zoneResets g + 1),
                                        placedEnd := smSet (fun _ => 0) j.placedEnd g 0 } }
      setZone g { zstate := 0, zgen := (z.zgen + 1) % 65536 } s
  | 5 =>
    if z.zstate = 5 then
      let n := (zoneRecs s g c.seq).length
      record srcCmd 0x68 [g, n] (setZState g 6 (voidZone g c.seq s))
    else s
  | _ => s

/-- The status of a Zone Management Send as it takes effect: the zone it names may have become Read Only or Offline since
its intake (R180, R181). -/
def zmsLate (s : State) (c : Cmd) : Nat :=
  if bit c.cap.cdw13 8 || zsa c == 5 then stOk
  else match (getZone s (zoneOfLba s.cmd.fmt c.cap.nsid c.slba)).zstate with
    | 5 => stZoneReadOnly
    | 6 => stZoneOffline
    | _ => stOk

/-- A Zone Management Send takes effect. -/
def zmsTakesEffect (c : Cmd) (s : State) : State :=
  markEffective c (zmsLate s c) ((zmsZones s c).foldl (fun t g => zmsEffect c g t) s)

/-- The first command that waits only for its turn and whose turn has come: a Zone Management Send with no earlier
overlapping command left (R162). -/
def dueZms (s : State) : Option Cmd :=
  s.cmd.cmds.find? fun c =>
    let lba := if bit c.cap.cdw13 8 then 0 else c.slba
    let n := if bit c.cap.cdw13 8 then nsBlocks s.cmd.fmt c.cap.nsid else c.nlb
    c.io && isZms c.cap.opc && c.phase == .waiting && !blockedBy s c.seq c.cap.nsid lba n && !readBefore s c.seq c.cap.nsid lba n

/-! ### Staging buffers (R42, R43, R161) -/

/-- Blocks of a staging buffer of 1 GiB. -/
abbrev stagingBlocks : Nat := 262144

/-- Blocks of the read staging buffer that are held: by reads whose media work is queued, and by data that hosts have not
acknowledged. Copies kept for later reads give way. -/
def readHeld (s : State) : Nat := (s.cmd.cmds.map (·.bufs)).sum + unackedBlocks s

/-- Blocks of the write staging buffer that are held: by destage entries of the schedulers. -/
def writeHeld (s : State) : Nat :=
  (s.cmd.sched.map fun e => (((e.2.queue ++ e.2.window ++ e.2.running).filter fun x => x.kind == 1).map (·.nlb)).sum).sum

/-- Copies kept for later reads, the latest first, give way to the reads that hold room (log 105). -/
def trimStaged (s : State) : State :=
  { s with cmd := { s.cmd with staged := s.cmd.staged.take (stagingBlocks - readHeld s) } }

/-- An entry of media work takes room in its staging buffer and joins its actuator's admission queue; without room it waits,
behind those that wait already, holding nothing later in the order (R43, R194). -/
def admitEntry (e : SchedEnt) (s : State) : State :=
  let held := if e.kind = 1 then writeHeld s else readHeld s
  if (s.cmd.bufWaits.any fun x => (x.kind == 1) == (e.kind == 1)) || decide (stagingBlocks < held + e.nlb) then
    { s with cmd := { s.cmd with bufWaits := s.cmd.bufWaits ++ [e] } }
  else
    let n := actOfLba s.cmd.fmt e.nsid e.lba
    let d := getSched s n
    let s := setSched n { d with queue := d.queue ++ [e] } s
    if e.kind = 0 then
      trimStaged (match findCmd s e.seq with | some c => putCmd { c with bufs := c.bufs + e.nlb } s | none => s)
    else s

/-- Entries that wait for staging room try again, in order. -/
def admitWaiting (s : State) : State :=
  if s.cmd.bufWaits.isEmpty then s
  else s.cmd.bufWaits.foldl (fun t e => admitEntry e t) { s with cmd := { s.cmd with bufWaits := [] } }

/-! ### Commit (R162, R171) -/

/-- Destage entries for a command's committed records; their age counts from the commit (R194). -/
def queueDestage (q : Nat) (s : State) : State :=
  (recsOfSeq s q).foldl (fun t e =>
    let r := e.2
    if r.state = 2 then admitEntry { kind := 1, seq := r.seq, rcd := e.1, nsid := r.nsid, lba := r.slba, nlb := r.nlb, since := r.since } t
    else t) s

/-- An earlier Zone Management Send that overlaps has not taken effect: a write waits for it (R162). -/
def zmsBefore (s : State) (c : Cmd) : Bool :=
  s.cmd.cmds.any fun x => x.io && isZms x.cap.opc && decide (x.seq < c.seq) && x.phase != .effective && x.cap.nsid == c.cap.nsid
    && (bit x.cap.cdw13 8 || rangesMeet x.slba x.nlb c.slba c.nlb)

/-- The status of a write, append or Write Zeroes as it would take effect: its zone may have become Read Only, Offline, or
Full by the controller, since its intake (R180, R181, R190). -/
def writeLate (s : State) (c : Cmd) : Nat :=
  match c.zone with
  | none => stOk
  | some g =>
    let z := getZone s g
    if z.zstate = 6 then stZoneOffline else if z.zstate = 5 then stZoneReadOnly
    else if z.zstate = 4 ∧ z.zfc = true then stZoneFull else stOk

/-- The command's records are written committed, in PIECE order; it has taken effect (R171). A state that no longer allows
it turns it away, with nothing changed (R180). -/
def commitNow (c : Cmd) (s : State) : State :=
  if writeLate s c ≠ stOk then sweep (markGone c (writeLate s c) (freeCommand c.seq s))
  else
    let s := (recsOfSeq s c.seq).foldl (fun t e => setRec e.1 { e.2 with state := 2, since := s.now } t) s
    let s := limitStaged (fun x => x.nsid == c.cap.nsid && rangesMeet x.lba 1 c.slba c.nlb) c.seq (queueDestage c.seq (syncDesc s))
    let s := match c.zone with | some g => zoneWritten g s | none => s
    sweep (markEffective c stOk s)

/-- A write all of whose data is in its slots and whose turn has come (R162). -/
def dueWrite (s : State) : Option Cmd := s.cmd.cmds.find? fun c => c.ready && c.phase == .reserved && !zmsBefore s c

/-- Everything that has become due takes effect. The fuel bounds how many commands. -/
def runDue : Nat → State → State
  | 0, s => s
  | n + 1, s =>
    match dueZms s with
    | some c => runDue n (zmsTakesEffect c s)
    | none =>
      match dueWrite s with
      | some c => runDue n (commitNow c s)
      | none => admitWaiting (postDue s)

/-- Everything that has become due takes effect and completes. -/
def progress (s : State) : State := runDue (s.cmd.cmds.length + 1) s

/-- A command whose data is all in its slots commits, once no earlier Zone Management Send that overlaps is left. -/
def commit (c : Cmd) (s : State) : State :=
  progress (if zmsBefore s c then putCmd { c with ready := true } s else commitNow c s)

/-- The slots of the blocks whose bytes have all arrived are written with their tags (R169). -/
def placeBlocks (c : Cmd) (s : State) : State :=
  let bb := blockBytes s.cmd.fmt c.cap.nsid
  (recsOfSeq s c.seq).foldl (fun t e =>
    forTo (fun k u =>
      match slotOf e.2 (e.2.slba + k) with
      | none => u
      | some i =>
        let b := dataBytes c.data ((e.2.slba + k - c.slba) * bb) bb
        setSlot i { lba := e.2.slba + k, nsid := c.cap.nsid, seqLo := c.seq % 2 ^ 32, pi := b.drop 4096, data := b.take 4096 } u)
      e.2.nlb t) s

/-- The bytes of data that an admin command takes from the host: Firmware Image Download, Security Send, and Set Features
of Timestamp and of the power state transition table (R143, R144, R146). -/
def adminBytes (c : Capsule) : Nat :=
  match c.opc with
  | 0x11 => (c.cdw10 + 1) * 4
  | 0x81 => c.cdw11
  | 0x09 => if bits c.cdw10 0 8 = 0x0E then 8 else if bits c.cdw10 0 8 = 0x0C then 256 else 0
  | _ => 0

/-- The bytes of a command's data. -/
def wantBytes (s : State) (c : Cmd) : Nat := if c.io then c.nlb * blockBytes s.cmd.fmt c.cap.nsid else adminBytes c.cap

/-- How many bytes of a command's data have arrived. -/
def gotBytes (c : Cmd) : Nat := (c.data.map fun p => p.2.length).sum

/-! ### Ready-to-Transfer (R140) -/

/-- A context's commands with R2Ts outstanding. -/
def r2tCommands (s : State) (x : Nat) : Nat := (s.cmd.cmds.filter fun c => c.ctx == some x && !c.r2ts.isEmpty).length

/-- The next R2T of a command: at most 1 MiB, ending on a 1 MiB boundary of its data; at most MAXR2T + 1 outstanding,
and at most 32 commands of a context (R140). No R2T is sent once a power-fail sequence is recognized (R63). -/
def nextR2t (c : Cmd) (s : State) : Option Cmd :=
  match c.ctx with
  | none => none
  | some x =>
    match getCtx s x with
    | none => none
    | some k =>
      let total := wantBytes s c
      if c.phase != .reserved || decide (total ≤ c.r2tNext) || decide (k.maxR2t + 1 ≤ c.r2ts.length)
          || (c.r2ts.isEmpty && decide (32 ≤ r2tCommands s x)) || s.pwr.phase != .running then none
      else
        let n := min (total - c.r2tNext) (1048576 - c.r2tNext % 1048576)
        some { c with r2ts := c.r2ts ++ [{ tag := s.cmd.nextTag, off := c.r2tNext, len := n }], r2tNext := c.r2tNext + n }

/-- R2Ts issued for a command while the limits allow. The fuel bounds how many. -/
def issueR2ts : Nat → Nat → State → State
  | 0, _, s => s
  | n + 1, q, s =>
    match findCmd s q with
    | none => s
    | some c =>
      match nextR2t c s with
      | none => s
      | some c' =>
        match c'.r2ts.getLast? with
        | none => s
        | some r =>
          let s := putCmd c' { s with cmd := { s.cmd with nextTag := (s.cmd.nextTag + 1) % 65536 } }
          issueR2ts n q (emit (.r2t (c.ctx.getD 0) c.cap.cid r.tag r.off r.len) s)

/-- R2Ts issued for every reserved command, oldest first. -/
def issueAll (s : State) : State :=
  (s.cmd.cmds.filter fun c => c.phase == .reserved).foldl (fun t c => issueR2ts 17 c.seq t) s

/-! ### Reservation (R168, R170) -/

/-- A command's records reserved: one per piece, with runs of free chunks. -/
def reserveRecs (c : Cmd) (hi : Nat) : List (Nat × Nat) → Nat → List Nat → State → State
  | [], _, _, s => s
  | (lba, n) :: rest, k, chunks, s =>
    let m := if isZeroes c.cap.opc then 0 else chunksFor n
    let r : EntryRec := { state := 1, kind := if isAppend c.cap.opc then 2 else if isZeroes c.cap.opc then 3 else 1, piece := k,
                          pieces := (pieces c.slba c.nlb).length, nsid := c.cap.nsid, slba := lba, nlb := n, hostIdx := hi,
                          seq := c.seq, runs := if isZeroes c.cap.opc then [] else runsOf (chunks.take m) n }
    reserveRecs c hi rest (k + 1) (chunks.drop m) (setRec (freeRec s) r s)

/-- Chunks a command takes. -/
def cmdChunks (c : Cmd) : Nat := if isZeroes c.cap.opc then 0 else ((pieces c.slba c.nlb).map fun p => chunksFor p.2).sum

/-- Whether the oldest waiting command can be granted whole now. -/
def canReserve (s : State) (c : Cmd) : Bool :=
  decide (32 * cmdChunks c ≤ jrnFree s) && decide ((pieces c.slba c.nlb).length ≤ jrnRecordsFree s)

/-- Every host table entry is referred to only by deferred records and pending errors (R168). -/
def hostsOnlyDeferred (s : State) : Bool :=
  s.jrn.hosts.all fun e => !(s.jrn.recs.any fun r => r.2.hostIdx == e.1 && decide (1 ≤ r.2.state) && decide (r.2.state ≤ 3))

/-- The oldest waiting command is granted its reservation, whole, or goes on waiting (R170). -/
def grantNext (s : State) : State :=
  match s.cmd.waits with
  | [] => s
  | q :: rest =>
    match findCmd s q with
    | none => { s with cmd := { s.cmd with waits := rest } }
    | some c =>
      match takeHostIdx s c.hostNqn c.hostId with
      | none =>
        if hostsOnlyDeferred s then discard c (some stInterrupted) (record srcCmd 0x61 [c.seq, stInterrupted] s) else s
      | some hi =>
        if !canReserve s c then s
        else
          let s := { s with cmd := { s.cmd with waits := rest },
                            jrn := { s.jrn with hosts := smSet (fun _ => none) s.jrn.hosts hi (some (c.hostNqn, c.hostId)) } }
          let chunks := freeChunks (usedChunks s) (jrnSlots s / 32) 0 (cmdChunks c)
          let s := syncDesc (reserveRecs c hi (pieces c.slba c.nlb) 0 chunks s)
          let c := { c with phase := .reserved }
          let s := putCmd c s
          if isZeroes c.cap.opc then commit c s
          else if c.cap.data.isEmpty then issueR2ts 17 q s
          else
            let c := { c with data := [(0, c.cap.data)] }
            if c.digestBad then discard c (some stTransient) (putCmd c s)
            else commit c (placeBlocks c (putCmd c s))

/-! ### Reads (R162, R175, R176, R179) -/

/-- The version of a block that a read of intake number `q` is to see in the journal: the record with the highest
intake number below `q` that covers the block. -/
def journalVersion (s : State) (nsid lba q : Nat) : Option (Nat × EntryRec) :=
  (s.jrn.recs.filter fun e => decide (2 ≤ e.2.state) && decide (e.2.state ≤ 4) && e.2.nsid == nsid && decide (e.2.seq < q)
    && decide (e.2.slba ≤ lba) && decide (lba < e.2.slba + e.2.nlb)).foldl
    (fun best e => match best with | none => some e | some b => if b.2.seq < e.2.seq then some e else some b) none

/-- The MRAM address of a data slot (R165). -/
def slotAddr (i : Nat) : Nat := mramBase + 0x01800000 + i * 4096

/-- A slot answers with an uncorrectable error, or recovery has discarded it (R169, R176). -/
def slotBad (s : State) (i : Nat) : Bool :=
  (getSlot s i).lost || s.bad.any fun e => decide (slotAddr i ≤ e.1 * 64) && decide (e.1 * 64 < slotAddr i + 4096)

/-- An unwritten block's bytes: zeros, and 0xFF protection information under LBAF 1 (R179). -/
def unwritten (s : State) (nsid : Nat) : List Byte :=
  zeros 4096 ++ (if lbaf s.cmd.fmt nsid = 1 then List.replicate 16 0xFF else [])

/-- The end of a zone that a read of intake number `q` meets: what lies on the medium and the records below `q` (R162,
R166, R179). -/
def zoneEnd (s : State) (g q : Nat) : Nat :=
  (zoneRecs s g q).foldl (fun w e => max w (e.2.slba % 65536 + e.2.nlb))
    (max (getZone s g).mediaWp (smGet (fun _ => 0) s.jrn.placedEnd g))

/-- Where a block of a read comes from. -/
inductive Source where
  | bytes (b : List Byte)
  | journalError (rcd : Nat)
  | medium
  | fail (status : Nat)
  deriving DecidableEq, Repr

/-- A block's protection information as the namespace's format carries it. -/
def withPi (s : State) (nsid : Nat) (x : Slot) : List Byte :=
  padTo 4096 x.data ++ (if lbaf s.cmd.fmt nsid = 1 then padTo 16 x.pi else [])

/-- A block has been placed on the medium since its zone's reset or its namespace's format, or a read of intake number `q`
finds it below the end of its zone (R179). -/
def written (s : State) (nsid lba q : Nat) : Bool :=
  if isZoned s.cmd.fmt nsid then decide (lba % 65536 < zoneEnd s (zoneOfLba s.cmd.fmt nsid lba) q)
  else s.jrn.convWritten.any fun e => e.1 == nsid && rangesMeet lba 1 e.2.1 e.2.2

/-- The source of one block of a read (R175, R176, R179, R180, R181). -/
def sourceOf (s : State) (nsid lba q : Nat) : Source :=
  match journalVersion s nsid lba q with
  | some (i, r) =>
    if r.kind = 3 then .bytes (unwritten s nsid)
    else match slotOf r lba with
      | some k => if slotBad s k then .journalError i else .bytes (withPi s nsid (getSlot s k))
      | none => .bytes (unwritten s nsid)
  | none =>
    let f := s.cmd.fmt
    let g := zoneOfLba f nsid lba
    let act := actOfLba f nsid lba
    match s.cmd.staged.find? fun x => x.nsid == nsid && x.lba == lba && x.below.all fun b => decide (q < b) with
    | some x => .bytes x.data
    | none =>
      if (if isZoned f nsid then (getZone s g).zstate == 5 else headBad s act (convHead f nsid lba)) then .fail stUnrecoveredRead
      else if !written s nsid lba q then .bytes (unwritten s nsid)
      else if (getSched s act).st = 5 then .fail stActUnavailable
      else .medium

/-- The blocks of a range that only the medium holds. -/
def mediaBlocks (s : State) (nsid lba n q : Nat) : List Nat :=
  (List.range n).filter fun k => sourceOf s nsid (lba + k) q == .medium

/-- Data sent to the host of a command (R134, R137). -/
def sendData (c : Cmd) (data : List Byte) (s : State) : State :=
  match c.ctx with
  | some x => sendC2h x c.seq c.cap.cid data s
  | none => s

/-- A read's data goes to the host, padded as HPDA asks, and the read completes; Verify transfers nothing. -/
def finishRead (c : Cmd) (s : State) : State :=
  postCompletion c stOk 0 0 (if isRead c.cap.opc then sendData c (readBlocks c).flatten s else s)

/-- A read that has every block completes. -/
def serveRead (c : Cmd) (s : State) : State := if c.want.isEmpty then finishRead c s else putCmd c s

/-- Media work of a read joins its actuators' admission queues: one entry for each run of blocks on one actuator
(R194). -/
def mediaRuns (f : Fmt) (nsid lba : Nat) : List Nat → List (Nat × Nat × Nat)
  | [] => []
  | k :: ks =>
    let n := actOfLba f nsid (lba + k)
    match mediaRuns f nsid lba ks with
    | (m, a, len) :: rest => if m = n ∧ a = lba + k + 1 then (n, lba + k, len + 1) :: rest else (n, lba + k, 1) :: (m, a, len) :: rest
    | [] => [(n, lba + k, 1)]

def queueMedia (c : Cmd) (ks : List Nat) (s : State) : State :=
  (mediaRuns s.cmd.fmt c.cap.nsid c.slba ks).foldl (fun t (_, a, len) =>
    admitEntry { kind := 0, seq := c.seq, rcd := 0, nsid := c.cap.nsid, lba := a, nlb := len, since := c.since } t) s

/-- Once no earlier overlapping command is left, a read chooses the source of each block: journal, staging or medium
(R162, R175). A journal block with an uncorrectable error is not served, and no older version takes its place (R176); its
record goes on to destage, which places the intact blocks and defers the record for the lost ones (R35). -/
def chooseSources (c : Cmd) (s : State) : State :=
  let src := (List.range c.nlb).map fun k => (k, sourceOf s c.cap.nsid (c.slba + k) c.seq)
  match src.findSome? fun e => (match e.2 with | .journalError i => some i | _ => none) with
  | some i =>
    let r := getRec s i
    let s := breachBlock i ((recSlots r).all (slotBad s)) s
    sweep (postCompletion c stUnrecoveredRead 0 0 s)
  | none =>
    match src.findSome? fun e => (match e.2 with | .fail st => some st | _ => none) with
    | some st => sweep (postCompletion c st 0 0 s)
    | none =>
      let have_ : SMap (List Byte) := src.filterMap fun e => (match e.2 with | .bytes b => some (e.1, b) | _ => none)
      let want := (src.filter fun e => e.2 == .medium).map (·.1)
      let c := { c with phase := .media, want := want, have_ := have_ }
      if want.isEmpty then sweep (finishRead c s) else sweep (queueMedia c want (putCmd c s))

/-- The medium holds the newest version of a block, so that a copy of it may serve later reads (R175). -/
def mediumNewest (s : State) (nsid lba : Nat) : Bool :=
  (journalVersion s nsid lba s.cmd.nextSeq).isNone && written s nsid lba s.cmd.nextSeq

/-- Confirmed data of a block enters the read staging buffer, where the medium holds the newest version, and serves the
reads that wait for it (R30, R175). -/
def stageBlock (nsid lba : Nat) (data : List Byte) (s : State) : State :=
  let s := if mediumNewest s nsid lba then
      trimStaged { s with cmd := { s.cmd with staged := { nsid, lba, data } :: s.cmd.staged.filter fun x => !(x.nsid == nsid && x.lba == lba) } }
    else s
  (s.cmd.cmds.filter fun c => c.phase == .media && c.cap.nsid == nsid && decide (c.slba ≤ lba) && c.want.contains (lba - c.slba)).foldl
    (fun t c => serveRead { c with want := c.want.filter (· != lba - c.slba), have_ := smInsert c.have_ (lba - c.slba) data } t) s

/-- Reads that wait for a block of the medium that a test picks complete with a status. -/
def failReads (p : Nat → Nat → Bool) (status : Nat) (s : State) : State :=
  (s.cmd.cmds.filter fun c => c.phase == .media && c.want.any fun k => p c.cap.nsid (c.slba + k)).foldl (fun t c => postCompletion c status 0 0 t) s

/-- A block of the medium that cannot be recovered: the reads that wait for it complete with a status (R27). -/
def failBlock (nsid lba status : Nat) (s : State) : State := failReads (fun n a => n == nsid && a == lba) status s

/-- An actuator is declared UNAVAILABLE: reads that wait for it complete with Actuator Unavailable (R126, R150, R180). -/
def declareUnavailable (n : Nat) (s : State) : State :=
  failReads (fun nsid a => actOfLba s.cmd.fmt nsid a == n) stActUnavailable (setSched n { getSched s n with st := 5 } s)

/-- Zones on the surface of a head that is absent or faulty become Read Only, and reads that wait for its blocks complete
with Unrecovered Read Error (R181). -/
def failHeads (s : State) : State :=
  let s := failSurfaces s
  failReads (fun nsid a =>
    if isZoned s.cmd.fmt nsid then zoneHeadBad s (zoneOfLba s.cmd.fmt nsid a)
    else headBad s (actOfLba s.cmd.fmt nsid a) (convHead s.cmd.fmt nsid a)) stUnrecoveredRead s

/-- Some read waits for a block of the medium. -/
def wanted (s : State) (nsid lba : Nat) : Bool :=
  s.cmd.cmds.any fun c => c.phase == .media && c.cap.nsid == nsid && decide (c.slba ≤ lba) && c.want.contains (lba - c.slba)

/-- Blocks in order gathered into runs, as first block and length. -/
def blockRuns : List Nat → List (Nat × Nat)
  | [] => []
  | b :: bs => match blockRuns bs with
    | (a, n) :: rest => if a = b + 1 then (b, n + 1) :: rest else (b, 1) :: (a, n) :: rest
    | [] => [(b, 1)]

/-- Blocks of a media entry that reads still wait for return to the scheduler as entries, at the front (R40, R187). -/
def returnBlocks (n : Nat) (e : SchedEnt) (blocks : List Nat) (s : State) : State :=
  let d := getSched s n
  let es := (blockRuns (blocks.filter (wanted s e.nsid))).map fun (a, k) => { e with lba := a, nlb := k }
  if es.isEmpty then s else setSched n { d with queue := es ++ d.queue } s

/-- One block that a read still waits for returns to the scheduler as an entry of the oldest such read (R40). -/
def returnBlock (n nsid lba : Nat) (s : State) : State :=
  match s.cmd.cmds.find? fun c => c.phase == .media && c.cap.nsid == nsid && decide (c.slba ≤ lba) && c.want.contains (lba - c.slba) with
  | some c => returnBlocks n { kind := 0, seq := c.seq, rcd := 0, nsid := nsid, lba := lba, nlb := 1, since := c.since } [lba] s
  | none => s

/-! ### Schedulers (R161, R194) -/

/-- Entries of the admission queue enter the window in order: at most 256, at most 192 of reads and of writes. The
fuel bounds how many. -/
def fillWindow : Nat → Sched → Sched
  | 0, c => c
  | n + 1, c =>
    match c.queue with
    | [] => c
    | e :: q =>
      let same := (c.window.filter fun x => (x.kind == 1) == (e.kind == 1)).length
      if 256 ≤ c.window.length ∨ 192 ≤ same then c else fillWindow n { c with queue := q, window := c.window ++ [e] }

/-- An entry's age exceeds AGE_LIMIT; patrol entries never age (R194). -/
def aged (s : State) (n : Nat) (e : SchedEnt) : Bool :=
  e.kind != 2 && decide (regF s (aSchCfg n) 0 11 * 1000000 < s.now - e.since)

/-- Free slots are below DESTAGE_PCT percent of JRN_SLOTS (R194). -/
def destagePressed (s : State) (n : Nat) : Bool :=
  decide (100 * jrnFree s < regF s (aSchCfg n) 16 7 * jrnSlots s)

/-- A destage entry may be served: its surface is not lost; no earlier read waits for a block that it overwrites, and no
earlier record that it overlaps is still to be destaged, so that older versions reach the medium first (R162); in a zone
nothing before it waits to commit, to take effect or to be destaged, so that blocks reach the band in write-pointer order
(R172, R181). -/
def destageReady (s : State) (e : SchedEnt) : Bool :=
  let f := s.cmd.fmt
  if e.kind != 1 then true
  else if s.cmd.cmds.any fun c => c.phase == .media && c.cap.nsid == e.nsid && decide (c.seq < e.seq)
      && c.want.any (fun k => decide (e.lba ≤ c.slba + k) && decide (c.slba + k < e.lba + e.nlb)) then false
  else if !isZoned f e.nsid then
    !headBad s (actOfLba f e.nsid e.lba) (convHead f e.nsid e.lba)
      && !(s.jrn.recs.any fun x => decide (1 ≤ x.2.state) && decide (x.2.state ≤ 3) && x.2.nsid == e.nsid && decide (x.2.seq < e.seq)
        && rangesMeet x.2.slba x.2.nlb e.lba e.nlb)
  else
    let g := zoneOfLba f e.nsid e.lba
    (getZone s g).zstate != 5
      && !(s.jrn.recs.any fun x => decide (1 ≤ x.2.state) && decide (x.2.state ≤ 3) && isZoned f x.2.nsid
        && zoneOfLba f x.2.nsid x.2.slba == g
        && (decide (x.2.seq < e.seq) || (x.2.seq == e.seq && decide (x.2.slba < e.lba))))
      && !(s.cmd.cmds.any fun x => decide (x.seq < e.seq) && x.phase != .effective && actsOnZone s g x)

/-- The entries one of which is served next: the oldest aged entry; else destage entries while free slots are short;
else all but patrol; else patrol, which PS1 suspends and PATROL_CFG.ENABLE allows (R189, R194, R196). -/
def eligible (s : State) (n : Nat) (w : List SchedEnt) : List SchedEnt :=
  let w := w.filter (destageReady s)
  let old := w.filter (aged s n)
  if !old.isEmpty then
    let q := (old.map (·.seq)).foldl min (old.headD ⟨0, 0, 0, 0, 0, 0, 0⟩).seq
    (old.filter fun e => e.seq == q).take 1
  else
    let ds := w.filter fun e => e.kind == 1
    if destagePressed s n && !ds.isEmpty then ds
    else
      let host := w.filter fun e => e.kind != 2
      if !host.isEmpty then host else if s.cmd.ps = 1 ∨ regB s aPatrolCfg 0 = false then [] else w

/-! ### The end of a connection (R152) -/

/-- The fate of one command of an ended connection; an admin command whose data is still missing, a Firmware Image Download
above all, is discarded. -/
def commandFate (c : Cmd) (s : State) : State :=
  if c.io && (isRead c.cap.opc || isVerify c.cap.opc || isZmr c.cap.opc) then sweep (dropCmd c.seq s)
  else if carriesData c && c.phase != .effective && !c.ready then discard c none s
  else if !c.io && c.phase == .reserved then dropCmd c.seq s
  else putCmd { c with ctx := none } s

/-- Every command that a connection had taken in meets its fate. -/
def connectionFates (x : Nat) (s : State) : State :=
  progress ((s.cmd.cmds.filter fun c => c.ctx == some x).foldl (fun t c =>
    match findCmd t c.seq with | some c => commandFate c t | none => t) s)

/-- Contexts in use. -/
def ctxUsed (s : State) : Nat := s.host.ctxs.length

/-- One context freed with everything it holds: its commands meet their fates (R152), its R2Ts and segments go. -/
def freeCtx (x : Nat) (s : State) : State :=
  match getCtx s x with
  | none => s
  | some _ => setCtx x none (connectionFates x s)

/-- A controller ends, with every queue of it (R152, R184). -/
def endCtrl (i : Nat) (s : State) : State :=
  let xs := (s.host.ctxs.filter fun e => match e.2 with | some c => c.ctrl == i && c.kind != .unknown | none => false).map (·.1)
  setCtrl i none (xs.foldl (fun t x => freeCtx x t) s)

/-- A connection ends (R152): an admin or discovery queue takes its controller with it. -/
def endCtx (x : Nat) (s : State) : State :=
  match getCtx s x with
  | none => s
  | some c => if c.kind == .admin || c.kind == .discovery then endCtrl c.ctrl s else freeCtx x s

/-- Every connection that a test picks ends. -/
def endCtxs (p : Nat → Ctx → Bool) (s : State) : State :=
  let xs := (s.host.ctxs.filter fun e => match e.2 with | some c => p e.1 c | none => false).map (·.1)
  xs.foldl (fun t x => endCtx x t) s

/-- The fatal transport error of R138: C2HTermReq, and the connection ends. -/
def fatalError (x fes : Nat) (s : State) : State := endCtx x (emit (.termReq x fes) s)

end Sys2Proof.Machine
end

