-- ==== Sys2Proof/Machine/Intake.lean ====
section
/-! DEFINITION. Intake: how a buffered capsule is taken in, numbered and checked against namespace, ANA and zone state,
and the meanings of the I/O commands that follow it (R142–R152, R159–R164, R178–R183, R188–R191). -/

namespace Sys2Proof.Machine


/-! ### Intake's checks (R143, R148, R150, R178, R180, R185, R191) -/

/-- SLBA and block count of an I/O command. -/
def capSlba (c : Capsule) : Nat := c.cdw10 + c.cdw11 * 2 ^ 32
def capNlb (c : Capsule) : Nat := bits c.cdw12 0 16 + 1

/-- The pool an I/O opcode draws from; any other is admin (R161). -/
def ioPool (o : Nat) : Nat := if isRead o || isVerify o || isZmr o then 0 else 1

/-- Command slots in use in a pool. -/
def poolUsed (s : State) (p : Nat) : Nat := (s.cmd.cmds.filter fun c => c.pool == p).length

/-- A pool has a free command slot (R161). -/
def poolFree (s : State) (p : Nat) : Bool := decide (poolUsed s p < if p = 2 then 256 else 8192)

/-- I/O opcodes a namespace supports (R143). -/
def ioSupported (f : Fmt) (nsid o : Nat) : Bool :=
  isRead o || isWrite o || isFlush o || isZeroes o || isVerify o
    || (isZoned f nsid && (isAppend o || isZms o || isZmr o))

/-- Opening one more zone: room is made by closing the implicitly opened zone last written with the lowest intake
number; none is left when all are explicit (R178). -/
def zoneToClose (s : State) : Option Nat :=
  let imp := s.cmd.iz.filter fun e => e.2.st == 1
  (imp.foldl (fun best e => match best with
    | none => some e
    | some b => if e.2.lastSeq < b.2.lastSeq then some e else some b) none).map (·.1)

/-- A write's or append's check against its zone as intake sees it (R180). -/
def writeZoneStatus (s : State) (c : Capsule) : Nat :=
  let f := s.cmd.fmt
  let slba := capSlba c
  let g := zoneOfLba f c.nsid slba
  let z := getIZ s g
  if z.st = 6 then stZoneOffline
  else if z.st = 5 then stZoneReadOnly
  else if z.st = 4 then stZoneFull
  else if isAppend c.opc && slba % 65536 != 0 then stInvalidField
  else if zoneCap f g < (if isAppend c.opc then z.wp else slba % 65536) + capNlb c then stZoneBoundary
  else if !isAppend c.opc && slba % 65536 != z.wp then stZoneInvalidWrite
  else if z.st = 0 ∧ 512 ≤ activeCount s then stTooManyActive
  else if ¬(zOpen z.st = true) ∧ 512 ≤ openCount s ∧ (zoneToClose s).isNone then stTooManyOpen
  else stOk

/-- A Zone Management Send's check against its zone (R180). -/
def zmsStatus (s : State) (c : Capsule) : Nat :=
  let act := bits c.cdw13 0 8
  if act = 0x10 then stOk
  else if ¬(1 ≤ act ∧ act ≤ 5) then stInvalidField
  else if bit c.cdw13 8 then stOk
  else if capSlba c % 65536 ≠ 0 then stInvalidField
  else
    let g := zoneOfLba s.cmd.fmt c.nsid (capSlba c)
    let z := getIZ s g
    if z.st = 6 then stZoneOffline
    else if z.st = 5 ∧ act ≠ 5 then stZoneReadOnly
    else match act with
      | 1 => if z.st = 0 ∨ z.st = 4 then stZoneTransition else stOk
      | 3 =>
        if z.st = 4 then stZoneTransition
        else if z.st = 0 ∧ 512 ≤ activeCount s then stTooManyActive
        else if ¬(zOpen z.st = true) ∧ 512 ≤ openCount s ∧ (zoneToClose s).isNone then stTooManyOpen
        else stOk
      | 5 => if z.st = 5 then stOk else stZoneTransition
      | _ => stOk

/-- A range touches an Offline zone. -/
def touchesOffline (s : State) (nsid lba n : Nat) : Bool :=
  isZoned s.cmd.fmt nsid && (List.range ((lba % 65536 + n + 65535) / 65536)).any fun k =>
    (getIZ s (zoneOfLba s.cmd.fmt nsid (lba + k * 65536))).st == 6

/-- The actuators a command's range lies on. -/
def rangeActs (s : State) (nsid lba n : Nat) : List Nat :=
  (List.range ((lba % 65536 + n + 65535) / 65536)).map fun k => actOfLba s.cmd.fmt nsid (lba + k * 65536)

/-- A deferred write error is pending for the host and namespace (R191). -/
def deferPending (s : State) (nqn hid nsid : Nat) : Bool :=
  match hostIdxOf s nqn hid with | some i => s.jrn.pendingErr.contains (i, nsid) | none => false

/-- The namespaces an I/O command addresses: Flush on FFFFFFFFh every one (R182). -/
def capNamespaces (f : Fmt) (c : Capsule) : List Nat :=
  if isFlush c.opc && c.nsid == 0xFFFFFFFF then (List.range 9).filter (nsExists f) else [c.nsid]

/-- The status with which intake turns an I/O command away, 0 for none (R126, R143, R148, R150, R180, R182, R185, R191). -/
def ioStatus (s : State) (k : Ctrl) (c : Capsule) : Nat :=
  let f := s.cmd.fmt
  let o := c.opc
  let ns := capNamespaces f c
  if isFlush o && c.nsid == 0xFFFFFFFF then
    if ns.any s.cmd.formatting.contains then stFormatInProgress
    else if ns.any (deferPending s k.hostNqn k.hostId) then stDeferred
    else if ns.any (fun n => anaState s (groupOf f n) == 0x0F) then stAnaTransition
    else if ns.any (fun n => (groupActs f (groupOf f n)).any (isDegraded s)) then stActUnavailable
    else stOk
  else if !nsExists f c.nsid then stInvalidNs
  else if !ioSupported f c.nsid o then stInvalidOpcode
  else if s.cmd.formatting.contains c.nsid then stFormatInProgress
  else if deferPending s k.hostNqn k.hostId c.nsid then stDeferred
  else
    let lba := capSlba c
    let n := capNlb c
    let places := isWrite o || isZeroes o || isAppend o
    let ranged := isRead o || isVerify o || places
    if ranged && ((isAppend o && decide (256 < n)) || decide (4096 < n)) then stInvalidField
    else if ranged && decide (nsBlocks f c.nsid < lba + n) then stLbaRange
    else if (isZms o || isZmr o) && !(isZms o && bit c.cdw13 8) && decide (nsBlocks f c.nsid ≤ lba) then stLbaRange
    else if anaState s (groupOf f c.nsid) = 0x0F then stAnaTransition
    else
      let acts := if ranged then rangeActs s c.nsid lba n
        else if isZms o && !bit c.cdw13 8 then [actOfLba f c.nsid lba] else groupActs f (groupOf f c.nsid)
      if (ioPool o == 1 && acts.any (isDegraded s)) || (places && acts.any (fun a => (getSched s a).st == 5))
      then stActUnavailable
      else if ranged && touchesOffline s c.nsid lba n then stZoneOffline
      else if isZoned f c.nsid && places then writeZoneStatus s c
      else if isZms o then zmsStatus s c
      else stOk

/-- Admin opcodes of the table of R143, and the Fabrics command set. -/
def adminSupported (disc : Bool) (c : Capsule) : Bool :=
  let o := c.opc
  if o == 0x7F then c.fctype == 0 || c.fctype == 1 || c.fctype == 4 || c.fctype == 8
  else if disc then o == 0x06 || o == 0x02 || o == 0x18 || o == 0x0C || o == 0x09 || o == 0x0A
  else o == 0x06 || o == 0x02 || o == 0x09 || o == 0x0A || o == 0x18 || o == 0x0C || o == 0x08 || o == 0x11 || o == 0x10
    || o == 0x81 || o == 0x82 || o == 0x14 || o == 0x80

/-! ### What intake does to the zones (R163, R178) -/

/-- The device closes an implicitly opened zone to make room (R178). -/
def makeOpenRoom (s : State) : State :=
  if openCount s < 512 then s
  else match zoneToClose s with
    | some g => setIZ g { getIZ s g with st := 3 } (if (getZone s g).zstate = 1 then setZState g 3 s else s)
    | none => s

/-- A write's or append's zone as intake sees it afterwards. -/
def intakeWrite (g q n : Nat) (s : State) : State :=
  let z := getIZ s g
  let s := if zOpen z.st then s else makeOpenRoom s
  let st := if zOpen z.st then z.st else 1
  setIZ g { st := if zoneCap s.cmd.fmt g ≤ z.wp + n then 4 else st, wp := z.wp + n, lastSeq := q } s

/-- A zone as intake sees it after a Zone Management Send; an explicit open makes room first (R178). -/
def intakeZms (action g : Nat) (s : State) : State :=
  let s := if action = 3 ∧ zOpen (getIZ s g).st = false ∧ (getIZ s g).st ≤ 3 then makeOpenRoom s else s
  setIZ g (izAfter action (getIZ s g)) s

/-- Whether an action with Select All set changes a zone: its state allows the transition, and an open finds room among
the open and active zones (R178, R180). -/
def zmsChanges (s : State) (action g : Nat) : Bool :=
  let z := getIZ s g
  izAfter action z != z
    && !(action == 3 && ((z.st == 0 && decide (512 ≤ activeCount s))
      || (!zOpen z.st && decide (512 ≤ openCount s) && (zoneToClose s).isNone)))

/-- A Zone Management Send with Select All set, over zones in order: those it changes, and the zones as intake sees them
afterwards. -/
def intakeAll (action : Nat) : List Nat → State → List Nat × State
  | [], s => ([], s)
  | g :: gs, s =>
    if zmsChanges s action g then
      let r := intakeAll action gs (intakeZms action g s)
      (g :: r.1, r.2)
    else intakeAll action gs s

/-- The report of pending deferred errors of some namespaces: every error pending for the host and them becomes reported,
the marks go, a record is made, and the event is posted once the controller has a request outstanding (R191). -/
def reportDeferred (q ctrl nqn hid nsid : Nat) (ns : List Nat) (s : State) : State :=
  match hostIdxOf s nqn hid with
  | none => s
  | some i =>
    let s := markDefers (fun d => d.hostIdx == i && ns.contains d.nsid && d.status == 1) 2 s
    let s := dropHosts { s with jrn := { s.jrn with pendingErr := s.jrn.pendingErr.filter fun p => !(p.1 == i && ns.contains p.2) } }
    postTo { type_ := 7, info := 0, log := 0xC1 } ctrl (record srcCmd 0x63 [q, nsid] s)

/-! ### Power states met by commands (R188) -/

/-- A command needs the medium: some block of it is neither in the journal nor in a staging buffer. -/
def needsMedium (s : State) (c : Cmd) : Bool :=
  c.io && (isRead c.cap.opc || isVerify c.cap.opc) && !(mediaBlocks s c.cap.nsid c.slba c.nlb c.seq).isEmpty

/-- A command abandons an entry in progress: an I/O command that needs the medium, or one addressed to a namespace on an
actuator that the entry idles, unless the journal or a staging buffer serves it wholly (R188). -/
def abandons (s : State) (c : Cmd) : Bool :=
  needsMedium s c || (c.io && !(isRead c.cap.opc || isVerify c.cap.opc)
    && ((List.range 9).any fun n => (c.cap.nsid == n || c.cap.nsid == 0xFFFFFFFF) && nsExists s.cmd.fmt n
      && (groupActs s.cmd.fmt (groupOf s.cmd.fmt n)).any (fun a => !s.cmd.active.contains a)))

/-- Such a command abandons an entry at its next safe point; at rest in PS3 or PS4, where every actuator is idled, it starts
the return to the last operational state (R188). -/
def wakeFor (c : Cmd) (s : State) : State :=
  if s.cmd.moving then (if s.cmd.entering && abandons s c then { s with cmd := { s.cmd with abandon := true } } else s)
  else if 3 ≤ s.cmd.ps ∧ abandons s c = true then
    { s with cmd := { s.cmd with moving := true, entering := false, target := s.cmd.lastOp } }
  else s

/-! ### INTAKE (R159) -/

/-- Intake is stopped: before recovery, under PAUSE, or once a power failure is recognized (R63, R106, R186). -/
def intakeOpen (s : State) : Bool := s.cmd.recovered && !regB s aCmdCtl 0 && s.pwr.phase == .running

/-- The command record of a capsule. -/
def newCmd (s : State) (x : Nat) (k : Ctx) (c : Capsule) : Cmd :=
  let io := k.kind == .io && c.opc != 0x7F
  let own := match getCtrl s k.ctrl with | some t => (t.hostNqn, t.hostId) | none => (0, 0)
  let zoned := io && isZoned s.cmd.fmt c.nsid
  let zms := io && isZms c.opc
  { seq := s.cmd.nextSeq, ctx := some x, ctrl := k.ctrl, hostNqn := own.1, hostId := own.2, cap := c,
    pool := if io then ioPool c.opc else 2, io := io, since := s.now,
    zone := if zoned && (isWrite c.opc || isZeroes c.opc || isAppend c.opc || (zms && !bit c.cdw13 8))
            then some (zoneOfLba s.cmd.fmt c.nsid (capSlba c)) else none,
    slba := if zms then capSlba c / 65536 * 65536 else capSlba c,
    nlb := if zms then 65536 else if io && !isFlush c.opc && !isZmr c.opc then capNlb c else 0 }

/-- The status with which intake turns a capsule away, 0 for none: fused commands are not supported; an I/O queue takes
Disconnect of the Fabrics commands; a discovery controller has feature 0Fh alone (R143, R152, R154). -/
def intakeStatus (s : State) (k : Ctx) (c : Capsule) : Nat :=
  if c.fuse ≠ 0 then stInvalidField
  else match k.kind with
  | .io =>
    if c.opc = 0x7F then (if c.fctype = 8 then stOk else stInvalidOpcode)
    else match getCtrl s k.ctrl with | some t => ioStatus s t c | none => stInvalidField
  | .unknown => if c.opc == 0x7F && c.fctype == 1 then stOk else stInvalidField
  | .discovery =>
    if adminSupported true c = false then stInvalidOpcode
    else if (c.opc = 0x09 ∨ c.opc = 0x0A) ∧ bits c.cdw10 0 8 ≠ 0x0F then stInvalidField else stOk
  | .admin =>
    if adminSupported false c = false then stInvalidOpcode
    else if 16777216 < adminBytes c then stInvalidField else stOk

/-- A capsule accepted: the zones as intake sees them change, and the command waits for its own meaning; an admin command
whose data is not in its capsule asks for it first (R140, R146). -/
def accept (c : Cmd) (s : State) : State :=
  let c := if c.io && isAppend c.cap.opc then
      (match c.zone with | some g => { c with slba := c.slba + (getIZ s g).wp } | none => c) else c
  let s := wakeFor c s
  let r := if c.io && isZms c.cap.opc && bit c.cap.cdw13 8
    then intakeAll (zsa c) ((List.range (nsZones s.cmd.fmt c.cap.nsid)).map (zoneIdx s.cmd.fmt c.cap.nsid)) s else ([], s)
  let c := { c with zset := r.1 }
  let s := if placesBlocks c then (match c.zone with | some g => intakeWrite g c.seq c.nlb s | none => s)
    else if c.io && isZms c.cap.opc && !bit c.cap.cdw13 8 then (zmsZones s c).foldl (fun t g => intakeZms (zsa c) g t) s
    else r.2
  let late := !c.io && c.cap.data.isEmpty && decide (0 < adminBytes c.cap)
  let s := { s with cmd := { s.cmd with cmds := s.cmd.cmds ++ [if late then { c with phase := .reserved } else c] } }
  if late then issueR2ts 17 c.seq s else s

/-- INTAKE (R159): the capsule at the front of a connection's buffer is taken in when a slot of its pool is free. Once a
shutdown is under way its controller's queues take in no command but those of the Fabrics command set, by which the host
reads that it has completed (R184, DEDUCED, log 106). -/
def execIntake (x : Nat) (s : State) : Host.Outcome State Fault Refusal := act s fun s =>
  match getCtx s x with
  | none => s
  | some k =>
    match k.capsules with
    | [] => s
    | cap :: rest =>
      let c := newCmd s x k cap
      let shutting := match getCtrl s k.ctrl with | some t => t.shst != 0 && k.kind != .unknown && cap.opc != 0x7F | none => false
      if !intakeOpen s || (freshCmd s).isSome || !poolFree s c.pool || shutting then s
      else
        let s := setCtx x (some { k with capsules := rest, sqHead := (k.sqHead + 1) % max 1 k.sqsize }) s
        let s := raiseHwm { s with cmd := { s.cmd with nextSeq := s.cmd.nextSeq + 1 } }
        let s := captureItem 1 (intakeItem s c 1 0 0) s
        let st := intakeStatus s k cap
        if st = stOk then accept c s
        else
          let s := postCompletion c st 0 0 s
          if st = stDeferred then reportDeferred c.seq k.ctrl c.hostNqn c.hostId cap.nsid (capNamespaces s.cmd.fmt cap) s else s

/-! ### The I/O commands, after their intake -/

/-- The fresh command moves on if a test picks it. -/
def withFresh (p : Cmd → Bool) (f : Cmd → State → State) (s : State) : State :=
  match freshCmd s with
  | some c => if p c then f c s else s
  | none => s

/-- A command waits for what must come before it. -/
def toWaiting (c : Cmd) (s : State) : State := putCmd { c with phase := .waiting } s

/-- A write-pool command that reserves joins the strict order of reservations; JRN_WAITS counts it if it must wait, for
space, for an earlier one, or for an entry of the host table (R168, R170). -/
def toReservation (c : Cmd) (s : State) : State :=
  let wait := !s.cmd.waits.isEmpty || !canReserve s c || ((takeHostIdx s c.hostNqn c.hostId).isNone && !hostsOnlyDeferred s)
  let s := toWaiting c { s with cmd := { s.cmd with waits := s.cmd.waits ++ [c.seq] } }
  if wait then incReg aJrnWaits s else s

/-- READ (R162). -/
def execRead (s : State) : Host.Outcome State Fault Refusal := act s fun s =>
  withFresh (fun c => c.io && isRead c.cap.opc) toWaiting s

/-- VERIFY (R162): as Read, without a transfer. -/
def execVerify (s : State) : Host.Outcome State Fault Refusal := act s fun s =>
  withFresh (fun c => c.io && isVerify c.cap.opc) toWaiting s

/-- WRITE (R163, R170). -/
def execWrite (s : State) : Host.Outcome State Fault Refusal := act s fun s =>
  withFresh (fun c => c.io && isWrite c.cap.opc) toReservation s

/-- ZONE_APPEND (R163): its LBA is the intake write pointer. -/
def execZoneAppend (s : State) : Host.Outcome State Fault Refusal := act s fun s =>
  withFresh (fun c => c.io && isAppend c.cap.opc) toReservation s

/-- WRITE_ZEROES (R170): entry records without data slots. -/
def execWriteZeroes (s : State) : Host.Outcome State Fault Refusal := act s fun s =>
  withFresh (fun c => c.io && isZeroes c.cap.opc) toReservation s

/-- FLUSH (R182). -/
def execFlush (s : State) : Host.Outcome State Fault Refusal := act s fun s =>
  withFresh (fun c => c.io && isFlush c.cap.opc) toWaiting s

/-- A Flush has no earlier write-pool command of its namespace left that has neither taken effect nor been discarded
(R182). -/
def flushDue (s : State) (c : Cmd) : Bool :=
  !s.cmd.cmds.any fun x => x.pool == 1 && decide (x.seq < c.seq) && x.phase != .effective && !isFlush x.cap.opc
    && (c.cap.nsid == 0xFFFFFFFF || x.cap.nsid == c.cap.nsid)

/-- FLUSH_COMPLETE (R182). -/
def execFlushComplete (q : Nat) (s : State) : Host.Outcome State Fault Refusal := act s fun s =>
  match findCmd s q with
  | some c => if c.io && isFlush c.cap.opc && c.phase == .waiting && flushDue s c then completeNow c stOk s else s
  | none => s

/-- A Zone Management Send of one action: it takes effect once every earlier overlapping command has (R162). -/
def zoneSend (action : Nat) (s : State) : State :=
  withFresh (fun c => c.io && isZms c.cap.opc && zsa c == action) (fun c s => progress (toWaiting c s)) s

/-- ZONE_CLOSE (R180). -/
def execZoneClose (s : State) : Host.Outcome State Fault Refusal := act s (zoneSend 1)

/-- ZONE_FINISH (R172). -/
def execZoneFinish (s : State) : Host.Outcome State Fault Refusal := act s (zoneSend 2)

/-- ZONE_OPEN (R178). -/
def execZoneOpen (s : State) : Host.Outcome State Fault Refusal := act s (zoneSend 3)

/-- ZONE_RESET (R172, R193). -/
def execZoneReset (s : State) : Host.Outcome State Fault Refusal := act s (zoneSend 4)

/-- ZONE_OFFLINE (R181). -/
def execZoneOffline (s : State) : Host.Outcome State Fault Refusal := act s (zoneSend 5)

/-- SET_ZONE_DESCRIPTOR_EXT (R180): it completes with Invalid Field in Command, whatever the zone's state. -/
def execSetZoneDescriptorExt (s : State) : Host.Outcome State Fault Refusal := act s fun s =>
  withFresh (fun c => c.io && isZms c.cap.opc && zsa c == 0x10) (completeNow · stInvalidField) s

/-- Zone state codes of the zone report, by ZSTATE of R166. -/
def reportState (z : Nat) : Nat := [1, 2, 3, 4, 0xE, 0xD, 0xF].getD z 0

/-- A zone descriptor of the report: type, state, attributes, capacity, first block, write pointer. -/
def zoneDesc (s : State) (nsid z : Nat) : List Byte :=
  let f := s.cmd.fmt
  let g := zoneIdx f nsid z
  let e := getZone s g
  leBytes 1 2 ++ leBytes 1 (reportState e.zstate * 16) ++ leBytes 1 (bnat e.zfc + bnat e.rzr * 4) ++ zeros 5
    ++ leBytes 8 (zoneCap f g) ++ leBytes 8 (z * 65536)
    ++ leBytes 8 (if e.zstate = 4 then 2 ^ 64 - 1 else z * 65536 + zoneWp s g) ++ zeros 32

/-- The zones a report lists: from the given block's zone, of the state asked for (0 for all). -/
def reportZones (s : State) (c : Cmd) : List Nat :=
  let n := nsZones s.cmd.fmt c.cap.nsid
  let sf := bits c.cap.cdw13 8 8
  (List.range n).filter fun z => decide (c.slba / 65536 ≤ z)
    && (sf == 0 || reportState (getZone s (zoneIdx s.cmd.fmt c.cap.nsid z)).zstate == [0, 1, 2, 3, 4, 0xE, 0xD, 0xF].getD sf 0)

/-- ZONE_MANAGEMENT_RECEIVE (R143): the zone report, as long as the host asks. -/
def execZoneManagementReceive (s : State) : Host.Outcome State Fault Refusal := act s fun s =>
  withFresh (fun c => c.io && isZmr c.cap.opc) (fun c s =>
    if bits c.cap.cdw13 0 8 ≠ 0 then completeNow c stInvalidField s
    else
      let zs := reportZones s c
      let n := if bit c.cap.cdw13 16 then min zs.length (((c.cap.cdw12 + 1) * 4 - 64) / 64) else zs.length
      let page := leBytes 8 n ++ zeros 56 ++ zs.flatMap (zoneDesc s c.cap.nsid)
      completeNow c stOk (sendData c (padTo ((c.cap.cdw12 + 1) * 4) page) s)) s

/-- JOURNAL_RESERVATION (R140, R168, R170). -/
def execJournalReservation (s : State) : Host.Outcome State Fault Refusal := act s grantNext

/-- READ_SOURCE_CHOICE (R162, R175): a read or verify whose overlapping earlier writes have all taken effect. -/
def execReadSourceChoice (q : Nat) (s : State) : Host.Outcome State Fault Refusal := act s fun s =>
  match findCmd s q with
  | some c =>
    if c.io && (isRead c.cap.opc || isVerify c.cap.opc) && c.phase == .waiting && !blockedBy s c.seq c.cap.nsid c.slba c.nlb
    then progress (chooseSources c s) else s
  | none => s

/-- The namespaces a Format names. -/
def formatTargets (s : State) (nsid : Nat) : List Nat :=
  if nsid = 0xFFFFFFFF then (List.range 9).filter (nsExists s.cmd.fmt) else [nsid]

/-- A queue of a controller, by its identifier. -/
def onQueue (s : State) (ctrl sqid x : Nat) : Bool :=
  match getCtx s x with | some k => k.ctrl == ctrl && k.qid == sqid | none => false

/-- The command that an Abort names is aborted, if it may be: a write-pool command that has not committed or taken
effect, a read whose sources are not chosen, an admin command that has not taken effect, a Firmware Commit whose activation
is held, or an Asynchronous Event Request that is held (R183). -/
def abortNamed (ctrl sqid cid q : Nat) (s : State) : Option State :=
  let mine := fun (c : Cmd) => c.seq != q && c.cap.cid == cid && (match c.ctx with | some x => onQueue s ctrl sqid x | none => false)
  match s.cmd.cmds.find? mine with
  | some c =>
    if c.started || !(c.phase == .waiting || c.phase == .reserved) then none
    else if c.io && c.pool == 1 && !isFlush c.cap.opc then some (discard c (some stAborted) s)
    else if c.io then some (sweep (postCompletion c stAborted 0 0 s))
    else if c.cap.opc = 0x80 then
      let s := postCompletion c stAborted 0 0 s
      some { s with cmd := { s.cmd with formatting := s.cmd.formatting.filter fun n => !(formatTargets s c.cap.nsid).contains n } }
    else some (postDue (markGone c stAborted s))
  | none =>
    match takeFirst (fun (a : Option Nat × Nat × Nat) => a.2.1 == cid && (match a.1 with | some x => onQueue s ctrl sqid x | none => false))
        s.host.heldActivations with
    | some (a, rest) =>
      some (emit (.completion (a.1.getD 0) cid stAborted false 0 0) { s with host := { s.host with heldActivations := rest } })
    | none =>
      match getCtrl s ctrl with
      | none => none
      | some t =>
        match takeFirst (fun (a : Nat × Nat) => a.2 == cid && onQueue s ctrl sqid a.1) t.aers with
        | none => none
        | some (a, rest) => some (emit (.completion a.1 cid stAborted false 0 0) (setCtrl ctrl (some { t with aers := rest }) s))

/-- ABORT (R183): the command of the queue named by SQID with the CID named is aborted if it has not taken effect and no
track operation has started for it; bit 0 of Dword 0 tells. -/
def execAbort (s : State) : Host.Outcome State Fault Refusal := act s fun s =>
  withFresh (fun c => !c.io && c.cap.opc == 0x08) (fun a s =>
    match abortNamed a.ctrl (bits a.cap.cdw10 0 16) (bits a.cap.cdw10 16 16) a.seq s with
    | some t => progress (postCompletion a stOk 0 0 t)
    | none => postCompletion a stOk 1 0 s) s

end Sys2Proof.Machine
end

