-- ==== Sys2Proof/Machine/Pools.lean ====
section
/-! DEFINITION. Journal recovery, PAUSE, Format NVM, the power states, and the schedulers' events
(R160, R174, R185–R189, R194–R196). -/

namespace Sys2Proof.Machine

/-! ### Recovery (R174) -/

/-- The distinct intake numbers of the journal's records. -/
def recSeqs (s : State) : List Nat := (s.jrn.recs.map fun e => e.2.seq).eraseDups

/-- The MRAM block of an entry record is uncorrectable, so that its CRC cannot be correct (R89, R165, R174). -/
def recUnreadable (s : State) (i : Nat) : Bool := s.bad.any fun b => b.1 == (mramBase + 0x10000) / 64 + i && b.2

/-- Recovery discards the slots of a kept record whose tags do not match it (R169). -/
def checkTags (r : EntryRec) (s : State) : State :=
  forTo (fun k t =>
    match slotOf r (r.slba + k) with
    | none => t
    | some i =>
      let x := getSlot t i
      if x.lba = r.slba + k ∧ x.nsid = r.nsid ∧ x.seqLo = r.seq % 2 ^ 32 then t else setSlot i { x with lost := true } t) r.nlb s

/-- The records of one intake number at recovery: kept, freed without a record, or discarded whole (R174). -/
def recoverSeq (q : Nat) (s : State) : State :=
  let rs := recsOfSeq s q
  let torn := rs.any fun e => e.2.state == 1 || !e.2.crcOk || recUnreadable s e.1
  let holds := rs.any fun e => decide (2 ≤ e.2.state) && decide (e.2.state ≤ 4)
  let whole := rs.all fun e => e.2.pieces == rs.length
  if !torn && !holds then freeCommand q s
  else if torn || !whole then
    incReg aJrnRecDiscarded (record srcCmd 0x60 [q] (freeCommand q s))
  else
    let s := rs.foldl (fun t e => if e.2.state = 5 then t else checkTags e.2 t) s
    let s := rs.foldl (fun t e => if e.2.state = 2 ∨ e.2.state = 3
      then setRec e.1 { e.2 with state := 2, placed := [], since := s.now } t else t) s
    incRegBy aJrnRecKept (rs.filter fun e => e.2.state != 5).length (queueDestage q s)

/-- Zones recorded as open become Closed, and intake starts from the zones as they stand (R174). -/
def recoverZone (g : Nat) (s : State) : State :=
  let z := getZone s g
  let s := if zOpen z.zstate then setZState g 3 s else s
  setIZ g { st := (getZone s g).zstate, wp := zoneWp s g } s

/-- An actuator that discovery did not find as expected, and that the format record lists, is UNAVAILABLE (R126). -/
def unavailable (s : State) : State :=
  forTo (fun n t => if s.cmd.fmt.acts.contains n && decide (2 ≤ smGet (fun _ => 0) s.boot.acts n)
    then setSched n { getSched t n with st := 5 } t else t) 4 s

/-- The zoned capacity in blocks of the actuator at a position of the list (R149). -/
def zonedAt (f : Fmt) (i : Nat) : Nat :=
  let a := f.acts.getD i 0
  ((List.range (zoneCount f)).filter fun g => let z := nsOfZone f g; actOfLba f z.1 (z.2 * 65536) == a).foldl (fun n g => n + zoneCap f g) 0

/-- What a format record says of the actuators that the variant has (R2), with the layout that the configuration block chose
and each conventional capacity cut to 2 % of its actuator's capacity, in the joint layout to whole units (R149, R467). -/
def presentFmt (s : State) (f : Fmt) : Fmt :=
  let keep := fun (l : List Nat) => ((f.acts.zip l).filter fun e => actPresent s e.1).map (·.2)
  let f := { f with layout := s.cmd.fmt.layout, acts := f.acts.filter (actPresent s), zones := keep f.zones, conv := keep f.conv }
  { f with conv := f.conv.zipIdx.map fun (v, i) =>
      let most := zonedAt f i / 49
      if v ≤ most then v else if f.layout = 0 then most else most / unitBlocks * unitBlocks }

/-- A trial boot has reached service: firmware writes a record in which its slot is ACTIVE and TRIAL is none (R118). -/
def endTrial (s : State) : State :=
  if regF s aBootStatus 2 2 = 2 then writeBootRec s.host.running 0xFF 0 { s with host := { s.host with trial := none } } else s

/-- RECOVERY_COMPLETE (R118, R160, R174): firmware has restored its zone map from the format record, the journal's records are
kept or discarded, and the list of allowed hosts that it holds, of at most 64 (R156), is in force; zones on the surface of a head that is absent or faulty are Read Only (R126, R181), and intake may
start. -/
def execRecoveryComplete (f : Fmt) (allowed : List Nat) (s : State) : Host.Outcome State Fault Refusal := act s fun s =>
  if !mramLocked s || s.cmd.recovered then s
  else
    let s := unavailable { s with cmd := { s.cmd with fmt := presentFmt s f }, host := { s.host with allowed := allowed.take 64 } }
    let s := setReg aJrnRecKept 0 (setReg aJrnRecDiscarded 0 s)
    let s := (recSeqs s).foldl (fun t q => recoverSeq q t) s
    let s := s.jrn.zones.foldl (fun t e => recoverZone e.1 t) s
    let s := { s with cmd := { s.cmd with nextSeq := hwm s + 2 ^ 20, recovered := true } }
    endDegraded (endTrial (noteAna (raiseHwm (syncDesc (failSurfaces s)))))

/-! ### PAUSE and activation (R38, R186) -/

/-- The activation in progress has completed when firmware clears PAUSE: the slot is named ACTIVE, and one that was held
begins (R38, R118, R186). -/
def endActivation (s : State) : State :=
  if !s.host.activating then s
  else startHeld (writeBootRec s.host.running 0xFF 0 { s with host := { s.host with activating := false } })

/-- A write of CMD_CTL (R186, R198). -/
def writePause (on : Bool) (s : State) : State :=
  if on then
    let s := if regB s aCmdCtl 0 then s else { s with cmd := { s.cmd with pauseFrom := s.now } }
    setReg aCmdCtl 1 s
  else if regB s aCmdCtl 0 then endActivation (setReg aCmdCtl 0 s) else s

/-- PAUSE (R186): firmware writes CMD_CTL.PAUSE. -/
def execPause (on : Bool) (s : State) : Host.Outcome State Fault Refusal := act s (writePause on)

/-- PAUSE_EXPIRY (R186): the engine clears a PAUSE still set after 1 ms and makes a record. -/
def execPauseExpiry (s : State) : Host.Outcome State Fault Refusal := act s fun s =>
  if regB s aCmdCtl 0 then record srcCmd 0x67 [s.cmd.nextSeq] (endActivation (setReg aCmdCtl 0 s)) else s

/-! ### Format NVM (R145, R185) -/

/-- FORMAT_NVM (R143, R185): SES 0 only; from now I/O to the namespace completes with Format In Progress. -/
def execFormatNvm (s : State) : Host.Outcome State Fault Refusal := act s fun s =>
  withFresh (fun c => !c.io && c.cap.opc == 0x80) (fun c s =>
    if bits c.cap.cdw10 9 3 ≠ 0 then completeNow c stInvalidField s
    else if 1 < bits c.cap.cdw10 0 4 then completeNow c stInvalidFormat s
    else if c.cap.nsid ≠ 0xFFFFFFFF ∧ nsExists s.cmd.fmt c.cap.nsid = false then completeNow c stInvalidNs s
    else
      let s := toWaiting c s
      { s with cmd := { s.cmd with formatting := s.cmd.formatting ++ formatTargets s c.cap.nsid } }) s

/-- One namespace formatted: its records free, deferred ones resolved, its zones Empty with ZGEN 0, its LBA format the
one asked for (R166, R185). DESIGN CHOICE (log 107): TOTAL of log 0xC1 counts since the format that made the device, and a
Format NVM does not restart it (R192). -/
def formatNs (nsid fmt_ : Nat) (s : State) : State :=
  let f := s.cmd.fmt
  let qs := ((s.jrn.recs.filter fun e => e.2.nsid == nsid).map fun e => e.2.seq).eraseDups
  let s := resolveDefer (fun d => d.nsid == nsid) s
  let s := qs.foldl (fun t q => freeCommand q t) s
  let lo := zoneIdx f nsid 0
  let hi := lo + nsZones f nsid
  let j := s.jrn
  let j := if isZoned f nsid then { j with zones := smClear j.zones lo hi, zoneResets := smClear j.zoneResets lo hi,
                                              placedEnd := smClear j.placedEnd lo hi } else j
  let j := { j with pendingErr := j.pendingErr.filter fun p => p.2 != nsid, convWritten := j.convWritten.filter fun e => e.1 != nsid }
  let c := s.cmd
  let c := { c with iz := if isZoned f nsid then smClear c.iz lo hi else c.iz,
                    staged := c.staged.filter (fun x => x.nsid != nsid),
                    fmt := { f with lbaf := (nsid, fmt_) :: f.lbaf.filter (fun e => e.1 != nsid) } }
  endDegraded (pruneSched (dropHosts { s with jrn := j, cmd := c }))

/-- Commands of the namespaces taken in before a Format that have not taken effect. -/
def formatWaits (s : State) (c : Cmd) : Bool :=
  s.cmd.cmds.any fun x => x.io && decide (x.seq < c.seq) && (formatTargets s c.cap.nsid).contains x.cap.nsid
    && x.phase != .effective && x.phase != .media

/-- Namespaces whose attributes have changed enter the Changed Namespace List of every I/O controller, with the notice
(R144, R148). -/
def changeNamespaces (ns : List Nat) (s : State) : State :=
  let h := s.host
  let ctrls := h.ctrls.map fun (i, c) => (i, c.map fun (c : Ctrl) =>
    if c.discovery then c else { c with changedNs := c.changedNs ++ ns.filter fun n => !c.changedNs.contains n })
  postEvent { type_ := 2, info := 0, log := 4 } (some 8) { s with host := { h with ctrls := ctrls } }

/-- FORMAT_TAKES_EFFECT (R185). -/
def execFormatTakesEffect (q : Nat) (s : State) : Host.Outcome State Fault Refusal := act s fun s =>
  match findCmd s q with
  | some c =>
    if !c.io && c.cap.opc == 0x80 && c.phase == .waiting && !formatWaits s c then
      let ns := formatTargets s c.cap.nsid
      let s := ns.foldl (fun t n => formatNs n (bits c.cap.cdw10 0 4) t) s
      let s := { s with cmd := { s.cmd with formatting := s.cmd.formatting.filter fun n => !ns.contains n } }
      noteAna (changeNamespaces ns (completeNow c stOk s))
    else s
  | none => s

/-! ### Power states (R57, R187–R189) -/

/-- The actuators an entry idles: in PS1 all but the two that transfer, in PS2 to PS4 all (R57, R187). -/
def idled (s : State) (ps : Nat) (active : List Nat) : List Nat :=
  (List.range (actCount s)).filter fun n => decide (2 ≤ ps) || !(active.take 2).contains n

/-! ### Schedulers (R161, R189, R194–R196) -/

/-- A track operation may start on an actuator: in service, not being idled, in PS1 one of the active pair, and
at rest in PS2, which is operational, any (R187–R189, log 70). -/
def mayStart (s : State) (n : Nat) : Bool :=
  (getSched s n).st == 2 && s.pwr.phase == .running && (getSched s n).running.isEmpty
    && (if s.cmd.moving then (if s.cmd.entering then s.cmd.active.contains n else false)
        else s.cmd.ps == 0 || s.cmd.ps == 2 || (s.cmd.ps == 1 && s.cmd.active.contains n))

/-- In PS1 the pair of active actuators changes when another actuator's oldest entry is older than AGE_LIMIT: an active
one with no track operation in hand gives way (R189). -/
def swapActive (n : Nat) (s : State) : State :=
  let c := s.cmd
  if c.ps == 1 && !c.moving && !c.active.contains n && (getSched s n).window.any (aged s n) then
    match takeFirst (fun m => (getSched s m).running.isEmpty) c.active with
    | some (_, rest) => { s with cmd := { c with active := rest ++ [n] } }
    | none => s
  else s

/-- SCHEDULER_DISPATCH (R194): `pick` is the window position of the entry with the shortest estimated access time among
those the three rules leave; another position stands for the first of those. -/
def execSchedulerDispatch (n : Fin 4) (pick : Nat) (s : State) : Host.Outcome State Fault Refusal := act s fun s =>
  let d := fillWindow (getSched s n).queue.length (getSched s n)
  let s := swapActive n (setSched n d s)
  if !mayStart s n then s
  else
    let el := eligible s n d.window
    let choice := match d.window[pick]? with | some e => if el.contains e then some e else el.head? | none => el.head?
    match choice with
    | none => s
    | some e =>
      let s := if aged s n e then incReg (aSchAged n) s else s
      let d := { d with window := d.window.erase e, running := [e] }
      let s := setSched n (fillWindow d.queue.length d) s
      if e.kind = 1 then setRec e.rcd { getRec s e.rcd with state := 3 } s
      else match findCmd s e.seq with
        | some c => if e.kind = 0 then putCmd { c with started := true } s else s
        | none => s

/-- AGE_BOUND_EXCEEDED (R195): a host command's media work has exceeded 2 s. -/
def execAgeBoundExceeded (q : Nat) (s : State) : Host.Outcome State Fault Refusal := act s fun s =>
  match findCmd s q with
  | some c =>
    if c.io && c.phase == .media then
      let s := record srcCmd 0x65 [q] s
      let k := fresh s
      breach 5 (k.1 % 256) q k.2
    else s
  | none => s

/-- A zone gains Reset Zone Recommended: the Changed Zone List, the event and the record (R196). -/
def setRzr (g weak : Nat) (s : State) : State :=
  let s := setZone g { getZone s g with rzr := true } s
  let (nsid, z) := nsOfZone s.cmd.fmt g
  let ctrls := s.host.ctrls.map fun (i, c) =>
    (i, c.map fun (c : Ctrl) => if c.changedZones.contains (nsid, z) then c else { c with changedZones := c.changedZones ++ [(nsid, z)] })
  let s := { s with host := { s.host with ctrls := ctrls } }
  let s := postEvent { type_ := 2, info := 0xEF, log := 0xBF } (some 27) s
  incRegF aPatrolStatus 16 16 (record srcCmd 0x66 [g, weak] s)

/-- The zones that patrol reads on an actuator, as namespace and zone: Full and Closed zones, and every conventional zone, of
256 MiB (R196, R467). -/
def patrolZones (s : State) (n : Nat) : List (Nat × Nat) :=
  let f := s.cmd.fmt
  ((List.range 9).filter (nsExists f)).flatMap fun m =>
    ((List.range ((nsBlocks f m + 65535) / 65536)).filter fun z => actOfLba f m (z * 65536) == n
      && (!isZoned f m || (let st := (getZone s (zoneIdx f m z)).zstate; st == 3 || st == 4))).map fun z => (m, z)

/-- The next blocks of the zone in hand that lie on the medium, at most 256 (DESIGN CHOICE, log 108: patrol reads what has
been placed there). -/
def patrolNext (s : State) (p : Patrol) : Option (Nat × Nat) :=
  let base := p.z * 65536
  if isZoned s.cmd.fmt p.nsid then
    let wp := (getZone s (zoneIdx s.cmd.fmt p.nsid p.z)).mediaWp
    if p.pos < wp then some (base + p.pos, min 256 (wp - p.pos)) else none
  else
    let parts := s.jrn.convWritten.filterMap fun (m, a, k) =>
      let lo := max a (base + p.pos)
      let hi := min (a + k) (base + 65536)
      if m = p.nsid ∧ lo < hi then some (lo, min 256 (hi - lo)) else none
    parts.foldl (fun best x => match best with | some b => if x.1 < b.1 then some x else some b | none => some x) none

/-- Patrol work of an actuator is still under way: an entry in its scheduler, or a sector in the deferred-decode buffer. -/
def patrolBusy (s : State) (n : Nat) : Bool :=
  let d := getSched s n
  (d.queue ++ d.window ++ d.running).any (fun e => e.kind == 2)
    || s.chan.ddb.any fun e => match e.2 with | some x => x.patrol && x.lane == n && decide (x.st < 4) | none => false

/-- ZONES_DONE: the zones scanned in the present pass, saturating (R198). -/
def noteZonesDone (s : State) : State :=
  setRegF aPatrolStatus 0 16 (min 65535 ((s.cmd.sched.map fun e => e.2.patDone.length).sum)) s

/-- A zone has been scanned: one with too many weak sectors, or a sector that could not be confirmed, gains Reset Zone
Recommended; of a conventional zone a record names it (R196, log 108). -/
def judgePatrol (n : Nat) (p : Patrol) (s : State) : State :=
  let f := s.cmd.fmt
  let d := getSched s n
  let s := noteZonesDone (setSched n { d with patrol := none, patDone := d.patDone ++ [(p.nsid, p.z)] } s)
  if !(decide (regF s aPatrolCfg 24 8 < p.weak) || p.bad) then s
  else if isZoned f p.nsid then
    let g := zoneIdx f p.nsid p.z
    if (getZone s g).zstate = 3 ∨ (getZone s g).zstate = 4 then setRzr g p.weak s else s
  else record srcCmd 0x66 [p.nsid * 2 ^ 32 + p.z, p.weak] s

/-- PERIOD_DAYS in nanoseconds. -/
def patrolPeriod (s : State) : Nat := regF s aPatrolCfg 8 9 * 86400000000000

/-- The next zone of the pass is taken in hand; when none is left, a new pass begins once PERIOD_DAYS have gone by since the
last one began (R196). -/
def startPatrol (n : Nat) (s : State) : State :=
  let d := getSched s n
  let left := (patrolZones s n).filter fun z => !d.patDone.contains z
  match left, d.patFrom with
  | z :: _, some _ => setSched n { d with patrol := some { nsid := z.1, z := z.2 } } s
  | z :: _, none => setSched n { d with patrol := some { nsid := z.1, z := z.2 }, patFrom := some s.now } s
  | [], some t => if patrolPeriod s ≤ s.now - t then noteZonesDone (setSched n { d with patDone := [], patFrom := none } s) else s
  | [], none => s

/-- PATROL_PASS (R196): the patrol of an actuator takes its next step: the next zone of the pass, the next blocks of the zone
in hand, queued as a patrol entry when none of its work is under way, or the zone's judgement. -/
def execPatrolPass (n : Fin 4) (s : State) : Host.Outcome State Fault Refusal := act s fun s =>
  if !regB s aPatrolCfg 0 || !actPresent s n || patrolBusy s n then s
  else
    let d := getSched s n
    match d.patrol with
    | none => startPatrol n s
    | some p =>
      match patrolNext s p with
      | some (a, k) =>
        setSched n { d with queue := d.queue ++ [{ kind := 2, seq := 0, rcd := 0, nsid := p.nsid, lba := a, nlb := k, since := s.now }],
                            patrol := some { p with pos := a + k - p.z * 65536 } } s
      | none => judgePatrol n p s

end Sys2Proof.Machine
end

