-- ==== Sys2Proof/Machine/Nvme.lean ====
section
/-! DEFINITION. Controllers and the admin and Fabrics commands of the NVM subsystem that rest on no other block
(R135, R136, R142–R157, R184). Each acts on the command that intake took in last. -/

namespace Sys2Proof.Machine

/-! ### Shared -/

/-- A fresh admin or Fabrics command with an opcode. -/
def isAdmin (o : Nat) (c : Cmd) : Bool := !c.io && c.cap.opc == o

/-- A fresh Fabrics command of a type. -/
def isFabrics (t : Nat) (c : Cmd) : Bool := !c.io && c.cap.opc == 0x7F && c.cap.fctype == t

/-- Data returned by a command, as long as it asks, and its completion. -/
def returnData (c : Cmd) (data : List Byte) (s : State) : State := completeNow c stOk (sendData c data s)

/-- A completion with a Dword 0 and 1. -/
def completeWith (c : Cmd) (dw0 dw1 : Nat) (s : State) : State := postCompletion c stOk dw0 dw1 s

/-- A structure of `n` bytes from fields at offsets; bytes between fields are 0. -/
def fieldBytes (n : Nat) (fields : List (Nat × List Byte)) : List Byte :=
  padTo n (fields.foldl (fun acc f => padTo f.1 acc ++ f.2) [])

/-! ### Connect (R135, R136, R153, R156) -/

/-- KATO as a controller holds it: 1 to 999 ms are raised to 1,000 (R153). -/
def katoOf (v : Nat) : Nat := if 1 ≤ v ∧ v ≤ 999 then 1000 else v

/-- I/O queues in all, and of a controller. -/
def ioQueues (s : State) : Nat := (s.host.ctxs.filter fun e => match e.2 with | some c => c.kind == .io | none => false).length
def ioQueuesOf (s : State) (i : Nat) : Nat :=
  (s.host.ctxs.filter fun e => match e.2 with | some c => c.kind == .io && c.ctrl == i | none => false).length

/-- The well-known discovery NQN, nqn.2014-08.org.nvmexpress.discovery, in the 256 bytes of an NQN field (R154). -/
def discNqn : List Byte :=
  padTo 256 (([0x6E, 0x71, 0x6E, 0x2E, 0x32, 0x30, 0x31, 0x34, 0x2D, 0x30, 0x38, 0x2E, 0x6F, 0x72, 0x67, 0x2E, 0x6E, 0x76, 0x6D, 0x65, 0x78,
    0x70, 0x72, 0x65, 0x73, 0x73, 0x2E, 0x64, 0x69, 0x73, 0x63, 0x6F, 0x76, 0x65, 0x72, 0x79] : List Nat).map (BitVec.ofNat 8))

/-- The status with which a Connect completes, 0 for success (R135, R136, R153, R154, R156): a connection to DISC_PORT names
the discovery NQN, and one to IO_PORT does not. -/
def connectStatus (s : State) (k : Ctx) (c : Capsule) : Nat :=
  let qid := bits c.cdw10 16 16
  let size := bits c.cdw11 0 16 + 1
  let nqn := leNat ((c.data.drop 512).take 256)
  let cntlid := leNat ((c.data.drop 16).take 2)
  if !s.host.allowed.isEmpty && !s.host.allowed.contains nqn then stConnectHost
  else if (leNat (seg c.data 256 256) == leNat discNqn) != k.disc then stConnectParams
  else if 300000 < c.cdw12 then stInvalidField
  else if qid = 0 then
    if 32 < size ∨ 256 ≤ s.host.ctrls.length then stConnectParams else stOk
  else if k.disc then stConnectParams
  else match getCtrl s cntlid with
    | none => stConnectParams
    | some t =>
      if t.port ≠ k.port ∨ t.discovery ∨ t.hostNqn ≠ nqn ∨ t.hostId ≠ leNat (c.data.take 16) then stConnectParams
      else if 128 < size ∨ 64 ≤ ioQueuesOf s cntlid then stConnectParams
      else if 960 ≤ ioQueues s then stControllerBusy else stOk

/-- CONNECT (R135, R136, R156). -/
def execConnect (s : State) : Host.Outcome State Fault Refusal := act s fun s =>
  withFresh (isFabrics 1) (fun c s =>
    match c.ctx with
    | none => completeNow c stOk s
    | some x =>
      match getCtx s x with
      | none => completeNow c stOk s
      | some k =>
        let st := if k.kind == .unknown then connectStatus s k c.cap else stInvalidField
        if st ≠ stOk then completeNow c st s
        else
          let qid := bits c.cap.cdw10 16 16
          let size := bits c.cap.cdw11 0 16 + 1
          if qid = 0 then
            let i := (findFrom (fun i => (getCtrl s i).isNone) 1 256).getD 1
            let t : Ctrl := { discovery := k.disc, port := k.port, hostNqn := leNat ((c.cap.data.drop 512).take 256),
                              hostId := leNat (c.cap.data.take 16), kato := katoOf c.cap.cdw12, kaFrom := s.now }
            let s := setCtx x (some { k with phase := .connected, kind := if k.disc then .discovery else .admin, ctrl := i, qid := 0,
                                             sqsize := size, sqFlow := !bit c.cap.cdw11 18, sqHead := 1 % size }) s
            completeWith c i 0 (setCtrl i (some t) s)
          else
            let i := leNat ((c.cap.data.drop 16).take 2)
            completeWith c i 0 (setCtx x (some { k with phase := .connected, kind := .io, ctrl := i, qid := qid, sqsize := size,
                                                        sqFlow := !bit c.cap.cdw11 18, sqHead := 1 % size }) s)) s

/-- DISCONNECT (R152): the command completes and its connection ends. -/
def execDisconnect (s : State) : Host.Outcome State Fault Refusal := act s fun s =>
  withFresh (isFabrics 8) (fun c s =>
    let s := completeNow c stOk s
    match c.ctx with | some x => endCtx x s | none => s) s

/-! ### Properties (R142, R143, R184) -/

/-- A controller's property by offset: CAP, VS, CC and CSTS. CAP holds MQES 127, CQR 1 and MPSMIN 0; CAP.TO is 500 ms
(PRESUMED, log 13). -/
def property (t : Ctrl) (off : Nat) : Option Nat :=
  match off with
  | 0x00 => some (127 + 2 ^ 16 + 1 * 2 ^ 24 + 2 ^ 43)
  | 0x08 => some 0x00020000
  | 0x14 => some t.cc
  | 0x1C => some (bits t.cc 0 1 + t.shst * 4)
  | _ => none

/-- The controller of a command. -/
def withCtrl (c : Cmd) (f : Ctrl → State → State) (s : State) : State :=
  match getCtrl s c.ctrl with
  | some t => f t s
  | none => completeNow c stInvalidField s

/-- PROPERTY_GET (R143). -/
def execPropertyGet (s : State) : Host.Outcome State Fault Refusal := act s fun s =>
  withFresh (isFabrics 4) (fun c => withCtrl c fun t s =>
    match property t c.cap.cdw11 with
    | some v => completeWith c (v % 2 ^ 32) (if bits c.cap.cdw10 0 3 = 1 then v / 2 ^ 32 else 0) s
    | none => completeNow c stInvalidField s) s

/-- A Property Set of CC that clears EN of an enabled controller. -/
def clearsEn (t : Ctrl) (c : Cmd) : Bool := c.cap.cdw11 == 0x14 && bit t.cc 0 && !bit c.cap.cdw12 0

/-- A Property Set of CC that asks for a shutdown. -/
def asksShutdown (t : Ctrl) (c : Cmd) : Bool := c.cap.cdw11 == 0x14 && !clearsEn t c && bits c.cap.cdw12 14 2 != 0 && t.shst == 0

/-- PROPERTY_SET (R143): CC otherwise than by clearing EN or asking for a shutdown. -/
def execPropertySet (s : State) : Host.Outcome State Fault Refusal := act s fun s =>
  withFresh (isFabrics 0) (fun c s => withCtrl c (fun t s =>
    if clearsEn t c || asksShutdown t c then s
    else if c.cap.cdw11 = 0x14 then completeNow c stOk (setCtrl c.ctrl (some { t with cc := c.cap.cdw12 }) s)
    else completeNow c stInvalidField s) s) s

/-- CONTROLLER_RESET (R184): CC.EN cleared ends every queue of the controller. -/
def execControllerReset (s : State) : Host.Outcome State Fault Refusal := act s fun s =>
  withFresh (isFabrics 0) (fun c s => withCtrl c (fun t s =>
    if clearsEn t c then endCtrl c.ctrl (completeNow c stOk s) else s) s) s

/-- SHUTDOWN (R184): CC.SHN stops intake for the controller's queues. -/
def execShutdown (s : State) : Host.Outcome State Fault Refusal := act s fun s =>
  withFresh (isFabrics 0) (fun c s => withCtrl c (fun t s =>
    if asksShutdown t c then completeNow c stOk (setCtrl c.ctrl (some { t with cc := c.cap.cdw12, shst := 1 }) s) else s) s) s

/-- SHUTDOWN_COMPLETE (R184): every command of the controller has committed, completed or been discarded. -/
def execShutdownComplete (i : Nat) (s : State) : Host.Outcome State Fault Refusal := act s fun s =>
  match getCtrl s i with
  | some t =>
    if t.shst = 1 ∧ (s.cmd.cmds.any fun c => c.ctrl == i && c.phase != .effective) = false
    then setCtrl i (some { t with shst := 2 }) s else s
  | none => s

/-! ### Keep-alive (R153, R154) -/

/-- KEEP_ALIVE (R153): the timer restarted as the command was received. -/
def execKeepAlive (s : State) : Host.Outcome State Fault Refusal := act s fun s =>
  withFresh (isAdmin 0x18) (fun c s => completeNow c stOk s) s

/-- KEEP_ALIVE_EXPIRY (R153): a controller with a timer ends, and its queues' commands meet their fates. -/
def execKeepAliveExpiry (i : Nat) (s : State) : Host.Outcome State Fault Refusal := act s fun s =>
  match getCtrl s i with
  | some t => if t.kato = 0 then s else endCtrl i s
  | none => s

/-- DISCOVERY_IDLE_CLOSE (R154): a discovery connection with KATO 0 is closed. -/
def execDiscoveryIdleClose (x : Nat) (s : State) : Host.Outcome State Fault Refusal := act s fun s =>
  match getCtx s x with
  | some k =>
    match getCtrl s k.ctrl with
    | some t => if k.kind == .discovery && t.kato == 0 then endCtx x s else s
    | none => s
  | none => s

/-! ### Identify (R142, R145, R147, R149) -/

/-- The power state descriptors of R147. -/
def powerDescs : List (Nat × Nat × Nat × Nat) :=
  [(1050, 0, 0, 0), (720, 0, 10000, 1000), (300, 0, 10000, 2000), (180, 1, 3000000, 12000000), (130, 1, 20000000, 30000000)]

/-- Identify Controller: the values of R142 at the offsets of NVM Express Base Specification 2.0, and there the serial
number, the model and the NQN that firmware sets. Beside R142, CMIC names several ports, several controllers and ANA
reporting, OAES the notices of R146, R151 and R196, ONCS Write Zeroes, Timestamp and Verify, and APSTA the feature 0Ch
(PRESUMED, log 64). -/
def identifyController (s : State) (t : Ctrl) (i : Nat) : List Byte :=
  let f := s.cmd.fmt
  let groups := if f.layout = 0 then 4 else 1
  fieldBytes 4096 ([(4, (List.range 68).map fun k => Config.identByte (4 + k)), (76, leBytes 1 0x0B), (77, leBytes 1 0x0C),
    (78, leBytes 2 i), (80, leBytes 4 0x00020000), (92, leBytes 4 0x08000A00), (96, leBytes 4 4),
    (111, leBytes 1 (if t.discovery then 2 else 1)), (256, leBytes 2 0x17), (259, leBytes 1 3), (260, leBytes 1 0x14),
    (262, leBytes 1 63), (263, leBytes 1 4), (265, leBytes 1 1), (319, leBytes 1 0x10), (320, leBytes 2 0x000A), (342, leBytes 1 40),
    (343, leBytes 1 0x53), (344, leBytes 4 groups), (348, leBytes 4 groups), (512, leBytes 1 0x66), (513, leBytes 1 0x44),
    (514, leBytes 2 128), (516, leBytes 4 (if f.layout = 0 then 8 else 2)), (520, leBytes 2 0xC8), (525, leBytes 1 0), (526, leBytes 2 0xFF),
    (528, leBytes 2 0xFF), (768, (List.range 256).map fun k => Config.identByte (768 + k)), (1792, leBytes 4 516), (1796, leBytes 4 1), (1800, leBytes 2 0), (1802, leBytes 1 0),
    (1803, leBytes 1 1)]
    ++ (powerDescs.zipIdx.map fun (d, k) =>
        (2048 + 32 * k, leBytes 2 d.1 ++ leBytes 1 0 ++ leBytes 1 (d.2.1 * 2) ++ leBytes 4 d.2.2.1 ++ leBytes 4 d.2.2.2)))

/-- Identify Namespace: sizes, the two LBA formats, the format in force and the ANA group (R145, R149). -/
def identifyNs (s : State) (nsid : Nat) : List Byte :=
  let f := s.cmd.fmt
  let n := nsBlocks f nsid
  fieldBytes 4096 [(0, leBytes 8 n), (8, leBytes 8 n), (16, leBytes 8 n), (25, leBytes 1 1), (26, leBytes 1 (lbaf f nsid + 16)),
    (27, leBytes 1 1), (28, leBytes 1 1), (29, leBytes 1 (lbaf f nsid)), (30, leBytes 1 1), (92, leBytes 4 (groupOf f nsid)),
    (128, leBytes 2 0 ++ leBytes 1 12 ++ leBytes 1 0), (132, leBytes 2 16 ++ leBytes 1 12 ++ leBytes 1 0)]

/-- Identify Namespace for the Zoned Namespace Command Set: reads across boundaries, MAR and MOR 511, ZSZE (R149, R178). -/
def identifyZns : List Byte :=
  fieldBytes 4096 [(2, leBytes 2 1), (4, leBytes 4 511), (8, leBytes 4 511), (2816, leBytes 8 65536), (2832, leBytes 8 65536)]

/-- The UUID of a namespace, which firmware sets: left open (R142, R143, log 64). -/
def nsUuid (nsid : Nat) : List Byte := (List.range 16).map fun k => Config.identByte (4096 + 16 * nsid + k)

/-- What Identify answers, by CNS: its status and data (R142, R143): namespace, controller and lists, descriptors of a
namespace, the lists and structures of the two command sets, the structure independent of them, and the combinations of
command sets (both). -/
def identifyData (s : State) (t : Ctrl) (i : Nat) (c : Capsule) : Nat × List Byte :=
  let f := s.cmd.fmt
  let nsList := fun (p : Nat → Bool) => padTo 4096 (((List.range 9).filter fun n => decide (c.nsid < n) && nsExists f n && p n).flatMap (leBytes 4))
  if t.discovery && bits c.cdw10 0 8 != 1 then (stInvalidField, [])
  else match bits c.cdw10 0 8 with
  | 0x00 => if nsExists f c.nsid then (stOk, identifyNs s c.nsid) else (stInvalidNs, [])
  | 0x01 => (stOk, identifyController s t i)
  | 0x03 => if nsExists f c.nsid then (stOk, fieldBytes 4096 [(0, [3, 16, 0, 0] ++ nsUuid c.nsid ++ [4, 1, 0, 0] ++ leBytes 1 (if isZoned f c.nsid then 2 else 0))])
            else (stInvalidNs, [])
  | 0x07 => if bits c.cdw11 24 8 == 0 || bits c.cdw11 24 8 == 2 then (stOk, nsList fun n => isZoned f n == (bits c.cdw11 24 8 == 2)) else (stInvalidField, [])
  | 0x08 => if nsExists f c.nsid then (stOk, fieldBytes 4096 [(1, [1]), (4, leBytes 4 (groupOf f c.nsid)), (14, [1])]) else (stInvalidNs, [])
  | 0x1C => (stOk, fieldBytes 4096 [(0, leBytes 8 5)])
  | 0x02 => (stOk, nsList fun _ => true)
  | 0x05 => if isZoned f c.nsid && bits c.cdw11 24 8 == 2 then (stOk, identifyZns)
            else if nsExists f c.nsid then (stOk, fieldBytes 4096 [(16, leBytes 4 0x100)]) else (stInvalidNs, [])
  | 0x06 => (stOk, fieldBytes 4096 (if bits c.cdw11 24 8 = 2 then [(0, leBytes 1 8)] else []))
  | _ => (stInvalidField, [])

/-- Data returned, or the status that turns the command away. -/
def answer (c : Cmd) (x : Nat × List Byte) (s : State) : State := if x.1 = stOk then returnData c x.2 s else completeNow c x.1 s

/-- IDENTIFY (R142). -/
def execIdentify (s : State) : Host.Outcome State Fault Refusal := act s fun s =>
  withFresh (isAdmin 0x06) (fun c => withCtrl c fun t s => answer c (identifyData s t c.ctrl c.cap) s) s

/-! ### Features (R144, R148, R153, R187) -/

/-- A fresh Set Features of an identifier, with Save clear. -/
def isSetFeature (p : Nat → Bool) (c : Cmd) : Bool := !c.io && c.cap.opc == 0x09 && !bit c.cap.cdw10 31 && p (bits c.cap.cdw10 0 8)

/-- A threshold of the composite temperature is selected, the one sensor the device reports, or every sensor; and its type,
0 over or 1 under (R144, log 53). -/
def thresholdSel (dw11 : Nat) : Bool := (bits dw11 16 4 == 0 || bits dw11 16 4 == 15) && decide (bits dw11 20 2 ≤ 1)

/-- A threshold in K. -/
def tempThreshold (t : Ctrl) (kind : Nat) : Nat := smGet (fun _ => 0) t.tempThresholds kind

/-- SET_FEATURES (R144): a supported feature with no row of its own; with Save set any feature is turned away, and an
identifier that is not supported is an invalid field. -/
def execSetFeatures (s : State) : Host.Outcome State Fault Refusal := act s fun s =>
  withFresh (isAdmin 0x09) (fun c => withCtrl c fun t s =>
    let fid := bits c.cap.cdw10 0 8
    let put := fun (u : Ctrl) => completeNow c stOk (setCtrl c.ctrl (some u) s)
    if bit c.cap.cdw10 31 then completeNow c stNotSaveable s
    else match fid with
      | 0x04 =>
        if thresholdSel c.cap.cdw11 then put { t with tempThresholds := smSet (fun _ => 0) t.tempThresholds (bits c.cap.cdw11 20 2) (bits c.cap.cdw11 0 16) }
        else completeNow c stInvalidField s
      | 0x07 => completeWith c (63 + 63 * 65536) 0 (setCtrl c.ctrl (some { t with queues := c.cap.cdw11 }) s)
      | 0x0B => put { t with aec := c.cap.cdw11 }
      | 0x0C => if c.cap.data.length < 256 then completeNow c stInvalidField s
                else put { t with apst := bits c.cap.cdw11 0 1, apstTable := c.cap.data.take 256 }
      | 0x02 | 0x0E | 0x0F => s
      | _ => completeNow c stInvalidField s) s

/-- POWER_MANAGEMENT (R187): a power state is selected, and its entry or exit starts. -/
def execPowerManagement (s : State) : Host.Outcome State Fault Refusal := act s fun s =>
  withFresh (isSetFeature (· == 0x02)) (fun c s =>
    let p := bits c.cap.cdw11 0 5
    if 4 < p then completeNow c stInvalidField s
    else
      let k := s.cmd
      let s := if p = k.ps ∧ k.moving = false then s
        else { s with cmd := { k with moving := true, target := p, entering := decide (k.ps < p), abandon := false } }
      completeNow c stOk s) s

/-- KEEP_ALIVE_TIMER (R153). -/
def execKeepAliveTimer (s : State) : Host.Outcome State Fault Refusal := act s fun s =>
  withFresh (isSetFeature (· == 0x0F)) (fun c => withCtrl c fun t s =>
    if 300000 < c.cap.cdw11 then completeNow c stInvalidField s
    else completeNow c stOk (setCtrl c.ctrl (some { t with kato := katoOf c.cap.cdw11, kaFrom := s.now }) s)) s

/-- A feature's value, of those whose value is a Dword, as Dword 11 of the Get Features selects it. -/
def featureValue (s : State) (t : Ctrl) (fid dw11 : Nat) : Option Nat :=
  match fid with
  | 0x02 => some (if s.cmd.moving then s.cmd.target else s.cmd.ps)
  | 0x04 => if thresholdSel dw11 then some (tempThreshold t (bits dw11 20 2)) else none
  | 0x07 => some (63 + 63 * 65536)
  | 0x0B => some t.aec
  | 0x0C => some t.apst
  | 0x0F => some t.kato
  | _ => none

/-- GET_FEATURES (R144): every supported feature but Timestamp, which has a row of its own. -/
def execGetFeatures (s : State) : Host.Outcome State Fault Refusal := act s fun s =>
  withFresh (isAdmin 0x0A) (fun c => withCtrl c fun t s =>
    let fid := bits c.cap.cdw10 0 8
    match featureValue s t fid c.cap.cdw11 with
    | some v => completeWith c v 0 (if fid = 0x0C then sendData c (padTo 256 t.apstTable) s else s)
    | none => if fid = 0x0E then s else completeNow c stInvalidField s) s

/-! ### Events (R143, R148, R151) -/

/-- ASYNCHRONOUS_EVENT_REQUEST (R143, R148): held until an event is posted to it; at most four. -/
def execAsynchronousEventRequest (s : State) : Host.Outcome State Fault Refusal := act s fun s =>
  withFresh (isAdmin 0x0C) (fun c => withCtrl c fun t s =>
    match c.ctx with
    | none => completeNow c stOk s
    | some x =>
      if 4 ≤ t.aers.length then completeNow c stAerLimit s
      else match t.notices with
        | e :: rest => postCompletion c stOk (e.type_ + e.info * 256 + e.log * 65536) 0 (setCtrl c.ctrl (some { t with notices := rest }) s)
        | [] => dropCmd c.seq (setCtrl c.ctrl (some { t with aers := t.aers ++ [(x, c.cap.cid)] }) s)) s

/-- ANATT_EXPIRY (R151): a group has been in Change for 40 s; its actuators not back in service are UNAVAILABLE. -/
def execAnattExpiry (g : Nat) (s : State) : Host.Outcome State Fault Refusal := act s fun s =>
  if (anaGroups s.cmd.fmt).contains g && anaState s g == 0x0F then
    noteAna ((groupActs s.cmd.fmt g).foldl (fun t n => if actInChange t n then declareUnavailable n t else t) s)
  else s

/-! ### Device self-test (R143) -/

/-- DEVICE_SELF_TEST: a short (1) or extended (2) test runs and its result is reported; 0xF aborts one. `result` is what
the test found: 0 for no error. -/
def execDeviceSelfTest (result : Nat) (s : State) : Host.Outcome State Fault Refusal := act s fun s =>
  withFresh (isAdmin 0x14) (fun c s =>
    let stc := bits c.cap.cdw10 0 4
    if stc = 1 ∨ stc = 2 then
      completeNow c stOk { s with host := { s.host with dstResults := ((stc * 16 + result % 16) :: s.host.dstResults).take 20 } }
    else if stc = 0xF then completeNow c stOk s
    else completeNow c stInvalidField s) s

/-! ### The discovery log (R154) -/

/-- The address entries in use with a flag: port and entry. -/
def addrEntries (s : State) (flag : Nat) : List (Nat × Nat) :=
  ([0, 1].flatMap fun p => (List.range 6).map fun k => (p, k)).filter fun e => regB s (aAddrCtl e.1 e.2) 0 && regB s (aAddrCtl e.1 e.2) flag

/-- The subtype 2h entries: IO-flagged address entries of ports whose link is up. -/
def subsysEntries (s : State) : List (Nat × Nat) := (addrEntries s 2).filter fun e => (getPort s e.1).up

/-- A number in ASCII decimal digits. The fuel bounds how many. -/
def decDigits : Nat → Nat → List Byte
  | 0, _ => []
  | k + 1, n => (if n < 10 then [] else decDigits k (n / 10)) ++ [BitVec.ofNat 8 (48 + n % 10)]

/-- A port number in ASCII decimal. -/
def decBytes (n : Nat) : List Byte := decDigits 5 n

/-- A number in four lower-case ASCII hexadecimal digits. -/
def hexBytes (n : Nat) : List Byte :=
  [3, 2, 1, 0].map fun i => let d := n / 16 ^ i % 16; BitVec.ofNat 8 (if d < 10 then 48 + d else 87 + d)

/-- Parts joined with a separating character. -/
def joinBytes (sep : Byte) : List (List Byte) → List Byte
  | [] => []
  | [x] => x
  | x :: xs => x ++ sep :: joinBytes sep xs

/-- The address of an entry in ASCII: dotted decimal, or eight groups of four hexadecimal digits (R154, log 98). -/
def addrText (s : State) (e : Nat × Nat) : List Byte :=
  let w := fun i => reg s (aAddrIp e.1 e.2 i)
  if regB s (aAddrCtl e.1 e.2) 1 then joinBytes 0x3A ((List.range 8).map fun i => hexBytes (bits (w (i / 2)) (16 - 16 * (i % 2)) 16))
  else joinBytes 0x2E ([24, 16, 8, 0].map fun lo => decBytes (bits (w 0) lo 8))

/-- A discovery log entry: TRTYPE TCP, ADRFAM, SUBTYPE, TREQ, PORTID, TRSVCID, SUBNQN (the discovery NQN for subtype 3h) and
TRADDR in ASCII (R154). -/
def discEntry (s : State) (sub : Nat) (e : Nat × Nat) : List Byte :=
  let v6 := regB s (aAddrCtl e.1 e.2) 1
  let svc := if sub = 2 then regF s aHostListen 0 16 else regF s aHostListen 16 16
  fieldBytes 1024 [(0, leBytes 1 3), (1, leBytes 1 (if v6 then 2 else 1)), (2, leBytes 1 sub), (3, leBytes 1 2), (4, leBytes 2 (e.1 + 1)),
    (6, leBytes 2 0xFFFF), (8, leBytes 2 32), (32, decBytes svc),
    (256, if sub = 3 then discNqn else (List.range 256).map fun k => Config.identByte (768 + k)), (512, addrText s e)]

/-- How many bytes a Get Log Page asks for, and from which offset. -/
def pageLen (c : Capsule) : Nat := (bits c.cdw10 16 16 + bits c.cdw11 0 16 * 65536 + 1) * 4
def pageOff (c : Capsule) : Nat := c.cdw12 + c.cdw13 * 2 ^ 32

/-- A page as a Get Log Page asks for it: NUMD Dwords from the offset; beyond the end it reads as 0. -/
def pageSlice (c : Capsule) (page : List Byte) : List Byte := padTo (pageLen c) (page.drop (pageOff c))

/-- DISCOVERY_LOG (R154): Get Log Page 70h on a discovery controller. -/
def execDiscoveryLog (s : State) : Host.Outcome State Fault Refusal := act s fun s =>
  withFresh (fun c => isAdmin 0x02 c && bits c.cap.cdw10 0 8 == 0x70) (fun c => withCtrl c fun t s =>
    if !t.discovery then completeNow c stLogPage s
    else
      let a := subsysEntries s; let b := addrEntries s 3
      let page := fieldBytes 1024 [(0, leBytes 8 s.host.discGen), (8, leBytes 8 (a.length + b.length))] ++ a.flatMap (discEntry s 2) ++ b.flatMap (discEntry s 3)
      returnData c (pageSlice c.cap page) s) s

/-- What firmware knows of a CDC. -/
def getCdc (s : State) (i : Nat) : Cdc := smGet (fun _ => {}) s.host.cdcs i
def setCdc (i : Nat) (d : Cdc) (s : State) : State := { s with host := { s.host with cdcs := smSet (fun _ => {}) s.host.cdcs i d } }

/-- Firmware sends Update to a CDC it is connected to (R155). -/
def updateCdc (i : Nat) (s : State) : State :=
  let d := getCdc s i
  if d.connected then setCdc i { d with registered := subsysEntries s } (emit (.cdc i 2 (subsysEntries s)) s) else s

/-- The discovery log page has changed: its GENCTR rises, persistent discovery connections get the event (R154), and every
CDC an Update (R155). -/
def discoveryChanged (s : State) : State :=
  updateCdc 1 (updateCdc 0 (postDiscovery { s with host := { s.host with discGen := s.host.discGen + 1 } }))

/-- CDC_REGISTRATION (R155): firmware connects and registers (task 1), updates (2), or deregisters before an orderly
stop (3). -/
def execCdcRegistration (i : Fin 2) (task : Nat) (s : State) : Host.Outcome State Fault Refusal := act s fun s =>
  let e := subsysEntries s
  let d := getCdc s i
  if task = 3 then (if d.connected then setCdc i {} (emit (.cdc i 3 d.registered) s) else s)
  else if d.connected then updateCdc i s
  else setCdc i { connected := true, wait := 1, registered := e } (emit (.cdc i 1 e) (emit (.cdcConnect i 30000) s))

/-- CDC_RETRY (R155): the connection is lost or a retry has failed; the next retry waits twice as long, to 64 s; a retry
that succeeds registers anew. -/
def execCdcRetry (i : Fin 2) (succeeds : Bool) (s : State) : Host.Outcome State Fault Refusal := act s fun s =>
  let e := subsysEntries s
  let d := getCdc s i
  let s := emit (.cdcConnect i 30000) s
  if succeeds then setCdc i { connected := true, wait := 1, registered := e } (emit (.cdc i 1 e) s)
  else setCdc i { d with connected := false, wait := min 64 (d.wait * 2) } s

end Sys2Proof.Machine
end

