-- ==== Sys2Proof/Machine/Channel.lean ====
section
/-! DEFINITION. The channel lanes and the Garnet pool: sets, candidates, the speculation and confirmation of a sector,
decoder grants, sector-group parity, and the deferred-decode buffer (R234–R273). The commands themselves stand in
`ChannelCmds`, since an operation's end is the sequencer's. -/

namespace Sys2Proof.Machine

/-! ### Access -/

def getCh (s : State) (n : Nat) : Lane := smGet (fun _ => {}) s.chan.lanes n
def setCh (n : Nat) (v : Lane) (s : State) : State :=
  { s with chan := { s.chan with lanes := smSet (fun _ => {}) s.chan.lanes n v } }
def getEnt (s : State) (e : Nat) : Option DefEnt := smGet (fun _ => none) s.chan.ddb e
def setEnt (e : Nat) (v : Option DefEnt) (s : State) : State :=
  { s with chan := { s.chan with ddb := smSet (fun _ => none) s.chan.ddb e v } }

/-- Bytes held in a run of registers. -/
def regBytes (s : State) (a words : Nat) : List Byte := (List.range words).flatMap fun i => leBytes 4 (reg s (a + 4 * i))

/-- Bitwise exclusive or of byte lists. -/
def xorBytes (x y : List Byte) : List Byte := List.zipWith (fun a b => a ^^^ b) x y

/-! ### Parameter sets and write sets (R244, R245, R281) -/

/-- Every field of a parameter set is in its range, the reserved bytes at 0. -/
def psetGood (p : List Byte) : Bool :=
  decide (setRate p ≤ 3) && decide (fieldN p 1 1 ≤ 1) && decide (0x4000 ≤ setRatio p) && decide (setRatio p ≤ 0x7800)
    && decide (setWin p ≤ 15) && decide (1 ≤ setCand p) && decide (setCand p ≤ 3) && decide (setThr p ≤ 12)
    && decide (1 ≤ setIterMax p) && decide (setIterMax p ≤ 20) && decide (fieldN p 0x14 1 ≤ 15) && fieldN p 0x15 1 == 0
    && fieldN p 0x98 40 == 0

def wsCurrent (w : List Byte) : Nat := fieldN w 0 1 + fieldN w 1 1 * 256
def wsKeepPre (w : List Byte) : Nat := fieldN w 0x0C 2
def wsKeepPost (w : List Byte) : Nat := fieldN w 0x0E 2
def wsLead (w : List Byte) : Nat := fieldN w 0x10 1
def wsTail (w : List Byte) : Nat := fieldN w 0x11 1
def wsHtrLead (w : List Byte) : Nat := fieldN w 0x12 2
def wsWin (w : List Byte) : Nat := fieldN w 0x14 1
def wsItPass (w : List Byte) : Nat := fieldN w 0x15 1
def wsItMax (w : List Byte) : Nat := fieldN w 0x16 1
def wsRewriteMax (w : List Byte) : Nat := fieldN w 0x17 1
def wsErrPass (w : List Byte) : Nat := fieldN w 0x18 2
def wsErrFail (w : List Byte) : Nat := fieldN w 0x1A 2
def wsRevMax (w : List Byte) : Nat := fieldN w 0x1C 1
def wsWedgeOff (w : List Byte) : Bool := fieldN w 0x1D 1 == 1

/-- Every field of a write set is in its range, with the parameter set it is used with (R281). -/
def wsetGood (p w : List Byte) : Bool :=
  let pc := fieldN w 4 4
  decide (fieldN w 0 1 ≤ 0x3F) && decide (fieldN w 1 1 ≤ 0xF) && fieldN w 2 2 == 0
    && (List.range 8).all (fun j => !bit pc (4 * j + 3)) && decide (1 ≤ fieldN w 0x0A 2) && decide (wsKeepPre w ≤ 16383)
    && decide (wsKeepPost w ≤ 16383) && decide (1 ≤ wsLead w) && decide (wsLead w ≤ 250) && decide (wsTail w ≤ 10)
    && decide (fieldN w 0x12 2 ≤ 1000) && decide (1 ≤ wsWin w) && decide (wsWin w ≤ 0x40) && decide (1 ≤ wsItPass w)
    && decide (wsItPass w ≤ 20) && decide (wsItPass w ≤ wsItMax w) && decide (wsItMax w ≤ 20) && decide (wsRewriteMax w ≤ 7)
    && decide (wsErrPass w ≤ 4095) && decide (wsErrPass w ≤ wsErrFail w) && decide (wsErrFail w ≤ 4095)
    && decide (2 ≤ wsRevMax w) && decide (wsRevMax w ≤ 16) && decide (fieldN w 0x1D 1 ≤ 1) && fieldN w 0x1E 34 == 0
    && (!wsWedgeOff w || decide (wsLead w * 20 * setRatio p * rateMs (setRate p) ≤ wsKeepPost w * 32768 * 100))

/-! ### The descriptor in force (R369) -/

def dKind (d : List Byte) : Nat := fieldN d 0 1
def dFlag (d : List Byte) (i : Nat) : Bool := bit (fieldN d 1 1) i
def dHead (d : List Byte) : Nat := fieldN d 2 1
def dPset (d : List Byte) : Nat := fieldN d 6 2
def dZgen (d : List Byte) : Nat := fieldN d 0x14 2
def dLcount (d : List Byte) : Nat := fieldN d 0x16 2
def dPsn0 (d : List Byte) : Nat := fieldN d 0x18 8
def dLayout (d : List Byte) : Nat := fieldN d 0x20 8
def dFirst (d : List Byte) : Nat := fieldN d 0x28 2
def dCount (d : List Byte) : Nat := fieldN d 0x2A 2
def dReqOfs (d : List Byte) : Nat := fieldN d 0x2C 2
def dReqCnt (d : List Byte) : Nat := fieldN d 0x2E 2
def dStage (d : List Byte) : Nat := fieldN d 0x30 8
def dPia (d : List Byte) : Nat := fieldN d 0x38 8
def dRes (d : List Byte) : Nat := fieldN d 0x40 8
def dCarry (d : List Byte) : Nat := fieldN d 0x48 8
def dDdb (d : List Byte) : Nat := fieldN d 0x50 8

/-- LFLAGS bit 0 of the operation's slot `i`: a parity sector (R372). -/
def slotParity (s : State) (d : List Byte) (i : Nat) : Bool := bit (dramNat s (dLayout d + 32 * (dFirst d + i) + 2) 1) 0

/-- Parity sectors before a slot: the number of its group. -/
def groupOfSlot (s : State) (d : List Byte) (i : Nat) : Nat := countTo (slotParity s d) i

/-- Data sectors before a slot (R374). -/
def dataOfSlot (s : State) (d : List Byte) (i : Nat) : Nat := i - groupOfSlot s d i

/-- The slots of a group, its parity sector last; none when its parity sector lies outside the operation. -/
def groupSlots (s : State) (d : List Byte) (g : Nat) : List Nat :=
  let l := (List.range (dCount d)).filter fun i => groupOfSlot s d i == g
  if l.any (slotParity s d) then l else []

/-- The expected identifier of a data sector (R241, R243). -/
def tagOf (n m psn zgen : Nat) : Nat := (8 * n + m) % 32 + psn % 2 ^ 40 * 2 ^ 8 + zgen % 2 ^ 16 * 2 ^ 48

/-- The expected identifier of a slot; of a parity sector, the exclusive or of its group's (R243). -/
def expectId (s : State) (n : Nat) (d : List Byte) (i : Nat) : Nat :=
  let one := fun j => tagOf n (dHead d) (dPsn0 d + dFirst d + j) (dZgen d)
  if slotParity s d i then
    ((List.range i).filter fun j => groupOfSlot s d j == groupOfSlot s d i).foldl (fun x j => Nat.xor x (one j)) 0
  else one i

/-- The sector address a record names (R423). -/
def sectorAddr (n : Nat) (d : List Byte) (psn : Nat) : Nat := psn % 2 ^ 40 + (8 * n + dHead d) % 32 * 2 ^ 40

/-- Wedges per revolution, as the islands' configuration has it (R338). -/
def wedgesOf (s : State) : Nat :=
  let a := regF s (basBase 0 + 8) 0 11
  if a = 0 then regF s (basBase 1 + 8) 0 11 else a

/-! ### Protection information (R25) -/

/-- The CRC of the 64-bit guard over a block's data. PRESUMED from the NVMe base (log 30). -/
def guard64 (bs : List Byte) : Nat := (~~~ (bs.foldl (crcByteR 0x9A6C9329AC4BC9B5#64) (~~~ 0#64))).toNat

/-- A big-endian number. -/
def beNat (bs : List Byte) : Nat := leNat bs.reverse

/-- The guard checks, or the Type 1 rules skip the check for an application tag of 0xFFFF (R25, R179, log 30). -/
def guardOk (data pi : List Byte) : Bool := beNat (seg pi 8 2) == 0xFFFF || beNat (seg pi 0 8) == guard64 data

/-! ### Sync candidates (R246–R248) -/

/-- Inserting by an order; equal elements keep their order. -/
def insertBy {α : Type} (le : α → α → Bool) (x : α) : List α → List α
  | [] => [x]
  | y :: ys => if le x y then x :: y :: ys else y :: insertBy le x ys

/-- Sorting by an order, stably. -/
def sortBy {α : Type} (le : α → α → Bool) (l : List α) : List α := l.foldr (insertBy le) []

/-- One fragment's offset with its distance, and whether it is timed. -/
structure Mark where
  off : Int
  dist : Nat
  timed : Bool
  deriving DecidableEq, Repr

/-- Ranked by distance, then by nearness to 0, then earlier first (R247). -/
def markLe (x y : Mark) : Bool :=
  decide (x.dist < y.dist) || (x.dist == y.dist &&
    (decide (x.off.natAbs < y.off.natAbs) || (x.off.natAbs == y.off.natAbs && decide (x.off ≤ y.off))))

/-- The qualifying offsets of a window, ranked; `ds` holds the distance at each offset from −win (R246). -/
def qualifying (win thr : Nat) (ds : List Nat) : List Mark :=
  sortBy markLe (((List.range (2 * win + 1)).map fun (i : Nat) => ({ off := (i : Int) - (win : Int), dist := ds.getD i 40, timed := false } : Mark)).filter
    fun x => decide (x.dist ≤ thr))

/-- The timed offset is added when fewer than `cand` offsets qualify and offset 0 is not among them (R247). -/
def timedMark (timed : Bool) (cand thr : Nat) (q : List Mark) : List Mark :=
  if timed && decide (q.length < cand) && !q.any (fun x => x.off == 0) then [{ off := 0, dist := thr + 1, timed := true }] else []

/-- Every choice of one mark for each fragment. -/
def combos : List (List Mark) → List (List Mark)
  | [] => [[]]
  | q :: qs => q.flatMap fun m => (combos qs).map (m :: ·)

/-- A sector candidate from its fragments' marks. -/
def candOf (ms : List Mark) : Cand :=
  { offs := ms.map (·.off), dist := (ms.map (·.dist)).sum, timed := ms.any (·.timed) }

/-- The sum of the magnitudes of a candidate's offsets. -/
def spread (c : Cand) : Nat := (c.offs.map Int.natAbs).sum

/-- The rank of sector candidates (R248). -/
def candLe (x y : Cand) : Bool :=
  decide (x.dist < y.dist) || (x.dist == y.dist &&
    (decide (spread x < spread y) || (spread x == spread y && decide (x.offs.headD 0 ≤ y.offs.headD 0))))

/-- The candidates of a sector, ranked, from the mark distances of each fragment (R247, R248). -/
def formCands (win thr cand : Nat) (timed : Bool) (dists : List (List Nat)) : List Cand :=
  match dists with
  | [ds] =>
    let q := qualifying win thr ds
    ((q.take cand).map fun m => candOf [m]) ++ (timedMark timed cand thr q).map fun m => candOf [m]
  | _ =>
    let per := dists.map fun ds => let q := qualifying win thr ds; q.take 3 ++ timedMark timed cand thr q
    (sortBy candLe ((combos per).map candOf)).take cand

/-! ### Judging a sector (R25, R251, R253) -/

/-- Condition 4 over the wedges of a sector's span: some wedge is OUT, every wedge is IN, or a record has yet to arrive. -/
def spanIn (x : Sector) : Option Bool :=
  if x.span.any (fun w => !w.inn) then some false
  else if x.frags.length < x.span.length then some true else none

/-- A wedge with its records joins a sector's span if it lies in it (R251). -/
def joinSpan (wedges : Nat) (w : Wedge) (x : Sector) : Sector :=
  let k := if w.no < x.wedge then w.no + wedges - x.wedge else w.no - x.wedge
  if x.begun ≠ 0 ∧ k ≤ x.frags.length ∧ x.span.all (fun y => y.no != w.no) then { x with span := x.span ++ [w] } else x

/-- The identifier of decoded information bytes (R241). -/
def infoTag (info : List Byte) : Nat := fieldN info 4112 8

/-- Condition 3 for decoded bytes; it does not apply to a parity sector (R242). -/
def infoGuard (pi parity : Bool) (info : List Byte) : Bool := parity || !pi || guardOk (seg info 0 4096) (seg info 4096 16)

/-- Where a candidate stands: undecided, meeting all four conditions, or out, with the first condition it failed
(0 when it was stopped). -/
inductive Standing where
  | open_
  | ok
  | out (first : Nat)
  deriving DecidableEq, Repr

/-- A sector whose preamble began while both streams were absent receives only erased values and cannot be confirmed (R237). -/
def deaf (x : Sector) : Bool := !x.hasA && !x.hasB

/-- A candidate judged (R25, R237, R250, R251). -/
def standing (pi : Bool) (x : Sector) (c : Cand) : Standing :=
  if c.stopped then .out 0
  else if c.fin = 0 then .open_
  else if c.fin = 2 ∨ deaf x then .out 1
  else if infoTag c.info ≠ x.expect then .out 2
  else if !infoGuard pi x.parity c.info then .out 3
  else match spanIn x with
    | some true => .ok
    | some false => .out 4
    | none => .open_

/-- What is decided of an attempt. -/
inductive Judged where
  | pending
  | confirm (rank : Nat)
  | fail
  deriving DecidableEq, Repr

/-- The best-ranked candidate that meets the conditions, once every better one has ended without meeting them (R253). -/
def judgeFrom (pi : Bool) (x : Sector) : List Cand → Nat → Judged
  | [], _ => .fail
  | c :: cs, i => match standing pi x c with
    | .ok => .confirm i
    | .open_ => .pending
    | .out _ => judgeFrom pi x cs (i + 1)

/-- The best rank that meets all four conditions, whether or not a better one is still open. -/
def bestOk (pi : Bool) (x : Sector) : Option Nat := x.cands.findIdx? fun c => standing pi x c == .ok

/-! ### The Garnet pool (R257–R259) -/

/-- A decoder is retired (R415). -/
def retired (s : State) (k : Nat) : Bool := bit s.red.decRetired k

/-- A decoder holds work. -/
def decBusy (s : State) (k : Nat) : Bool := s.chan.jobs.any fun j => j.dec == some k

/-- The decoders that are free and not retired. -/
def freeDecs (s : State) : List Nat := (List.range 12).filter fun k => !retired s k && !decBusy s k

/-- The decoders a lane holds. -/
def held (s : State) (n : Nat) : Nat := (s.chan.jobs.filter fun j => j.lane == n && j.dec.isSome).length

/-- A request for a decoder; an RT1 request that finds none free is counted (R259). -/
def addJob (j : Job) (s : State) : State :=
  let ahead := (s.chan.jobs.filter fun x => x.cls == 0 && x.dec.isNone).length
  let s := if j.cls = 0 ∧ (freeDecs s).length ≤ ahead then incReg aGarnetWait s else s
  { s with chan := { s.chan with jobs := s.chan.jobs ++ [j] } }

/-- Iterations a job has started. -/
def Job.iters (j : Job) : Nat := j.spent + j.run

/-- Jobs taken out of the pool. -/
def dropJobs (p : Job → Bool) (s : State) : State :=
  { s with chan := { s.chan with jobs := s.chan.jobs.filter fun j => !p j } }

/-- RT_RESERVE (R272). -/
def rtReserve (s : State) : Nat := regF s aChanCtl 4 3

/-- A waiting request may be granted now (R259). -/
def grantable (s : State) (j : Job) : Bool :=
  j.dec.isNone && decide (0 < (freeDecs s).length) && (decide (j.cls < 2) || decide (rtReserve s + 1 ≤ (freeDecs s).length))
    && !(decide (4 ≤ held s j.lane) && s.chan.jobs.any fun x => x.cls == 0 && x.dec.isNone && x.lane != j.lane)

/-- The order of requests: by class, then by their place in it. -/
def jobLe (x y : Job) : Bool := decide (x.cls < y.cls) || (x.cls == y.cls && decide (x.key ≤ y.key))

/-- The lowest-numbered free decoder granted to the highest-class request that may be granted (R259). -/
def grantDecoder (s : State) : State :=
  match (sortBy jobLe (s.chan.jobs.filter (grantable s))).head?, (freeDecs s).head? with
  | some j, some k =>
    { s with chan := { s.chan with
        grants := s.chan.grants + 1
        jobs := mapIf (fun x => x.lane == j.lane && x.target == j.target && x.dec.isNone)
                  (fun x => { x with dec := some k, run := 1, grant := s.chan.grants }) s.chan.jobs } }
  | _, _ => s

/-- Iterations charged to a lane and to a class, at a resolution (R28, R255). -/
def charge (n cls k : Nat) (s : State) : State :=
  if k = 0 then s else incWideBy (aGarnetIter cls) k (incWideBy (aChlIter n) k s)

/-! ### Result words (R375) -/

/-- A result word posted; the 65th is a microcode fault (R386). -/
def postResult (n slot rcode entry : Nat) (s : State) : State :=
  let l := getCh s n
  let l := { l with conf := l.conf + bnat (rcode == 1 || rcode == 2), fail := l.fail + bnat (rcode == 3 || rcode == 4),
                    aband := l.aband + bnat (rcode == 5) }
  if 64 ≤ l.results.length then setCh n { l with stop := l.stop <|> some 7 } s
  else setCh n { l with results := l.results ++ [slot % 2048 + rcode % 16 * 65536 + entry % 4096 * 2 ^ 20] } s

/-! ### Sectors of the operation in hand -/

/-- The unresolved sector of a slot. -/
def findSec (s : State) (n slot : Nat) : Option Sector := (getCh s n).sectors.find? fun x => x.slot == slot && x.res == 0

/-- The sectors of a lane changed. -/
def mapSecs (n : Nat) (f : Sector → Sector) (s : State) : State :=
  let l := getCh s n
  setCh n { l with sectors := l.sectors.map f } s

/-- The unresolved sector of a slot changed. -/
def updSec (n slot : Nat) (f : Sector → Sector) (s : State) : State :=
  mapSecs n (fun x => if x.slot == slot && x.res == 0 then f x else x) s

/-- The sector of a slot that was resolved last. -/
def doneSec (s : State) (n slot : Nat) : Option Sector := (getCh s n).sectors.reverse.find? fun x => x.slot == slot && x.res != 0

/-- The namespace and block of a data sector: the running read of the actuator, in the order of the requested data
sectors (DESIGN CHOICE, log 31). -/
def blockOf (s : State) (n : Nat) (d : List Byte) (x : Sector) : Option (Nat × Nat) :=
  match (getSched s n).running.head? with
  | some e =>
    let k := dataOfSlot s d (dReqOfs d)
    if e.kind = 0 ∧ k ≤ x.data then some (e.nsid, e.lba + (x.data - k)) else none
  | none => none

/-- Confirmed data written to the staging place, and to the read staging buffer (R30, R254). -/
def stageData (stage : Option Nat) (piAt : Nat) (pi : Bool) (block : Option (Nat × Nat)) (info : List Byte) (s : State) : State :=
  match stage with
  | none => s
  | some a =>
    let s := dramWrite a (seg info 0 4096) s
    let s := if pi then dramWrite piAt (seg info 4096 16) s else s
    match block with
    | some b => stageBlock b.1 b.2 (seg info 0 (if pi then 4112 else 4096)) s
    | none => s

/-- Where a data sector of an operation goes: nowhere with DISCARD (R369). -/
def stageOf (d : List Byte) (x : Sector) : Option Nat :=
  if dFlag d 0 || x.parity then none else some (dStage d + 4096 * x.data)

/-! ### Captured entries (R265, R440) -/

/-- One sample as a byte; an erased one is 0 and has its bit set in the bitmap. -/
def sampleBytes (l : List (Option Int)) : List Byte := l.map fun x => match x with | some v => BitVec.ofNat 8 (unsgn 8 v) | none => 0

/-- The bitmap of erased samples. -/
def eraseBytes (l : List (Option Int)) : List Byte :=
  (List.range ((l.length + 7) / 8)).map fun i =>
    BitVec.ofNat 8 ((List.range 8).foldl (fun v j => v + bnat ((l.getD (8 * i + j) (some 0)).isNone) * 2 ^ j) 0)

/-- A candidate's 8 bytes in an entry. -/
def candBytes (c : Cand) : List Byte :=
  padTo 4 (c.offs.map fun o => BitVec.ofNat 8 (unsgn 8 o)) ++ leBytes 1 (min c.dist 255) ++ leBytes 1 (bnat c.timed) ++ zeros 2

/-- Bytes 0x0000–0x0107 of an entry (R265). -/
def entryHeader (st source n reads pset : Nat) (psetB : List Byte) (x : Sector) (tb iters : Nat) : List Byte :=
  fieldBytes 0x108
    [(0, leBytes 1 st), (1, leBytes 1 source), (2, leBytes 1 n), (3, leBytes 1 reads), (4, leBytes 2 pset),
     (6, leBytes 2 (x.a.length / 128)), (8, leBytes 8 x.expect), (0x10, leBytes 8 tb), (0x18, leBytes 8 iters),
     (0x20, (List.range 4).flatMap fun j => leBytes 2 (x.frags.getD j (0, 0)).2),
     (0x28, padTo 24 ((x.cands.take 3).flatMap candBytes)), (0x44, leBytes 1 (bnat x.hasA + bnat x.hasB * 2)),
     (0x48, padTo 192 psetB)]

/-- A position record's 16 bytes in a capture entry (R440). -/
def posBytes (r : PosRec) : List Byte :=
  leBytes 4 (r.wedge % 1024 + r.mark * 1024 + bnat r.trk * 4096 + r.mode * 8192 + r.pes * 65536 + r.isl * 2 ^ 24)
    ++ leBytes 4 r.wper ++ leBytes 8 r.tb

/-- The 64 bytes of a front end (R440). -/
def frontState (f : Front) : List Byte := padTo 64 (Config.frontBytes (frontInts f))

/-- What a capture entry adds to the common layout (R440). -/
structure CapExt where
  kind : Nat
  forced : Bool
  pi : Bool
  vit : Nat := 0
  err : Nat := 0
  cands : List Byte := []
  ctl : Nat
  vers : Nat
  romVer : Nat
  lba : Nat
  wset : List Byte := []
  llr : List Byte := []
  verify : Bool := false

/-- The end code and the first failed condition of a candidate in a capture entry (R440). -/
def capCand (pi : Bool) (x : Sector) (c : Cand) : List Byte :=
  leBytes 2 c.iters ++ leBytes 1 (if c.stopped then 0 else c.fin)
    ++ leBytes 1 (match standing pi x c with | .out k => k | _ => 0)

/-- A SECTOR entry captured, with its capture sequence; all ones while none is made (R29, R440, R441). -/
def captureSector (n pset : Nat) (psetB : List Byte) (x : Sector) (e : CapExt) (s : State) : Nat × State :=
  let st := getStream s 3
  if !capEnabled s 3 || !capAct s 3 n || capSize s 3 = 0 then (ones64, s)
  else if st.frozen || (st.freezing && st.left == 0) then (ones64, incReg (aCapDropped 3) s)
  else
    let q := s.cap.capSeq
    let s := { s with cap := { s.cap with capSeq := q + 1 } }
    let head := entryHeader 0x10 0 n 0 pset psetB x s.now 0
    let head := if e.verify then head.take 0x44 ++ leBytes 1 4 ++ head.drop 0x45 else head
    let ext := fieldBytes 0xEF8
      [(0, leBytes 8 q), (8, leBytes 1 e.kind), (9, leBytes 1 (bnat e.forced + bnat e.pi * 2)), (0x0A, leBytes 2 e.vit),
       (0x0C, leBytes 4 e.err), (0x10, padTo 12 e.cands), (0x1C, leBytes 4 e.ctl), (0x20, leBytes 4 e.vers ++ leBytes 4 e.romVer),
       (0x28, leBytes 1 (bits (sysId s) 0 8) ++ leBytes 1 (regF s aDdbCfg 16 6)), (0x30, leBytes 8 e.lba), (0x38, frontState x.front),
       (0x78, padTo 128 (((x.span.flatMap (·.recs)).take 8).flatMap posBytes)), (0xF8, padTo 64 e.wset)]
    let body := padTo 0x16000 (sampleBytes x.a) ++ padTo 0x16000 (sampleBytes x.b) ++ padTo 0x2C00 (eraseBytes x.a)
      ++ padTo 0x2C00 (eraseBytes x.b) ++ padTo 0x9000 e.llr ++ zeros 0x4800
    (q, captureItem 3 (head ++ ext ++ body) s)

/-! ### The deferred-decode buffer (R264–R267) -/

/-- ENTRIES and ITER_DEF (R272). -/
def ddbEntries (s : State) : Nat := regF s aDdbCfg 0 12
def iterDef (s : State) : Nat := regF s aDdbCfg 16 6

/-- The DRAM offset of an entry. -/
def entryOff (s : State) (e : Nat) : Nat := (regF s aDdbBase 0 16 + e) * 262144

/-- The ring is full (R264). -/
def ddbFull (s : State) : Bool :=
  decide (ddbEntries s ≠ 0) && (regF s aDdbWr 0 12 + 1) % ddbEntries s == regF s aDdbRd 0 12 % ddbEntries s

/-- Weak sectors that the patrol of an actuator meets, and whether one could not be confirmed (R196, R270). -/
def notePatrol (n weak : Nat) (bad : Bool) (s : State) : State :=
  let d := getSched s n
  match d.patrol with
  | some p => setSched n { d with patrol := some { p with weak := p.weak + weak, bad := p.bad || bad } } s
  | none => s

/-- The track operation in hand on an actuator reads for patrol. -/
def patrolling (s : State) (n : Nat) : Bool := (getSched s n).running.any fun e => e.kind == 2

/-- An entry's state changed, in the lane and in DRAM, with its event; what its decodes owe is charged (R28, R265,
R266). A patrol read that steps 0 to 2 leave unconfirmed counts as unconfirmable (R270). -/
def setEntSt (e st source : Nat) (s : State) : State :=
  match getEnt s e with
  | none => s
  | some x =>
    let s := charge x.lane 2 x.owed s
    let s := if x.patrol ∧ (st = 3 ∨ st = 5 ∨ st = 6) then notePatrol x.lane 0 true s else s
    let s := setEnt e (some { x with st := st, source := source, cur := none, todo := [], owed := 0 }) s
    let s := dramWrite (entryOff s e) (leBytes 1 st ++ leBytes 1 source) s
    let s := dramWrite (entryOff s e + 0x18) (leBytes 8 x.iters) s
    setReg aDdbEvents (reg s aDdbEvents + 1) s

/-- A state that is final (R265). -/
def entFinal (st : Nat) : Bool := decide (4 ≤ st)

/-- An entry's own decode taken out of the pool, its iterations owed. -/
def closeEntJob (e : Nat) (s : State) : State :=
  let mine := fun (j : Job) => j.target == .deferred e
  match s.chan.jobs.find? mine, getEnt s e with
  | some j, some x => dropJobs mine (setEnt e (some { x with iters := x.iters + j.iters, owed := x.owed + j.iters }) s)
  | _, _ => s

/-- A deferred decode that confirms nothing: the entry awaits a re-read, or is unrecovered when it is read-ahead (R266). -/
def defFail (e : Nat) (s : State) : State :=
  let s := closeEntJob e s
  match getEnt s e with
  | none => s
  | some x => if x.sec.ra then setEntSt e 5 2 s else setEntSt e 3 0 s

/-- Decoded bytes meet conditions 2 and 3 for an entry's sector. -/
def defMatches (x : DefEnt) (info : List Byte) : Bool := infoTag info == x.sec.expect && infoGuard x.pi false info

/-- The candidates of a step of R266: those of the on-the-fly read, as far as the reader was present. -/
def stepCands (x : DefEnt) (step : Nat) : List Cand :=
  let cs := x.sec.cands.map fun c => { offs := c.offs, dist := c.dist, timed := c.timed : Cand }
  match step with
  | 1 => cs
  | 2 => if x.sec.hasA then cs else []
  | 3 => if x.sec.hasB then cs else []
  | _ => []

/-- The next decode of an entry: the next candidate of the step in hand, or of the first later step that has one; after
step 3 the new sync search is awaited, and after its candidates the deferred decode has failed (R266). -/
def defNext (e : Nat) (s : State) : State :=
  match getEnt s e with
  | none => s
  | some x =>
    let start := fun (step : Nat) (c : Cand) (cs : List Cand) =>
      addJob { lane := x.lane, cls := 2, target := .deferred e, key := x.order, limit := iterDef s }
        (setEnt e (some { x with step := step, cur := some c, todo := cs }) s)
    match x.todo with
    | c :: cs => start x.step c cs
    | [] =>
      if x.step = 5 then defFail e s
      else
        match ([1, 2, 3].filter fun k => decide (x.step < k) && !(stepCands x k).isEmpty) with
        | k :: _ => (match stepCands x k with | c :: cs => start k c cs | [] => s)
        | [] => setEnt e (some { x with step := 4, cur := none }) s

/-- A sample of an entry's area lies in a poisoned block (R267). -/
def sampleBad (s : State) (e area i : Nat) : Bool :=
  s.bad.any fun b => (dramBase + entryOff s e + area + i) / 64 == b.1

/-- An entry's sector as its deferred decode takes it: samples in poisoned blocks are erased, and the front end starts from the
set's seeds (R266, R267). -/
def entrySector (s : State) (e : Nat) (x : DefEnt) : Sector :=
  let keep_ := fun (area : Nat) (l : List (Option Int)) =>
    l.zipIdx.map fun v => if sampleBad s e area v.2 then none else v.1
  { x.sec with a := keep_ 0x1000 x.sec.a, b := keep_ 0x17000 x.sec.b, front := seedFront x.psetBytes }

/-- The samples of an entry that lie in poisoned blocks (R267). -/
def poisonCount (s : State) (e : Nat) (x : DefEnt) : Nat :=
  let n := x.sec.a.length
  let at_ := fun (area : Nat) => (s.bad.filter fun b =>
    let o := b.1 * 64
    let lo := dramBase + entryOff s e + area
    decide (lo ≤ o) && decide (o < lo + n)).length * 64
  at_ 0x1000 + at_ 0x17000

/-- The header of an entry is poisoned (R267). -/
def headerBad (s : State) (e : Nat) : Bool :=
  let lo := dramBase + entryOff s e
  s.bad.any fun b => decide (lo ≤ b.1 * 64) && decide (b.1 * 64 < lo + 0x140)

/-- A deferred decode begins (R266, R267). -/
def defStart (e : Nat) (s : State) : State :=
  match getEnt s e with
  | none => s
  | some x =>
    if headerBad s e then setEntSt e 3 0 s
    else
      let s := noteRead (entryOff s e) 262144 s
      let k := poisonCount s e x
      let s := if k = 0 then s else dramWrite (entryOff s e + 0x40) (leBytes 4 k) (incRegBy (aChl x.lane 18) k s)
      defNext e s

/-- An entry leaves its wait for parity recovery: its deferred decode is queued (R266). -/
def entQueue (e : Nat) (s : State) : State :=
  match getEnt s e with
  | some x => if x.st = 1 then defStart e (setEntSt e 2 0 s) else s
  | none => s

/-- An entry's sector is confirmed by an attempt; only the first confirmation takes effect (R268). -/
def entConfirm (e source : Nat) (info : List Byte) (s : State) : State :=
  match getEnt s e with
  | none => s
  | some x =>
    if entFinal x.st then incReg (aChl x.lane 6) s
    else
      let s := closeEntJob e s
      stageData x.stage x.piStage x.pi x.block info (setEntSt e 4 source s)

/-- The decode in hand of an entry judged: condition 4 waits for the last record of the span (R250, R266). -/
def entJudge (e : Nat) (s : State) : State :=
  match getEnt s e with
  | none => s
  | some x =>
    match x.cur with
    | none => s
    | some c =>
      if c.fin = 0 then s
      else if c.fin = 2 ∨ deaf x.sec ∨ !defMatches x c.info then defNext e s
      else match spanIn x.sec with
        | some true => incReg (aChl x.lane 15) (entConfirm e 2 c.info s)
        | some false => defNext e s
        | none => s

/-- A failed data sector fills the next entry; none for a sector outside a group that is read-ahead, for a full ring, and
while the buffer is off (R252, R264). `group` says that its group's parity recovery is still to come. -/
def fillEntry (n : Nat) (x : Sector) (group : Bool) (s : State) : Option Nat × State :=
  let l := getCh s n
  let d := l.dsc
  if x.parity || (x.ra && !dFlag d 1) || !regB s aChanCtl 0 then (none, s)
  else if ddbFull s then (none, incReg aDdbFull s)
  else
    let e := regF s aDdbWr 0 12
    let st := if group then 1 else 2
    let ent : DefEnt := { st := st, lane := n, pset := dPset d, psetBytes := l.pset, sec := x, pi := dFlag d 3,
                          stage := stageOf d x, piStage := dPia d + 16 * x.data, block := blockOf s n d x, patrol := patrolling s n,
                          order := s.chan.fills }
    let llr := freeBytes 36864 s
    let s := llr.2
    let off := entryOff s e
    let s := dramWrite off (entryHeader st 0 n 0 (dPset d) l.pset x s.now 0 ++ zeros 0xEF8) s
    let s := dramWrite (off + 0x1000) (padTo 0x16000 (sampleBytes x.a) ++ padTo 0x16000 (sampleBytes x.b)
      ++ padTo 0x2C00 (eraseBytes x.a) ++ padTo 0x2C00 (eraseBytes x.b) ++ llr.1 ++ zeros 0x4800) s
    let s := setEnt e (some ent) { s with chan := { s.chan with fills := s.chan.fills + 1 } }
    let s := setReg aDdbEvents (reg s aDdbEvents + 1) (setReg aDdbWr ((e + 1) % max 1 (ddbEntries s)) s)
    (some e, if group then s else defStart e s)

/-! ### Resolving a sector on the fly (R253–R255) -/

/-- The candidates of a slot that a test picks are stopped, with the iterations their decodes had started (R253). -/
def stopCands (s : State) (n slot : Nat) (p : Nat → Cand → Bool) (cs : List Cand) : List Cand :=
  cs.zipIdx.map fun e =>
    if p e.2 e.1 then
      let job := s.chan.jobs.find? fun j => j.lane == n && (j.target == .otf slot e.2 || j.target == .reread slot)
      { e.1 with iters := e.1.iters + (job.map (·.iters)).getD 0, stopped := true }
    else e.1

/-- A candidate whose decode has neither ended nor been stopped. -/
def Cand.running (c : Cand) : Bool := c.fin == 0 && !c.stopped

/-- The decodes of a sector leave the pool; their iterations stand in its candidates, which are stopped. -/
def closeCands (n slot : Nat) (s : State) : State :=
  let s1 := updSec n slot (fun x => { x with cands := stopCands s n slot (fun _ c => c.running) x.cands }) s
  dropJobs (fun j => j.lane == n && (match j.target with | .otf k _ => k == slot | .reread k => k == slot | _ => false)) s1

/-- The counters of an on-the-fly resolution (R255): `ok` the rank confirmed on, `forced` by the sample memory, `ab`
abandoned. -/
def countOtf (n : Nat) (pi : Bool) (x : Sector) (ok : Option Nat) (forced ab : Bool) (s : State) : State :=
  let add := fun (j k : Nat) (t : State) => if k = 0 then t else incRegBy (aChl n j) k t
  let rejects := fun (k : Nat) => (x.cands.filter fun c => standing pi x c == .out k).length
  let decoded := (x.cands.filter fun c => decide (0 < c.iters)).length
  let s := charge n 0 ((x.cands.headD { offs := [], dist := 0, timed := false }).iters) s
  let s := charge n 1 ((x.cands.drop 1).map (·.iters)).sum s
  let s := add 6 (decoded - bnat ok.isSome) s
  let s := add 2 (bnat x.noSync) s
  let s := add 3 (bnat x.preMiss) s
  let s := add 7 (rejects 2) (add 8 (rejects 3) (add 9 (rejects 4) s))
  match ok with
  | some i =>
    let timed := (x.cands[i]?.map (·.timed)).getD false
    let s := incWideBy (aChlConf n) 1 s
    let s := add 4 (bnat (decide (1 ≤ i) && !timed)) (add 5 (bnat timed) s)
    add 10 (bnat (x.span.any (·.settle))) (add 11 (bnat x.ra) s)
  | none =>
    if ab then add 12 (bnat x.ra) s else add 0 1 (add 1 (bnat forced) s)

/-- The versions a capture entry names (R393, R440). -/
def versActive (s : State) (n : Nat) : Nat := reg s (aSeqVerActive n)

/-- The members of a group that failed on the fly, by slot. -/
def groupFailed (s : State) (n g : Nat) : List Sector :=
  sortBy (fun a b => decide (a.slot ≤ b.slot)) ((getCh s n).sectors.filter fun x => x.group == g && x.res == 2)

/-- A failed data member of a group whose recovery is over: its result word, and its deferred decode (R261, R375). -/
def releaseMember (n : Nat) (x : Sector) (s : State) : State :=
  if x.parity || x.posted then s
  else
    let s := mapSecs n (fun y => if y.slot == x.slot && y.res == 2 then { y with posted := true } else y) s
    match x.ddb with
    | some e => postResult n x.slot 3 e (entQueue e s)
    | none => postResult n x.slot 4 0xFFF (if patrolling s n && !x.ra then notePatrol n 0 true s else s)

/-- Every failed member of a group released. -/
def releaseGroup (n g : Nat) (s : State) : State := (groupFailed s n g).foldl (fun t x => releaseMember n x t) s

/-- A failed member confirmed by parity recovery (R262, R263). -/
def parityConfirm (n : Nat) (x : Sector) (info : List Byte) (s : State) : State :=
  let d := (getCh s n).dsc
  let s := incReg (aChl n 13) s
  let s := mapSecs n (fun y => if y.slot == x.slot && y.res == 2 then { y with res := 1, posted := true, enc := info } else y) s
  if x.parity then s
  else
    let s := match x.ddb with
      | some e => entConfirm e 1 info s
      | none => stageData (stageOf d x) (dPia d + 16 * x.data) (dFlag d 3) (blockOf s n d x) info s
    postResult n x.slot 2 0xFFF s

/-- A sector rebuilt by exclusive or checks: its identifier and its guard (R262). -/
def rebuilt (pi : Bool) (x : Sector) (c : List Byte) : Bool := infoTag c == x.expect && infoGuard pi x.parity c

/-- The exclusive or of the codewords of a group's confirmed members. -/
def groupAcc (s : State) (n g : Nat) : List Byte :=
  ((getCh s n).sectors.filter fun x => x.group == g && x.res == 1).foldl (fun a x => xorBytes a (padTo 4128 x.enc)) (zeros 4128)

/-- Parity recovery of a group, once, when its last member has resolved on the fly (R261, R262). A group of sectors that
are read again has none: a re-read is an attempt of its own (R250). -/
def recoverGroup (n g : Nat) (s : State) : State :=
  let l := getCh s n
  let d := l.dsc
  let slots := groupSlots s d g
  let all := slots.all fun i => l.sectors.any fun x => x.slot == i && x.res != 0
  if !dFlag d 1 || slots.isEmpty || !all || l.recovered.contains g then s
  else
    let f := groupFailed s n g
    let lost := l.sectors.any fun x => x.group == g && (x.res == 3 || x.entry.isSome)
    let acc := groupAcc s n g
    let once := { l with recovered := g :: l.recovered }
    if !bit l.ctl 3 || lost then releaseGroup n g (setCh n once s)
    else match f with
      | [] => s
      | [x] =>
        let s := setCh n once s
        if rebuilt (dFlag d 3) x acc then parityConfirm n x acc s else releaseGroup n g (incReg (aChl n 14) s)
      | [x, y] =>
        if (spanIn x).isNone || (spanIn y).isNone then s
        else
          let s := setCh n { once with pars := { group := g, s0 := x.slot, s1 := y.slot, round := 1, second := false, acc } :: l.pars } s
          addJob { lane := n, cls := 1, target := .parity x.slot, key := x.lastBit, limit := setIterMax l.pset } s
      | _ => releaseGroup n g (setCh n once s)

/-- A group that a third failure or an abandonment has left without recovery lets its failed members go (R261). -/
def groupCheck (n g : Nat) (s : State) : State :=
  if 3 ≤ (groupFailed s n g).length then releaseGroup n g s else recoverGroup n g s

/-- The resolution of a read sector of the operation (R254). -/
def resolveRead (n slot : Nat) (ok : Option Nat) (forced ab : Bool) (s : State) : State :=
  let s := closeCands n slot s
  match findSec s n slot with
  | none => s
  | some x =>
    let l := getCh s n
    let d := l.dsc
    let pi := dFlag d 3
    let grp := dFlag d 1
    match x.entry with
    | some e =>
      -- a re-read (R268)
      let its := (x.cands.map (·.iters)).sum
      let s := match getEnt s e with
        | some y => dramWrite (entryOff s e + 0x18) (leBytes 8 (y.iters + its)) (setEnt e (some { y with iters := y.iters + its }) s)
        | none => s
      let s := charge n 2 its s
      match ok.bind fun i => x.cands[i]? with
      | some c =>
        let fin := match getEnt s e with | some y => entFinal y.st | none => true
        let s := if fin then s else incReg (aChl n 16) s
        let s := entConfirm e 3 c.info (updSec n slot (fun y => { y with res := 1, posted := true, enc := c.info }) s)
        postResult n slot 1 0xFFF s
      | none =>
        let s := updSec n slot (fun y => { y with res := if ab then 3 else 2, posted := true }) s
        if ab then postResult n slot 5 0xFFF s else postResult n slot 3 e s
    | none =>
      let s := countOtf n pi x ok forced ab s
      match ok.bind fun i => x.cands[i]? with
      | some c =>
        let s := updSec n slot (fun y => { y with res := 1, posted := true, enc := c.info }) s
        let s := if x.parity then postResult n slot 6 0xFFF s
          else postResult n slot 1 0xFFF (stageData (stageOf d x) (dPia d + 16 * x.data) pi (blockOf s n d x) c.info s)
        groupCheck n x.group s
      | none =>
        if ab then
          let s := updSec n slot (fun y => { y with res := 3, posted := true }) s
          postResult n slot 5 0xFFF s
        else
          let s := if patrolling s n && !x.parity && !x.ra then notePatrol n 1 false s else s
          let waits := grp && (groupFailed s n x.group).length < 2
          let fe := fillEntry n x waits s
          let s := fe.2
          let cap := captureSector n (dPset d) l.pset x
            { kind := 1, forced, pi, cands := (x.cands.take 3).flatMap (capCand pi x), ctl := l.ctl, vers := versActive s n,
              romVer := reg s (aSeqRomVer n), lba := ((blockOf s n d x).map (·.2)).getD 0 } s
          let s := record (srcChl n) 0x100 [sectorAddr n d x.psn, fe.1.getD ones64, cap.1] cap.2
          let s := updSec n slot (fun y => { y with res := 2, ddb := fe.1, posted := x.parity }) s
          let s := if x.parity then postResult n slot 6 0xFFF s else s
          if grp then groupCheck n x.group s
          else match doneSec s n slot with | some y => releaseMember n y s | none => s

/-- A candidate before its decode. -/
def freshCand (c : Cand) : Cand := { offs := c.offs, dist := c.dist, timed := c.timed }

/-- The candidate that a sector's LLRs are taken at outside its own candidates' decodes: the best-ranked, or offset 0
(DESIGN CHOICE, log 118). -/
def bestCand (x : Sector) : Cand := freshCand (x.cands.headD { offs := [], dist := 0, timed := false })

/-- The soft detector's LLRs of a sector of a lane's read at its best candidate. -/
def bestLlr (p : List Byte) (x : Sector) (apriori : List Int) : List Int :=
  softBits p (codeValues .both [] x (valuesOf p [] .both x) (bestCand x).offs) apriori

/-- A re-read whose decode from the sum did not confirm decodes once more, from the new read alone (R268). -/
def rereadAgain (n slot : Nat) (x : Sector) (s : State) : State :=
  let order := match x.entry.bind (getEnt s) with | some y => y.order | none => 0
  addJob { lane := n, cls := 2, target := .reread slot, key := order, limit := iterDef s }
    (updSec n slot (fun y => { y with cands := y.cands ++ [bestCand x] }) s)

/-- A sector judged: worse ranks stop once a better one meets every condition, and the attempt is resolved when it can be
(R253). Candidates run to their end even when the position has failed, so that what an attempt counts rests on its
inputs alone (DEDUCED from R256, log 32). -/
def judgeSector (n slot : Nat) (s : State) : State :=
  match findSec s n slot with
  | none => s
  | some x =>
    if !x.formed || !x.passed then s
    else
      let pi := dFlag (getCh s n).dsc 3
      let s := match bestOk pi x with
        | some r =>
          let worse := fun (i : Nat) => decide (r < i)
          let s1 := updSec n slot (fun x => { x with cands := stopCands s n slot (fun i c => worse i && c.running) x.cands }) s
          dropJobs (fun j => j.lane == n && (match j.target with | .otf k i => k == slot && worse i | _ => false)) s1
        | none => s
      match judgeFrom pi x x.cands 0 with
      | .pending => s
      | .confirm i => resolveRead n slot (some i) false false s
      | .fail =>
        if x.entry.isSome && x.cands.length == 1 then rereadAgain n slot x s
        else resolveRead n slot none false false s

/-- Requests for the decodes of a sector, once its candidates are formed and its last data bit has passed. A re-read adds its LLRs
to the entry's sum first (R258, R268). -/
def requestDecodes (n slot : Nat) (s : State) : State :=
  match findSec s n slot with
  | none => s
  | some x =>
    if !x.formed || !x.passed then s
    else match x.entry with
      | some e =>
        match getEnt s e with
        | none => s
        | some y =>
          let at_ := entryOff s e + 0x32800
          let s := noteRead at_ 36864 s
          let sum := addLlr (-127) 127 (bytesLlr (dramBytes s at_ 36864)) (bestLlr (getCh s n).pset x [])
          let s := dramWrite at_ (llrBytes sum) s
          let s := dramWrite (entryOff s e + 3) (leBytes 1 (y.reads + 1)) (setEnt e (some { y with reads := y.reads + 1 }) s)
          addJob { lane := n, cls := 2, target := .reread slot, key := y.order, limit := iterDef s }
            (updSec n slot (fun z => { z with cands := [bestCand x] }) s)
      | none =>
        if x.cands.isEmpty then resolveRead n slot none false false s
        else
          let lim := setIterMax (getCh s n).pset
          (List.range x.cands.length).foldl (fun t i =>
            addJob { lane := n, cls := if i = 0 then 0 else 1, target := .otf slot i, key := x.lastBit, limit := lim } t) s

/-! ### Decodes that end -/

/-- One decode of a two-sector parity round has ended with extrinsic LLRs `ext`, which reach the other member turned by the
accumulator; the recovery's iterations are charged when it resolves (R28, R255, R262). -/
def parityEnd (n slot : Nat) (zero : Bool) (info : List Byte) (its : Nat) (ext : List Int) (s : State) : State :=
  let l := getCh s n
  let pi := dFlag l.dsc 3
  match l.pars.find? fun p => p.s0 == slot || p.s1 == slot with
  | none => s
  | some p =>
    let other := if slot = p.s0 then p.s1 else p.s0
    let sec := fun (k : Nat) => l.sectors.find? fun x => x.slot == k && x.res == 2
    let rest := l.pars.filter fun q => q.group != p.group
    let spent := charge n 1 (p.iters + its) (setCh n { l with pars := rest } s)
    match sec slot, sec other with
    | some x, some y =>
      if zero && !deaf x && rebuilt pi x info && spanIn x == some true then
        let s := parityConfirm n x info spent
        let c := xorBytes (padTo 4128 p.acc) (padTo 4128 info)
        if rebuilt pi y c then parityConfirm n y c s else releaseGroup n p.group (incReg (aChl n 14) s)
      else if p.second && decide (4 ≤ p.round) then releaseGroup n p.group (incRegBy (aChl n 14) 2 spent)
      else
        let p' := { p with second := !p.second, round := if p.second then p.round + 1 else p.round, iters := p.iters + its,
                           x := flipLlr ext (codeword p.acc) }
        addJob { lane := n, cls := 1, target := .parity other, key := y.lastBit, limit := setIterMax l.pset }
          (setCh n { l with pars := p' :: rest } s)
    | _, _ => spent

/-! ### Wedges and the end of an operation -/

/-- What a wedge's deciding records say (R251, R284): under the CHLn_CTL and write set of the operation. -/
def wedgeOf (ctl : Nat) (win : Nat) (rs : List PosRec) : Wedge :=
  let r0 := rs.headD { isl := 0, wedge := 0, mark := 3, trk := false, pes := 255, mode := 0, wper := 0, tb := 0 }
  { no := r0.wedge
    inn := rs.all fun r => r.mark == 0 && r.trk && decide (r.pes ≤ bits ctl 16 8) && (r.mode == 4 || (r.mode == 3 && bit ctl 1))
    inw := rs.all fun r => r.trk && decide (r.pes ≤ win) && r.mode == 4 && decide (r.mark ≤ 1)
    settle := rs.any fun r => r.mode == 3
    coast := rs.any fun r => r.mark != 0
    recs := rs }

/-- The groups of the sectors of a lane. -/
def laneGroups (s : State) (n : Nat) : List Nat := ((getCh s n).sectors.map (·.group)).eraseDups

/-- A decided wedge reaches a lane's sectors and the entries whose spans still want it. -/
def laneWedge (n : Nat) (w : Wedge) (s : State) : State :=
  let k := wedgesOf s
  let s := mapSecs n (joinSpan k w) s
  let s := { s with chan := { s.chan with ddb := s.chan.ddb.map fun e => (e.1, e.2.map fun x =>
    if x.lane = n then { x with sec := joinSpan k w x.sec } else x) } }
  let s := if (getCh s n).write then s
    else ((getCh s n).sectors.filter fun x => x.res == 0).foldl (fun t x => judgeSector n x.slot t) s
  let s := (laneGroups s n).foldl (fun t g => recoverGroup n g t) s
  (s.chan.ddb.map (·.1)).foldl (fun t e => entJudge e t) s

/-- A slot of a read operation holds a read-ahead sector: it lies outside the request (R252). -/
def slotAhead (d : List Byte) (i : Nat) : Bool := decide (i < dReqOfs d) || decide (dReqOfs d + dReqCnt d ≤ i)

/-- The slots of an operation that no sector in the lane stands for are abandoned with it (R245, R252, R376). -/
def abandonUnarmed (n : Nat) (s : State) : State :=
  let l := getCh s n
  let left := (List.range (dCount l.dsc)).filter fun i => l.sectors.all fun x => x.slot != i
  let ahead := (left.filter (slotAhead l.dsc)).length
  let s := setCh n { l with aband := l.aband + left.length } s
  if ahead = 0 then s else incRegBy (aChl n 12) ahead s

/-- The end of a read operation in the lane: unresolved sectors are abandoned, those never armed too, and the failed members of
groups that never completed go to their deferred decodes (R252, R261, R376). -/
def endRead (n : Nat) (s : State) : State :=
  let par := fun (j : Job) => j.lane == n && (match j.target with | .parity _ => true | _ => false)
  let spent := ((s.chan.jobs.filter par).map (·.iters)).sum + ((getCh s n).pars.map (·.iters)).sum
  let s := charge n 1 spent (dropJobs par s)
  let open_ := ((getCh s n).sectors.filter fun x => x.res == 0).map (·.slot)
  let s := abandonUnarmed n (open_.foldl (fun t k => resolveRead n k none false true t) s)
  (laneGroups s n).foldl (fun t g => releaseGroup n g t) s

end Sys2Proof.Machine
end

