-- ==== Sys2Proof/Machine/WritePath.lean ====
section
/-! DEFINITION. The write path and on-the-fly verify: encoding, the gate, classes, rewrites, the hand-off to Caisson,
and the shock write-inhibit (R274–R300). -/

namespace Sys2Proof.Machine

/-! ### The slot map (R291, R292) -/

def getW (l : Lane) (i : Nat) : WSlot := smGet (fun _ => {}) l.slots i
def putW (i : Nat) (w : WSlot) (l : Lane) : Lane := { l with slots := smSet (fun _ => {}) l.slots i w }
def setW (n i : Nat) (w : WSlot) (s : State) : State := setCh n (putW i w (getCh s n)) s

/-- PENDING or FAIL. -/
def WSlot.isOpen (w : WSlot) : Bool := w.st == 0 || w.st == 3

/-- PASS, MARGINAL or UNPLACED (R291). -/
def WSlot.isFinal (w : WSlot) : Bool := w.st == 1 || w.st == 2 || w.st == 4

/-- WRn_STATUS.OPEN_SLOTS. -/
def openSlots (l : Lane) : Nat := if l.write then countTo (fun i => (getW l i).isOpen) (dCount l.dsc) else 0

/-- A slot awaits read-back (R289). -/
def readbackDue (l : Lane) : Bool := l.write && decide (0 < countTo (fun i => (getW l i).st == 5) (dCount l.dsc))

/-- A slot becomes UNPLACED; of a parity sector PAR_UNPLACED rises and a record names it (R292, R293). -/
def unplace (n i : Nat) (s : State) : State :=
  let l := getCh s n
  let s := incReg (aWr n 6) (setW n i { getW l i with st := 4 } s)
  if slotParity s l.dsc i then
    record (srcWr n) 0x123 [sectorAddr n l.dsc (dPsn0 l.dsc + dFirst l.dsc + i), i, ones64] (incReg aParUnplaced s)
  else s

/-! ### Data to the staging place (R16, R293, R294) -/

/-- The source map of a data sector: its journal record and data slot (R369). -/
def sourceMap (s : State) (d : List Byte) (k : Nat) : Nat × Nat :=
  let v := dramNat s (dRes d + 8 * k) 8
  (bits v 0 17, bits v 17 18)

/-- A block of a record, counted from its first: by the place of its data slot, or, for a record without slots, as the
map gives it (DESIGN CHOICE, log 33). -/
def blockInRec (r : EntryRec) (slot : Nat) : Nat := match (recSlots r).findIdx? (· == slot) with | some i => i | none => slot

/-- A data sector's block copied from the journal to its staging place, unless the journal's copy is uncorrectable, when
its slot becomes UNPLACED (R293). -/
def copyBlock (n i : Nat) (s : State) : State :=
  let d := (getCh s n).dsc
  if slotParity s d i then s
  else
    let k := dataOfSlot s d i
    let m := sourceMap s d k
    let r := getRec s m.1
    if r.kind ≠ 3 ∧ slotBad s m.2 then unplace n i s
    else
      let x := getSlot s m.2
      let data := if r.kind = 3 then zeros 4096 else padTo 4096 x.data
      let pi := if r.kind = 3 then List.replicate 16 0xFF else padTo 16 x.pi
      let s := dramWrite (dStage d + 4096 * k) data s
      if dFlag d 3 then dramWrite (dPia d + 16 * k) pi s else s

/-- A range of DRAM holds a poisoned block (R88). -/
def poisoned (s : State) (off n : Nat) : Bool :=
  s.bad.any fun b => decide (dramBase + off < b.1 * 64 + 64) && decide (b.1 * 64 < dramBase + off + n)

/-! ### Encoding (R274, R277) -/

/-- What the encoder reads of a data sector's block is noted where it is uncorrectable (R88, R293). -/
def noteBlock (d : List Byte) (x : Sector) (s : State) : State :=
  let s := noteRead (dStage d + 4096 * x.data) 4096 s
  if dFlag d 3 then noteRead (dPia d + 16 * x.data) 16 s else s

/-- The 4,128 information bytes of a data sector; none for a poisoned block or one whose guard fails (R293). -/
def encodeData (s : State) (n : Nat) (d : List Byte) (x : Sector) : Option (List Byte) :=
  let a := dStage d + 4096 * x.data
  let p := dPia d + 16 * x.data
  let data := dramBytes s a 4096
  let pi := if dFlag d 3 then dramBytes s p 16 else zeros 16
  if poisoned s a 4096 || (dFlag d 3 && (poisoned s p 16 || !guardOk data pi)) then none
  else some (data ++ pi ++ leBytes 8 (tagOf n (dHead d) x.psn (dZgen d)) ++ zeros 8)

/-- The exclusive or of a group's data sectors as encoded, with the accumulator of the carry slot for the first group of
an operation that resumes; none when the carry slot was lost (R277). -/
def groupParity (s : State) (n g : Nat) : Option (List Byte) :=
  let l := getCh s n
  let d := l.dsc
  let own := ((List.range (dCount d)).filter fun i => groupOfSlot s d i == g && !slotParity s d i).foldl
    (fun a i => xorBytes a (padTo 4128 (smGet (fun _ => []) l.enc i))) (zeros 4128)
  if g = 0 ∧ dFlag d 2 then l.carry.map fun c => xorBytes own (padTo 4128 c) else some own


/-! ### The gate (R280, R283, R284, R297) -/

/-- The shock inhibit acts on an actuator (R296, R299). -/
def inhibited (s : State) (n : Nat) : Bool := s.chan.shock.active && regB s (aWrCtl n) 2

/-- The lane may send gated cells now: the write current is set, the last wedge was IN_W, no inhibit acts, and the stream
is not about to restart (R279, R284, R293, R297). -/
def mayGate (s : State) (n : Nat) : Bool :=
  let l := getCh s n
  l.wcur.isSome && !l.wcurDue && l.inw && !inhibited s n && !(getHsl s n).wstart

/-- The channel bits between the ends of two servo fields, and those of a servo field, at nominal speed (R235, R301). -/
def wedgeBits (s : State) (p : List Byte) : Nat :=
  let a := reg s (basBase 0 + 8)
  let cfg := if bits a 0 11 = 0 then reg s (basBase 1 + 8) else a
  let turns := bits cfg 11 13 * bits cfg 0 11
  if turns = 0 then 0 else 60 * 10000000 * rateMs (setRate p) * setRatio p / (32768 * turns)

/-- The channel bits a servo field takes, from the servo bit rate of the head, UQ10.6 Mbit/s (R301, R336). -/
def servoBits (p : List Byte) (sbr : Nat) : Nat :=
  if sbr = 0 then 0 else 338 * setRatio p * rateMs (setRate p) * 10 * 64 / (32768 * sbr)

/-- The length of a fragment in channel bits (R239). -/
def fragBits (single : Bool) (j len : Nat) : Nat := (if j = 0 then 192 else 96) + 40 + 64 * len + (if single then 64 else 32)

/-- A fragment would send gated cells inside a keep-out (R283); `sbr` is the head's servo bit rate. -/
def inKeepout (s : State) (p w : List Byte) (sbr : Nat) (x : Sector) (j : Nat) : Bool :=
  match x.frags[j]? with
  | none => false
  | some (ofs, len) =>
    let room := wedgeBits s p - servoBits p sbr
    decide (ofs < wsKeepPost w) || (decide (room ≠ 0) && decide (room < ofs + fragBits (x.frags.length == 1) j len + wsKeepPre w))

/-- A sector whose gate is on is cut: FAIL without a decode, spending no rewrite (R284, R287, R292). -/
def cutSector (n slot : Nat) (s : State) : State :=
  let w := getW (getCh s n) slot
  let s := setW n slot { w with st := 3, tries := w.tries + 1 } s
  incReg (aWr n 3) (updSec n slot (fun x => { x with cut := true, gated := false, res := 4 }) s)

/-- Every gated sector of a lane is cut as writing stops; the first one's slot, if any. -/
def stopWriting (n : Nat) (s : State) : Option Nat × State :=
  let g := (getCh s n).sectors.filter fun x => x.res == 0 && x.gated
  let s := setCh n { getCh s n with inw := false } s
  (g.head?.map (·.slot), g.foldl (fun t x => cutSector n x.slot t) s)

/-! ### Write events -/

/-- The first bit of a fragment of a written sector reaches the writer (R282–R284, R292, R293). -/
def writeBegun (n slot j : Nat) (x : Sector) (sbr : Nat) (s : State) : State :=
  let l := getCh s n
  let w := getW l slot
  let due := w.isOpen && !x.missed && !w.recopy
  if !due || !mayGate s n then updSec n slot (fun y => { y with gated := false }) s
  else if inKeepout s l.pset l.wset sbr x j then
    let s := record (srcWr n) 0x122 [sectorAddr n l.dsc x.psn, slot, ones64] (incReg (aWr n 8) s)
    cutSector n slot s
  else if j = 0 then
    let s := if x.parity then s else noteBlock l.dsc x s
    match if x.parity then groupParity s n x.group else encodeData s n l.dsc x with
    | some info =>
      let l := { l with enc := if x.parity then l.enc else smInsert l.enc slot info }
      updSec n slot (fun y => { y with gated := true, gfrags := 1, enc := info }) (setCh n l s)
    | none =>
      if x.parity then unplace n slot s
      else incReg (aWr n 9) (setW n slot { w with recopy := true } s)
  else updSec n slot (fun y => { y with gated := decide (0 < y.gfrags), gfrags := y.gfrags + bnat (decide (0 < y.gfrags)) }) s

/-- The last bit of a written sector passes the writer: written in full, cut, or not written (R287, R292, R299). -/
def writePassed (n slot : Nat) (x : Sector) (s : State) : State :=
  let w := getW (getCh s n) slot
  if decide (0 < x.gfrags) && x.gfrags == x.frags.length then
    let s := incWideBy (aWrWritten n) 1 s
    let s := if 0 < w.tries then incReg (aWr n 5) s else s
    let s := setW n slot { w with tries := w.tries + 1 } s
    updSec n slot (fun y => { y with passed := true, gated := false, lastBit := s.now, vLost := y.vLost || !laneUp s n 2 }) s
  else if 0 < x.gfrags then cutSector n slot s
  else
    let s := if w.isOpen then incReg (aWr n 4) s else s
    updSec n slot (fun y => { y with res := 4 }) s

/-- A class takes effect: the slot map, the counters, the capture and the record (R287, R289, R290, R292). `cls` is
1 PASS, 2 MARGINAL, 3 FAIL. -/
def classify (n slot cls err its : Nat) (timeout : Bool) (x : Sector) (s : State) : State :=
  let l := getCh s n
  let w := getW l slot
  let s := if its = 0 then s else incWideBy (aGarnetIter 0) its s
  let s := match cls with
    | 1 => incWideBy (aWrPass n) 1 s
    | 2 => incReg (aWr n 0) s
    | _ => incReg (aWr n 1) s
  let s := if timeout then incReg (aWr n 2) s else s
  let s := updSec n slot (fun y => { y with res := 4 }) s
  let s :=
    if cls = 1 then s
    else
      let cap := captureSector n (dPset l.dsc) l.pset x
        { kind := cls, forced := timeout, pi := dFlag l.dsc 3, vit := its, err, ctl := l.ctl, vers := versActive s n,
          romVer := reg s (aSeqRomVer n), lba := 0, wset := l.wset, llr := codeword x.enc, verify := true } s
      record (srcWr n) (if cls = 2 then 0x120 else 0x121)
        [sectorAddr n l.dsc x.psn, slot + min err 65535 * 2 ^ 32, cap.1] cap.2
  if cls ≠ 3 then setW n slot { w with st := cls } s
  else if x.rb then unplace n slot s
  else
    let s := setW n slot { w with st := 3, fails := w.fails + 1 } s
    if wsRewriteMax l.wset < w.fails + 1 then unplace n slot s else s

/-- The class of a sector written in full, from its decode (R287). -/
def verifyClass (w : List Byte) (x : Sector) (zero : Bool) (info : List Byte) (its err : Nat) : Nat :=
  if !zero || padTo 4128 info != padTo 4128 x.enc || decide (wsErrFail w < err) then 3
  else if its ≤ wsItPass w ∧ err ≤ wsErrPass w ∧ x.span.any (·.coast) = false then 1
  else 2

/-- The verify decode of a sector has ended. -/
def verifyEnd (n slot : Nat) (zero : Bool) (info : List Byte) (its err : Nat) (s : State) : State :=
  match findSec s n slot with
  | some x => classify n slot (verifyClass (getCh s n).wset x zero info its err) err its false x s
  | none => s

/-- The one candidate of a verify decode: in each fragment the best offset that qualifies, or offset 0 (R286). -/
def verifyCand (p : List Byte) (dists : List (List Nat)) : Cand :=
  candOf (dists.map fun ds => (qualifying (setWin p) (setThr p) ds).headD { off := 0, dist := setThr p + 1, timed := true })

/-- The mark of a written sector has been sought at the verify reader, or at readers A and B in read-back: its decode is
requested, or, its verify stream absent, it awaits read-back (R286, R289). -/
def verifySearch (n slot : Nat) (s : State) : State :=
  match findSec s n slot with
  | none => s
  | some x =>
    let l := getCh s n
    if !l.write || !x.passed || x.formed then s
    else if !x.rb && (x.vLost || !laneUp s n 2) then
      if bit l.wctl 1 then setW n slot { getW l slot with st := 5 } (updSec n slot (fun y => { y with res := 4 }) s)
      else classify n slot 3 0 0 false x s
    else
      let e : EqPath := if x.rb then .both else .verify
      let c := verifyCand l.pset (sectorDistances l.pset l.wset e (setWin l.pset) x)
      let s := setCh n { l with front := frontAfter l.pset l.wset e x } s
      addJob { lane := n, cls := 0, target := .verify slot, key := s.now, limit := wsItMax l.wset }
        (updSec n slot (fun y => { y with formed := true, cands := [c] }) s)

/-- A verify decode meets its sample memory bound; a sector whose verify stream was absent awaits read-back all the same
(R288, R289). -/
def verifyTimeout (n slot : Nat) (s : State) : State :=
  match findSec s n slot with
  | none => s
  | some x =>
    if !(getCh s n).write || !x.passed then s
    else if !x.formed && !x.rb && (x.vLost || !laneUp s n 2) then verifySearch n slot s
    else
      let mine := fun (j : Job) => j.lane == n && j.target == .verify slot
      let its := ((s.chan.jobs.find? mine).map (·.iters)).getD 0
      let err := ((s.chan.jobs.find? mine).map (·.err)).getD 0
      classify n slot 3 err its true x (dropJobs mine s)

/-- The sectors of a lane before the last 8 that keep a property: their samples are overwritten (R260, R288). -/
def overwritten (s : State) (n : Nat) (p : Sector → Bool) : List Sector :=
  let xs := (getCh s n).sectors.filter p
  (xs.take (xs.length - 8)).filter fun x => x.res == 0

/-- The verify sample memory holds 8 sectors: an older one still unresolved meets its bound (R288). -/
def verifyOverwrite (n : Nat) (s : State) : State :=
  (overwritten s n (·.passed)).foldl (fun t x => verifyTimeout n x.slot t) s

/-- The verify stream is lost: every written sector not yet decoded awaits read-back (R289). -/
def verifyLost (n : Nat) (s : State) : State :=
  if (getCh s n).write then mapSecs n (fun x => if x.res == 0 && !x.formed && !x.rb then { x with vLost := true } else x) s else s

/-- A wedge decided for a write operation (R284). -/
def writeWedge (n : Nat) (w : Wedge) (s : State) : State :=
  let l := getCh s n
  if !l.write then s
  else if w.inw && !inhibited s n then setCh n { l with inw := true } s
  else (stopWriting n s).2

/-- The preamplifier reports an aborted write stream: it restarts, and the sectors in flight are cut (R293). -/
def writeAborted (n : Nat) (s : State) : State :=
  if !(getCh s n).write then s
  else
    let inw := (getCh s n).inw
    let s := incReg (aWr n 10) (stopWriting n s).2
    setHsl n { getHsl s n with wstart := true } (setCh n { getCh s n with inw := inw } s)

/-! ### Revolutions (R289, R292) -/

/-- The limit of R292: every slot PENDING or FAIL becomes UNPLACED. -/
def unplaceOpen (n : Nat) (s : State) : State :=
  forTo (fun i t => if (getW (getCh t n) i).isOpen then unplace n i t else t) (dCount (getCh s n).dsc) s

/-- A write revolution begins; poisoned staging blocks are copied again first. With WR_REV_MAX revolutions used the limit
applies instead (R292, R293). -/
def writeRev (n : Nat) (s : State) : State :=
  let l := getCh s n
  if wsRevMax l.wset ≤ l.revs then unplaceOpen n s
  else
    let s := forTo (fun i t =>
      if (getW (getCh t n) i).recopy then copyBlock n i (setW n i { getW (getCh t n) i with recopy := false } t) else t)
      (dCount l.dsc) s
    setCh n { getCh s n with revs := l.revs + 1 } s

/-- The read-back revolution begins (R289). -/
def readBack (n : Nat) (s : State) : State :=
  let l := getCh s n
  incReg (aWr n 7) (setCh n { l with rdback := true, revs := l.revs + 1 } s)

/-! ### The start and the end of a write operation (R277, R279, R294, R295) -/

/-- The carry slot's accumulator loaded: none when it is poisoned (R277). -/
def loadCarry (n : Nat) (s : State) : State :=
  let l := getCh s n
  if dFlag l.dsc 2 then
    let s := noteRead (dCarry l.dsc) 4616 s
    setCh n { l with carry := if poisoned s (dCarry l.dsc) 4616 then none else some (dramBytes s (dCarry l.dsc) 4128) } s
  else s

/-- PA_WCUR is to be written when it differs from the last value written there, ahead of every waiting access (R279). -/
def requestCurrent (n : Nat) (s : State) : State :=
  let l := getCh s n
  let v := wsCurrent l.wset
  if l.wcur = some v then s
  else
    let h := getHsl s n
    let q : CfReq := { pair := none, write := true, reg := 0x24, data := bits v 0 6 + bits v 8 4 * 256 }
    setHsl n { h with queue := q :: h.queue } (setCh n { l with wcur := some v, wcurDue := true } s)

/-- The write of PA_WCUR has ended (R279): a failure ends the operation, and no last value is held. -/
def currentDone (n : Nat) (ok : Bool) (s : State) : State :=
  let l := getCh s n
  if !l.wcurDue then s
  else if ok then setCh n { l with wcurDue := false } s
  else setCh n { l with wcurDue := false, wcur := none, stop := if l.write then (l.stop <|> some 0x0B) else l.stop } s

/-- The committed records that an operation's source map names are taken into it: they are Destaging, and no other entry
waits for them (R172). -/
def takeRecords (n : Nat) (s : State) : State :=
  let d := (getCh s n).dsc
  let is := (((List.range (dCount d)).filter fun i => !slotParity s d i).map fun i => (sourceMap s d (dataOfSlot s d i)).1).eraseDups
  is.foldl (fun t i =>
    let r := getRec t i
    if r.state = 2 then
      let other := fun (e : SchedEnt) => !(e.kind == 1 && e.rcd == i)
      let c := t.cmd
      setRec i { r with state := 3 } { t with cmd := { c with sched := c.sched.map fun (m, d) =>
        (m, { d with queue := d.queue.filter other, window := d.window.filter other }) } }
    else t) s

/-- The lane begins a write operation: data to its staging place, write current, the stream (R279, R280, R293). -/
def startWrite (n : Nat) (s : State) : State :=
  let s := forTo (fun i t => copyBlock n i t) (dCount (getCh s n).dsc) (takeRecords n s)
  let s := requestCurrent n (loadCarry n s)
  setHsl n { getHsl s n with wstart := true } s

/-- The accumulator of an incomplete last group goes to the carry slot: the codeword and the tag (R277). -/
def storeCarry (n : Nat) (s : State) : State :=
  let l := getCh s n
  let d := l.dsc
  let g := groupOfSlot s d (dCount d)
  let open_ := ((List.range (dCount d)).filter fun i => groupOfSlot s d i == g && !slotParity s d i)
  if !dFlag d 1 || open_.isEmpty then s
  else match groupParity s n g with
    | some a => dramWrite (dCarry d) (codeword a ++ seg a 4112 8) s
    | none => s

/-- MEDIA_WP advances past blocks whose records have left the journal by destage, up to the first that has not (R166); of a
conventional namespace the medium now holds the record's blocks (R179). -/
def advanceMedia (i : Nat) (r : EntryRec) (s : State) : State :=
  let f := s.cmd.fmt
  if !isZoned f r.nsid then
    let rest := s.jrn.convWritten.filter fun e => !(e.1 == r.nsid && decide (r.slba ≤ e.2.1) && decide (e.2.1 + e.2.2 ≤ r.slba + r.nlb))
    { s with jrn := { s.jrn with convWritten := (r.nsid, r.slba, r.nlb) :: rest } }
  else
    let g := zoneOfLba f r.nsid r.slba
    let pe := max (smGet (fun _ => 0) s.jrn.placedEnd g) (r.slba % 65536 + r.nlb)
    let held := s.jrn.recs.filter fun e => e.1 != i && decide (1 ≤ e.2.state) && decide (e.2.state ≤ 4) && isZoned f e.2.nsid
      && zoneOfLba f e.2.nsid e.2.slba == g
    let lim := held.foldl (fun w e => min w (e.2.slba % 65536)) pe
    let z := getZone s g
    let s := setZone g { z with mediaWp := max z.mediaWp lim } s
    { s with jrn := { s.jrn with placedEnd := smSet (fun _ => 0) s.jrn.placedEnd g pe } }

/-- The head of the surface a record's blocks lie on is absent or faulty (R181). -/
def recHeadBad (s : State) (r : EntryRec) : Bool :=
  let f := s.cmd.fmt
  if isZoned f r.nsid then zoneHeadBad s (zoneOfLba f r.nsid r.slba)
  else headBad s (actOfLba f r.nsid r.slba) (convHead f r.nsid r.slba)

/-- A record's outcomes reach Caisson: blocks placed; a block UNPLACED, for want of a good journal copy or by verify; the
head declared failed meanwhile; a slot not final (R35, R172, R190, R192, R294, R295). -/
def reportRecord (i : Nat) (outs : List (Nat × Nat)) (s : State) : State :=
  let r := getRec s i
  if r.state ≠ 3 then s
  else
    let un := outs.filter fun o => o.2 == 4
    let open_ := outs.any fun o => o.2 != 1 && o.2 != 2
    if !un.isEmpty then
      let lost := fun k => match (recSlots r)[k]? with | some x => slotBad s x | none => false
      if un.any (fun o => lost o.1) then
        deferRecord i 2 un.length (breachBlock i ((List.range r.nlb).all lost) s)
      else deferRecord i 1 un.length s
    else if open_ && recHeadBad s r then deferRecord i 3 (outs.filter fun o => o.2 != 1 && o.2 != 2).length s
    else if open_ then
      let n := actOfLba s.cmd.fmt r.nsid r.slba
      let c := getSched s n
      let e : SchedEnt := { kind := 1, seq := r.seq, rcd := i, nsid := r.nsid, lba := r.slba, nlb := r.nlb, since := r.since }
      setSched n { c with queue := e :: c.queue } (setRec i { r with state := 2, placed := [] } s)
    else
      let placed := (r.placed ++ outs.map (·.1)).eraseDups
      if (List.range r.nlb).all placed.contains then leaveJournal i (advanceMedia i r s)
      else setRec i { r with placed := placed } s

/-- Every slot's outcome reported to Caisson (R294). -/
def reportWrite (n : Nat) (s : State) : State :=
  let l := getCh s n
  let d := l.dsc
  let outs := ((List.range (dCount d)).filter fun i => !slotParity s d i).map fun i =>
    let m := sourceMap s d (dataOfSlot s d i)
    (m.1, blockInRec (getRec s m.1) m.2, (getW l i).st)
  let s := ((outs.map (·.1)).eraseDups).foldl (fun t i =>
    reportRecord i ((outs.filter fun o => o.1 == i).map fun o => (o.2.1, o.2.2)) t) s
  progress (sweep s)

/-- The end of a write operation in the lane (R277, R294, R295). -/
def endWrite (n : Nat) (s : State) : State :=
  let s := dropJobs (fun j => j.lane == n && (match j.target with | .verify _ => true | _ => false)) s
  let s := reportWrite n (storeCarry n s)
  let h := getHsl s n
  setHsl n { h with writeEn := false, wstart := false } s

/-! ### The shock write-inhibit (R296–R300) -/

/-- An input activates the inhibit, or goes on holding it; `input` is 0, 1 for an accelerometer, 2, 3 for ACCEL_INTx
(R296). -/
def shockInput (input : Nat) (s : State) : State :=
  let k := s.chan.shock
  if k.active then s
  else
    let s := { s with chan := { s.chan with shock := { k with active := true, hold := bits k.cfg 8 8 } } }
    let s := incReg aShockCount s
    forTo (fun n t =>
      if actPresent t n && regB t (aWrCtl n) 2 then
        let t := mgtUpdate n (setHsl n { getHsl t n with shockPull := true } t)
        let p := stopWriting n t
        record (srcWr n) 0x124 [p.1.getD ones64, input, ones64] p.2
      else t) 4 s

/-- The magnitude of an axis, Q6.10 g, exceeds SHOCK_THR, UQ4.4 g. -/
def overShock (s : State) (v : Int) : Bool := decide (bits s.chan.shock.cfg 0 8 * 64 < v.natAbs)

/-- INT_EN in effect, with an ACCEL_INTx high (R296, R299). -/
def Shock.intHeld (k : Shock) : Bool := bit k.cfg 18 && k.ints != 0

/-- An accelerometer sample arrives: WR_SHOCK_CFG takes effect, an enabled ACCEL_INTx that is high with it (R299). -/
def shockCfg (s : State) : State :=
  let s := { s with chan := { s.chan with shock := { s.chan.shock with cfg := reg s aShockCfg } } }
  if s.chan.shock.intHeld then shockInput (if bit s.chan.shock.ints 0 then 2 else 3) s else s

/-- An accelerometer's sample as a shock input (R296). -/
def shockSample (a : Nat) (axes : List Int) (s : State) : State :=
  let past := axes.any (overShock s)
  let s := { s with chan := { s.chan with shock := { s.chan.shock with above := setBits s.chan.shock.above a 1 (bnat past) } } }
  if past && bit s.chan.shock.cfg (16 + a) then shockInput a s else s

/-- The inhibit ends: the pull is released and each write stream restarts (R297). -/
def shockEnd (s : State) : State :=
  if !s.chan.shock.active || s.chan.shock.intHeld then s
  else
    let s := { s with chan := { s.chan with shock := { s.chan.shock with active := false } } }
    forTo (fun n t =>
      if actPresent t n && (getHsl t n).shockPull then
        let t := mgtUpdate n (setHsl n { getHsl t n with shockPull := false } t)
        if (getCh t n).write then setHsl n { getHsl t n with wstart := true } t else t
      else t) 4 s

/-- A write to WRn_CTL: SHOCK_EN acts at once, the rest at the next operation (R299). -/
def writeWrCtl (n v : Nat) (s : State) : State :=
  let s := setReg (aWrCtl n) (bits v 0 3) s
  if s.chan.shock.active && bit v 2 then
    let h := getHsl s n
    (stopWriting n (mgtUpdate n (setHsl n { h with shockPull := true } s))).2
  else s

end Sys2Proof.Machine
end

