-- ==== Sys2Proof/Machine/Assist.lean ====
section
/-! DEFINITION. Energy assist, fly height and calibration: the loops, the targets they are given, trips, and the
calibration blocks (R341–R361). -/

namespace Sys2Proof.Machine

/-! ### Calibration blocks (R356, R357) -/

/-- The offset in SPACE 0x3 of a head's block: its active view, or its staging view. -/
def calOfs (staging : Bool) (h : Nat) : Nat := h * 0x1000 + (if staging then 0x20000 else 0)

/-- A word of a calibration block. -/
def calWord (s : State) (st : Bool) (h off : Nat) : Nat := (smGet (fun _ => 0) s.cal.tab (calOfs st h + off)).toNat

/-- A field of one or two bytes of a calibration block. -/
def cal8 (s : State) (st : Bool) (h off : Nat) : Nat := bits (calWord s st h (off / 4 * 4)) (off % 4 * 8) 8
def cal16 (s : State) (st : Bool) (h off : Nat) : Nat := bits (calWord s st h (off / 4 * 4)) (off % 4 * 8) 16

/-- A word of a calibration block written. -/
def setCal (st : Bool) (h off v : Nat) (s : State) : State :=
  { s with cal := { s.cal with tab := smSet (fun _ => 0) s.cal.tab (calOfs st h + off) (BitVec.ofNat 32 v) } }

/-- The offset of field `f` (0 HTR_RD, 1 HTR_WR, 2 AST_SP, 3 AST_FF) of entry (b, p). -/
def entOfs (b p f : Nat) : Nat := 0x100 + (b * 8 + p) * 8 + f * 2

/-- KIND: a laser head, whose sense values and set-points are Q10.6 °C; an oscillator's are the level byte. -/
def isLaser (s : State) (h : Nat) : Bool := cal8 s false h 1 == 1

/-- A value in the assist sense format of a head. -/
def senseFmt (laser : Bool) (v : Nat) : Int := if laser then sgn 16 v else (v % 256 : Nat)

/-! ### Interpolation (R358) -/

/-- A quotient rounded to the nearest integer, ties away from zero. -/
def roundDiv (a : Int) (b : Nat) : Int :=
  if 0 ≤ a then (2 * a + b) / (2 * b : Nat) else -((-2 * a + b) / (2 * b : Nat))

/-- Linear interpolation over the temperature points; no extrapolation. -/
def interp (npts : Nat) (t : Int) (tpt v : Nat → Int) : Int :=
  if npts ≤ 1 ∨ t ≤ tpt 0 then v 0
  else if tpt (npts - 1) ≤ t then v (npts - 1)
  else
    let p := countTo (fun k => decide (k < npts) && decide (tpt k ≤ t)) 8 - 1
    v p + roundDiv ((v (p + 1) - v p) * (t - tpt p)) (tpt (p + 1) - tpt p).toNat

/-- The four values interpolated for a head at a band (R347, R358). -/
def targetsOf (s : State) (h band : Nat) : Targets :=
  let b := Nat.min band (cal8 s false h 2 - 1)
  let f := fun k (cv : Nat → Int) =>
    interp (cal8 s false h 3) s.cal.td (fun p => sgn 16 (cal16 s false h (0x20 + 2 * p))) (fun p => cv (cal16 s false h (entOfs b p k)))
  { htrRd := f 0 Int.ofNat, htrWr := f 1 Int.ofNat, astSp := f 2 (senseFmt (isLaser s h)), astFf := f 3 Int.ofNat }

def getAst (s : State) (n : Nat) : AssistAct := smGet (fun _ => {}) s.cal.acts n
def setAst (n : Nat) (v : AssistAct) (s : State) : State :=
  { s with cal := { s.cal with acts := smSet (fun _ => {}) s.cal.acts n v } }

/-- A track operation presents its band and heater step, a boundary for them (R347, R360, R371). -/
def presentBand (n h band hstep : Nat) (s : State) : State :=
  let k := cal8 s false h 2
  let s := if k ≤ band then incReg (aAstCount n 6) s else s
  let b := if k ≤ band then k - 1 else band
  setAst n { getAst s n with band := b, step := sgn 8 hstep, t := targetsOf s h b } s

/-! ### Trips (R351, R352) -/

/-- A head's trip: the loop's EN goes to 0, the trip is counted and recorded, and a write operation of the actuator ends
with STATUS 0x05. `cond`: 1 transducer temperature, 2 bias, 3 level, 4 ASSIST_FAULT, 5 heater power, 6 HEATER_FAULT
(DESIGN CHOICE, log 46). -/
def tripHead (n h : Nat) (heater : Bool) (cond sense : Nat) (s : State) : State :=
  let k := bnat heater
  let t := smGet (fun _ => 0) s.cal.trips h
  if bit t k then s
  else
    let a := getAst s n
    let a := if heater then { a with htr := { a.htr with en := false, overN := 0 } }
             else { a with ast := { a.ast with en := false, overN := 0, under := 0, onFor := 0 } }
    let c := s.cal
    let s := setAst n a { s with cal := { c with
      trips := smSet (fun _ => 0) c.trips h (setBits t k 1 1), generation := c.generation + 1,
      counts := smSet (fun _ => 0) c.counts (h * 4 + k) (satAdd 32 (smGet (fun _ => 0) c.counts (h * 4 + k)) 1) } }
    let s := record srcCal 0x1C0 [h, cond, sense] (incReg (aAstCount n k) s)
    let l := getCh s n
    if l.busy && l.write then setCh n { l with stop := some (l.stop.getD 5) } s else s

/-! ### One tick of one loop (R343, R344, R348–R350) -/

/-- What a loop's tick is given: gains, limits and rates of the head's block, the feedforward, the sense value and the
conditions of R343. -/
structure LoopK where
  kp : Int
  ki : Int
  ilim : Int
  umax : Int
  xfer : Int
  hi : Int
  rate : Int
  manRate : Int
  manVal : Int
  ff : Int
  sense : Int
  tgt : Int
  fresh : Bool
  opened : Bool
  frozen : Bool
  manual : Bool
  limited : Bool
  safe : Bool

/-- A rate limiter's step (R348). -/
def rateStep (lo hi rate target x : Int) (frozen : Bool) : Int :=
  let t := clampI lo hi target
  if x < lo ∨ hi < x then clampI lo hi x
  else if frozen then x
  else
    let d := t - x
    if (d.natAbs : Int) ≤ rate then t else if d < 0 then x - rate else x + rate

/-- One tick of a loop whose EN bit is 1; whether a preset was clamped. In manual operation no PI term acts, but a fresh tick
is still the last fresh tick of the preset that follows (R349, R350). -/
def loopOn (k : LoopK) (l : LoopSt) : LoopSt × Bool :=
  let due := l.preset || l.manual || (!l.en && l.d != 0)
  let l := { l with en := true, x := rateStep 0 k.hi k.rate k.tgt l.x k.frozen, tgt := k.tgt, onFor := l.onFor + 1 }
  let man := rateStep 0 k.umax k.manRate k.manVal (if l.manual then l.man else roundShift l.u 12) false
  if k.manual then
    ({ l with manual := true, man := man, u := man * 4096, preset := true, e := if k.fresh then l.x - k.sense else l.e }, false)
  else
    let um := k.umax * 4096
    let e := if k.opened then 0 else if k.fresh then l.x - k.sense else l.e
    let lim := k.ilim * 4096
    let ff := k.ff * 4096
    let back := l.opened && !k.opened
    let want := l.u - ff - k.kp * e
    let i := clampI (-lim) lim want
    let hiHit := decide (um ≤ l.u) || k.limited
    let stuck := (hiHit && decide (0 < e)) || (decide (l.u ≤ 0) && decide (e < 0)) || k.safe
    let p := if due || back then ({ l with i := i, d := want - i }, i != want)
             else if k.fresh && !k.opened && !stuck then ({ l with i := clampI (-lim) lim (l.i + k.ki * e) }, false)
             else (l, false)
    let q := p.1
    ({ q with e := e, u := clampI 0 um (ff + k.kp * e + q.i + q.d), d := toward0I (k.xfer * 4096) q.d, manual := false,
              preset := false, opened := k.opened }, p.2)
where
  /-- Moving toward 0 by at most a rate. -/
  toward0I (rate x : Int) : Int := if rate < x then x - rate else if x < -rate then x + rate else 0

/-- One tick of a loop: an EN bit of 0 computes nothing (R343). -/
def loopTick (k : LoopK) (en : Bool) (l : LoopSt) : LoopSt × Bool :=
  if en then loopOn k l else ({ l with en := false, onFor := 0, overN := 0, under := 0 }, false)

/-- CODE_MAX (R342). -/
def codeMax (fs demMax : Nat) : Nat := Nat.min 1023 (demMax * 1024 / fs)

/-- The demand code of a loop (R342, R353), 0 while its EN bit is 0. -/
def demandCode (fs demMax : Nat) (l : LoopSt) : Nat :=
  if !l.en || fs = 0 then 0 else Nat.min (codeMax fs demMax) (roundDiv (l.u * 1024) (fs * 4096)).toNat

/-- A loop restarted for a new head: the limiter at its target, i, e and d at 0 (R345). -/
def loopRestart (tgt : Int) (l : LoopSt) : LoopSt :=
  { l with x := tgt, tgt := tgt, i := 0, e := 0, d := 0, preset := false, overN := 0, under := 0, onFor := 0 }

/-! ### One tick of an actuator's loops -/

/-- The STATUS word last received shows a bit (R230). -/
def paStat (s : State) (n b : Nat) : Bool := regB s (aHslPaStat n) b

/-- The gains, limits and rates of one loop of a head; `o` is 0 for assist and 1 for the heater. -/
def loopConst (s : State) (n h : Nat) (o : Nat) : LoopK :=
  let c := fun off => cal16 s false h off
  { kp := sgn 16 (c (0x40 + 4 * o)), ki := sgn 16 (c (0x42 + 4 * o)), ilim := (c (0x48 + 2 * o) : Nat),
    umax := (c (0x34 + 2 * o) : Nat), xfer := (c 0x4C : Nat),
    hi := if o = 1 then (c 0x36 : Nat) else senseFmt (isLaser s h) (c 0x30), rate := (c (0x3A + 2 * o) : Nat),
    manRate := (c 0x3E : Nat), manVal := (regF s (aAstMan n) (16 * o) 16 : Nat), ff := 0, sense := 0, tgt := 0, fresh := false,
    opened := false, frozen := false, manual := regB s (aAstCtl n) o, limited := paStat s n 11, safe := paStat s n 10 }

/-- The trip conditions on sense values, counted on fresh ticks while the element is driven (R351). -/
def judgeTrips (n h : Nat) (s : State) : State :=
  let a := getAst s n
  let w := reg s (aHslPaSense n)
  let sense := w % 65536
  let count := cal8 s false h 4
  if !a.fresh then s
  else
    let laser := isLaser s h
    let hotter := if laser then decide (sgn 16 (cal16 s false h 0x32) < sgn 16 sense) else decide (cal8 s false h 0x32 < sense % 256)
    let under := !laser && decide (5 ≤ a.ast.onFor) && decide (((sense / 256 : Nat) : Int) * 4 < a.ast.tgt)
    let ast := if a.ast.en then { a.ast with overN := if hotter then a.ast.overN + 1 else 0, under := if under then a.ast.under + 1 else 0 } else a.ast
    let hot := decide (cal16 s false h 0x36 < w / 65536)
    let htr := if a.htr.en then { a.htr with overN := if hot then a.htr.overN + 1 else 0 } else a.htr
    let s := setAst n { a with ast, htr } s
    let s := if ast.en && decide (count ≤ ast.overN) && hotter then tripHead n h false (if laser then 1 else 2) sense s else s
    let s := if ast.en && decide (count ≤ ast.under) && under then tripHead n h false 3 sense s else s
    if htr.en && decide (count ≤ htr.overN) && hot then tripHead n h true 5 (w / 65536) s else s

/-- A new target outside its limits counts once (R348). -/
def noteClamp (n : Nat) (k : LoopK) (old : Int) (en : Bool) (s : State) : State :=
  if en && k.tgt != old && (decide (k.tgt < 0) || decide (k.hi < k.tgt)) then incReg (aAstCount n 3) s else s

/-- The head has a block, its full scale is known and no trip is set (R342, R346, R352). -/
def loopMay (s : State) (n h o : Nat) : Bool :=
  cal8 s false h 0 != 0 && regF s (aAstFs n) (16 * o) 16 != 0 && !bit (smGet (fun _ => 0) s.cal.trips h) o

/-- A write track operation with a head is in progress on an actuator. -/
def writingHead (s : State) (n m : Nat) : Bool := (getCh s n).busy && (getCh s n).write && dHead (getCh s n).dsc == m

/-- The assist is on, as the write set places its intervals about the gated cells (R285). -/
def assistDue (w : List Byte) (t : TickIn) : Bool :=
  let gap := match t.next, t.since with
    | some a, some b => decide (a + b < wsLead w + wsTail w + 6) && !(t.gapKeepout && wsWedgeOff w)
    | _, _ => false
  !(wsWedgeOff w && t.keepout) &&
    (t.gated || t.next.any (fun k => decide (k ≤ wsLead w)) || t.since.any (fun k => decide (k ≤ wsTail w)) || gap)

/-- The heater's write interval: from HTR_LEAD before the operation's first gated cell to its last (R285, R346). -/
def heaterDue (w : List Byte) (t : TickIn) : Bool := !t.done && t.first.any fun k => decide (k ≤ wsHtrLead w)

/-- One tick of an actuator's two loops (R343–R353). -/
def assistTick (n : Nat) (t : TickIn) (s : State) : State :=
  let m := (getHsl s n).head
  let h := 8 * n + m
  let wr := writingHead s n m
  let s := judgeTrips n h s
  let a := getAst s n
  let moved := a.head != m
  let a := if moved || !wr || t.boundary then { a with t := targetsOf s h a.band, head := m } else a
  let rd := a.t.htrRd + (if (getCh s n).busy then a.step else 0) * (cal16 s false h 0x38 : Nat)
  let wset := (getCh s n).wset
  let tgtH := if heaterDue wset t && wr then a.t.htrWr else rd
  let kA := loopConst s n h 0
  let kH := loopConst s n h 1
  let a := if moved then { a with ast := loopRestart (clampI 0 kA.hi a.t.astSp) a.ast, htr := loopRestart (clampI 0 kH.hi tgtH) a.htr } else a
  let driven := a.ast.en || a.htr.en
  let stale := if a.fresh then 0 else if driven then Nat.min 16 (a.stale + 1) else a.stale
  let s := if stale = 3 ∧ a.stale = 2 then incReg (aAstCount n 2) s else s
  let w := reg s (aHslPaSense n)
  let sense := if isLaser s h then sgn 16 w else (w / 256 % 256 : Nat)
  let kA := { kA with ff := a.t.astFf, sense := sense, tgt := a.t.astSp, fresh := a.fresh, opened := stale == 16, frozen := t.gated && wr }
  let kH := { kH with sense := (w / 65536 : Nat), tgt := tgtH, fresh := a.fresh, opened := stale == 16, frozen := t.gated && wr }
  let enA := assistDue wset t && wr && (getCh s n).inw && !inhibited s n && loopMay s n h 0
  let enH := regB s (aAstCtl n) 2 && !a.noRec && loopMay s n h 1
  let s := noteClamp n kH a.htr.tgt enH (noteClamp n kA a.ast.tgt enA s)
  let pA := loopTick kA enA a.ast
  let xH := rateStep 0 kH.hi kH.rate kH.tgt a.htr.x kH.frozen
  let pH := loopTick { kH with ff := xH } enH a.htr
  let s := if pA.2 then incReg (aAstCount n 4) s else s
  let s := if pH.2 then incReg (aAstCount n 4) s else s
  let s := setAst n { a with ast := pA.1, htr := pH.1, fresh := false, stale := stale } s
  let cA := demandCode (regF s (aAstFs n) 0 16) (cal16 s false h 0x34) pA.1
  let cH := demandCode (regF s (aAstFs n) 16 16) (cal16 s false h 0x36) pH.1
  setReg (aAstDem n) (cA + cH * 65536) (setReg (aAstSp n) (unsgn 16 pA.1.x + unsgn 16 pH.1.x * 65536) s)

/-! ### Temperature and heads due (R354, R361) -/

/-- The heads whose CAL_DUE bit reads 1. -/
def dueMask (s : State) : Nat :=
  (List.range 32).foldl (fun m h =>
    let far := decide ((regF s aCalCfg 0 8 * 16 : Nat) < (s.cal.td - sgn 16 (cal16 s false h 0x0C)).natAbs)
    if regB s aCalPresent h && (cal8 s false h 0 != 2 || far) then setBits m h 1 1 else m) 0

/-- CAL_DUE follows its causes; each change from 0 to 1 makes a record. While T_D is held no bit changes (R354). -/
def noteDue (s : State) : State :=
  let m := if s.cal.tsrc = 2 then s.cal.due else dueMask s
  let t := forTo (fun h t => if bit m h && !bit s.cal.due h then record srcCal 0x1C6 [h, ones64, ones64] t else t) 32 s
  { t with cal := { t.cal with due := m } }

/-! ### Commit (R357, R359, R360) -/

/-- The bytes from `lo` up to `hi`, both multiples of 2, of a staging block are 0. -/
def stageZero (s : State) (h lo hi : Nat) : Bool := (List.range ((hi - lo) / 2)).all fun k => cal16 s true h (lo + 2 * k) == 0

/-- An entry of a staging block keeps the limits, or is 0 beyond the bands and points (R357). -/
def entryGood (s : State) (h b p : Nat) : Bool :=
  let f := fun k => cal16 s true h (entOfs b p k)
  let laser := cal8 s true h 1 == 1
  if cal8 s true h 2 ≤ b ∨ cal8 s true h 3 ≤ p then f 0 == 0 && f 1 == 0 && f 2 == 0 && f 3 == 0
  else decide (f 0 ≤ cal16 s true h 0x36) && decide (f 1 ≤ cal16 s true h 0x36) &&
    decide (senseFmt laser (f 2) ≤ senseFmt laser (cal16 s true h 0x30)) && decide (f 3 ≤ cal16 s true h 0x34)

/-- The first rule that a staging block breaks, as LAST_RESULT shows it; 0 when it is accepted (R357, R359, R365). -/
def commitResult (s : State) (h : Nat) (restore : Bool) : Nat :=
  let b := fun off => cal8 s true h off
  let w := fun off => cal16 s true h off
  let tp := fun p => sgn 16 (w (0x20 + 2 * p))
  let npts := b 3
  if !(b 0 == 2 || (restore && b 0 == 1)) then 1
  else if !((b 1 == 1 || b 1 == 2) && b 1 == bits (Config.preamp (h / 8) 8) 4 2) then 2
  else if !(decide (1 ≤ b 2) && decide (b 2 ≤ 32) && decide (1 ≤ npts) && decide (npts ≤ 8) && decide (2 ≤ b 4) && decide (b 4 ≤ 64)) then 3
  else if !((List.range 8).all fun p => if p < npts then p = 0 || decide (tp (p - 1) < tp p) else w (0x20 + 2 * p) == 0) then 4
  else if (b 1 == 1 && decide (sgn 16 (w 0x32) ≤ sgn 16 (w 0x30))) || w 0x34 == 0 || w 0x36 == 0 || w 0x3A == 0 || w 0x3C == 0 || w 0x3E == 0 ||
      w 0x4C == 0 then 5
  else if !((List.range 32).all fun i => (List.range 8).all fun p => entryGood s h i p) then 6
  else if !(b 5 == 0 && w 6 == 0 && w 0x0E == 0 && stageZero s h 0x4E 0x100 && stageZero s h 0x900 0x1000) then 7
  else if !regB s aCalPresent h || bit s.cal.pending h then 8
  else 0

/-- The words of a block. -/
def blockWords (s : State) (st : Bool) (h : Nat) : List (Nat × Word) :=
  s.cal.tab.filterMap fun e =>
    if calOfs st h ≤ e.1 ∧ e.1 < calOfs st h + 0x1000 then some (e.1 - calOfs st h, e.2) else none

/-- Words put into a block in place of what it held. -/
def putBlock (st : Bool) (h : Nat) (ws : List (Nat × Word)) (s : State) : State :=
  let t := smClear s.cal.tab (calOfs st h) (calOfs st h + 0x1000)
  { s with cal := { s.cal with tab := ws.foldl (fun t e => smSet (fun _ => 0) t (calOfs st h + e.1) e.2) t } }

/-- The registers that show the active block's bookkeeping (R365). -/
def showBlock (h : Nat) (s : State) : State :=
  let w := calWord s false h
  let s := setReg (aCalLastT h) (cal16 s false h 0x0C) (setReg (aCalCount h) (w 8) s)
  setWide (aCalLastWallLo h) (w 0x18 + w 0x1C * 2 ^ 32) (setWide (aCalLastTbLo h) (w 0x10 + w 0x14 * 2 ^ 32) s)

/-- The active and staging views of a head exchange their blocks at a boundary (R360). -/
def exchange (h : Nat) (s : State) : State :=
  let old := blockWords s false h
  let new := blockWords s true h
  let count := calWord s false h 8
  let keep := bit s.cal.restore h
  let s := putBlock true h old (putBlock false h new s)
  let s := { s with cal := { s.cal with pending := setBits s.cal.pending h 1 0, restore := setBits s.cal.restore h 1 0,
                                        generation := s.cal.generation + 1 } }
  let s := if keep then s
           else
             let wall := wallNow s
             let s := setCal false h 8 (satAdd 32 count 1) s
             let s := setCal false h 0x0C (unsgn 16 s.cal.td) s
             let s := setCal false h 0x14 (s.now / 2 ^ 32) (setCal false h 0x10 s.now s)
             incReg aCalApplied (setCal false h 0x1C (wall / 2 ^ 32) (setCal false h 0x18 wall s))
  let n := h / 8
  let s := showBlock h s
  let s := if (getAst s n).head = h % 8 then setAst n { getAst s n with t := targetsOf s h (getAst s n).band } s else s
  noteDue s

end Sys2Proof.Machine
end

