-- ==== Sys2Proof/Machine/Sequencer.lean ====
section
/-! DEFINITION. The track sequencers: descriptors, the microword machine and its operations, forced ends and microcode
faults, bank switches (R367–R397). -/

namespace Sys2Proof.Machine

def getSq (s : State) (n : Nat) : Seqr := smGet (fun _ => {}) s.seq n
def setSq (n : Nat) (v : Seqr) (s : State) : State := { s with seq := smSet (fun _ => {}) s.seq n v }

/-- A general register (R377). -/
def getG (s : State) (n k : Nat) : Nat := smGet (fun _ => 0) (getSq s n).g k
def setG (n k v : Nat) (s : State) : State :=
  let q := getSq s n
  setSq n { q with g := smSet (fun _ => 0) q.g k (v % 2 ^ 32) } s

/-- The flags of a result of 32 bits (R379). -/
def setFlags (n v : Nat) (s : State) : State :=
  setSq n { getSq s n with z := v % 2 ^ 32 == 0, lt := decide (2 ^ 31 ≤ v % 2 ^ 32) } s

/-- An event latch set (R383). -/
def latch (n c : Nat) (s : State) : State :=
  let q := getSq s n
  if q.latch.contains c then s else setSq n { q with latch := c :: q.latch } s

def unlatch (n c : Nat) (s : State) : State :=
  let q := getSq s n
  setSq n { q with latch := q.latch.filter (· != c) } s

/-- A trip is set for a head (R352). -/
def headTrip (s : State) (n m : Nat) : Bool := smGet (fun _ => 0) s.cal.trips (8 * n + m) != 0

/-! ### Banks (R388, R391) -/

/-- WORDS of the active bank, 0 with ROM only. -/
def bankWords (s : State) (n k : Nat) : List Nat := smGet (fun _ => []) (getSq s n).banks k

/-- An address holds a word that may execute: ROM, or within the active bank (R386, R388). -/
def addrGood (s : State) (n a : Nat) : Bool :=
  decide (a < 0x800) || (decide ((getSq s n).active ≠ 0) && decide (a < 0x800 + (bankWords s n ((getSq s n).active - 1)).length))

/-- Where execution resumes: the active bank's ENTRY, or 0x0000 with ROM only (R385). -/
def entryOf (s : State) (n : Nat) : Nat :=
  match (getSq s n).active with | 0 => 0 | k + 1 => regF s (aSeqBankEntry n k) 0 13

/-- A branch trace item (R393, R439). -/
def traceItem (n kind from_ to_ cond : Nat) (s : State) : State :=
  captureItem 2 (leBytes 8 (kind % 8 + n % 4 * 8 + from_ % 8192 * 32 + to_ % 8192 * 2 ^ 18 + cond % 64 * 2 ^ 31
    + s.now / 8 % 2 ^ 27 * 2 ^ 37)) s

/-! ### Ends and faults (R376, R385–R387) -/

/-- The number of ring entries; 0 while LOG2 is 0 (R396). -/
def ringSize (s : State) (n : Nat) : Nat := let l := regF s (aSeqOpqCfg n) 0 4; if l = 0 then 0 else 2 ^ l

/-- A completion record written, and HW_PI advanced (R376). -/
def complete (n : Nat) (rec_ : List Byte) (s : State) : State :=
  let i := regF s (aSeqCplIdx n) 16 8
  let s := dramWrite (reg s (aSeqCplBase n) * 4096 + 32 * i) (padTo 32 rec_) s
  setRegF (aSeqCplIdx n) 16 8 ((i + 1) % max 1 (ringSize s n)) s

/-- The 32 bytes of a completion record (R376). -/
def completionBytes (d : List Byte) (status revs code conf fail aband slips tb : Nat) : List Byte :=
  fieldBytes 32 [(0, seg d 8 8), (8, leBytes 1 status), (9, leBytes 1 (dKind d)), (0x0A, leBytes 1 revs), (0x0C, leBytes 2 code),
    (0x0E, leBytes 2 conf), (0x10, leBytes 2 fail), (0x12, leBytes 2 aband), (0x14, leBytes 2 slips), (0x18, leBytes 8 tb)]

/-- The lane after an operation: only what outlives one is kept. -/
def idleLane (l : Lane) : Lane :=
  { posq := l.posq, half := l.half, last := l.last, wcur := l.wcur, wcurDue := l.wcurDue, inw := l.inw }

/-- An entry of the deferred-decode buffer may still confirm a block. -/
def deferredHolds (s : State) (nsid lba : Nat) : Bool :=
  s.chan.ddb.any fun e => match e.2 with | some x => x.block == some (nsid, lba) && !entFinal x.st | none => false

/-- The blocks of a running entry that the operation's sectors have read: confirmed, or failed (R270). -/
def readBlocksOf (s : State) (n : Nat) (e : SchedEnt) : List Nat :=
  let l := getCh s n
  let k := dataOfSlot s l.dsc (dReqOfs l.dsc)
  (l.sectors.filter fun x => !x.parity && (x.res == 1 || x.res == 2) && decide (k ≤ x.data)).map fun x => e.lba + (x.data - k)

/-- Media work whose track operation has ended: blocks that reads still wait for and no deferred decode holds, and patrol's
blocks not yet read, return to the scheduler as entries (R40, R187). -/
def endMedia (n : Nat) (s : State) : State :=
  match (getSched s n).running.head? with
  | none => s
  | some e =>
    let all := (List.range e.nlb).map (e.lba + ·)
    match e.kind with
    | 0 => returnBlocks n e (all.filter fun b => !deferredHolds s e.nsid b) s
    | 2 =>
      let done := readBlocksOf s n e
      let d := getSched s n
      let es := (blockRuns (all.filter fun b => !done.contains b)).map fun (a, k) => { e with lba := a, nlb := k }
      if es.isEmpty then s else setSched n { d with queue := es ++ d.queue } s
    | _ => s

/-- The end of a track operation (R294, R376, R396): the lane ends, the completion record is written, the actuator is
free. -/
def endOp (n status code : Nat) (s : State) : State :=
  let w := (getCh s n).write
  let s := if w then endWrite n s else endMedia n (endRead n s)
  let l := getCh s n
  let d := l.dsc
  let slots := (List.range (dCount d)).map fun i => (getW l i).st
  let conf := if w then (slots.filter fun x => x == 1 || x == 2).length else l.conf
  let fail := if w then (slots.filter (· == 4)).length else l.fail
  let ab := if w then (slots.filter fun x => !(x == 1 || x == 2 || x == 4)).length else l.aband
  let s := complete n (completionBytes d status l.revs code conf fail ab l.slips s.now) s
  let s := setSq n { getSq s n with inOp := false, loaded := none } (setCh n { idleLane l with dsc := d } s)
  let s := setSched n { getSched s n with running := [] } s
  setRegF (aSeqCtl n) 1 1 0 (incReg (aSeqCount n 0) s)

/-- A forced end (R385): counted, recorded, and execution resumes at ENTRY with the return stack empty. -/
def forcedEnd (n status : Nat) (s : State) : State :=
  let s := record (srcSeq n) 0x140 [status, status] (incReg (aSeqCount n 1) s)
  let s := traceItem n 4 (getSq s n).pc (entryOf s n) status s
  let s := trigger 3 (endOp n status 0 s)
  setSq n { getSq s n with stack := [], pc := entryOf s n, waiting := false } s

/-- A switch of banks (R391): the return stack is emptied and execution goes to the new ENTRY. -/
def switchBank (n sel : Nat) (s : State) : State :=
  let old := reg s (aSeqVerActive n)
  let ver := match sel with | 0 => 0 | k + 1 => reg s (aSeqBankVer n k)
  let build := match sel with | 0 => 0 | k + 1 => smGet (fun _ => 0) (getSq s n).builds k
  let was := (getSq s n).pc
  let s := setSq n { getSq s n with active := sel, pend := none, stack := [], waiting := false, faultAt := [] } s
  let s := setReg (aSeqVerActive n) ver (setReg (aSeqBankSel n) sel s)
  let s := setSq n { getSq s n with pc := entryOf s n } s
  let s := record (srcSeq n) 0x143 [old + ver * 2 ^ 32, build] (incReg (aSeqCount n 6) s)
  traceItem n 6 was (getSq s n).pc 0 s

/-- A microcode fault (R386, R387); causes are numbered in the order of R386 from 1 (DESIGN CHOICE, log 34). -/
def mcFault (n cause : Nat) (s : State) : State :=
  let q := getSq s n
  let at_ := s.now :: q.faultAt.filter fun t => decide (s.now - t < 1000000000)
  let s := record (srcSeq n) 0x141 [q.pc, cause] (incReg (aSeqCount n 3) s)
  let s := setSq n { q with faultAt := if q.active = 0 then [] else at_ } s
  let s := if q.inOp then forcedEnd n 7 s else setSq n { getSq s n with pc := entryOf s n, waiting := false } s
  if q.active ≠ 0 ∧ 4 ≤ at_.length then
    let s := record (srcSeq n) 0x142 [q.pc, smGet (fun _ => 0) q.builds (q.active - 1)] s
    switchBank n 0 { s with red := { s.red with romFallback := setBits s.red.romFallback n 1 1 } }
  else s

/-- A cause to end an operation that a unit has raised takes effect (R385). -/
def watchOne (n : Nat) (s : State) : State :=
  let l := getCh s n
  match l.stop with
  | none => s
  | some st =>
    let s := setCh n { l with stop := none } s
    if !(getSq s n).inOp then s else if st = 7 then mcFault n 5 s else forcedEnd n st s

/-- Every actuator's pending causes take effect. -/
def watch (s : State) : State := forTo watchOne 4 s

/-- A command whose effects may end a track operation. -/
def actOp (s : State) (f : State → State) : Host.Outcome State Fault Refusal := act s fun s => watch (f s)

/-- A command that may also change the severity. -/
def actAll (s : State) (f : State → State) : Host.Outcome State Fault Refusal := actSev s fun s => watch (f s)

/-! ### Conditions (R381) -/

/-- A condition held in a latch. -/
def isEvent (c : Nat) : Bool := [0x02, 0x03, 0x0D, 0x0E, 0x17, 0x18, 0x19].contains c

/-- A condition code that is not reserved. -/
def condGood (c : Nat) : Bool := decide (c ≤ 0x2B) || (decide (0x30 ≤ c) && decide (c ≤ 0x37))

/-- A test over the records of the last wedge. -/
def lastRecs (s : State) (n : Nat) (p : PosRec → Bool) : Bool :=
  match (getCh s n).last with | some w => !w.recs.isEmpty && w.recs.all p | none => false

/-- The nominal wedge period, ns; 0 before the configuration is fixed. -/
def wedgeNs (s : State) : Nat :=
  let a := reg s (basBase 0 + 8)
  let cfg := if bits a 0 11 = 0 then reg s (basBase 1 + 8) else a
  let t := bits cfg 11 13 * bits cfg 0 11
  if t = 0 then 0 else 60000000000 / t

/-- The head that an upstream lane which is UP last named (R206). -/
def upstreamHead (s : State) (n : Nat) : Option Nat :=
  if clkSrc s n = 3 then none else some (getLane (getHsl s n) (clkSrc s n)).head

/-- WRn_STATUS.INHIBIT (R299). -/
def wrInhibit (s : State) (n : Nat) : Bool := (getCh s n).write && (inhibited s n || !(getCh s n).inw)

/-- A descriptor waits, and the completion ring has room (R368). -/
def opAvail (s : State) (n : Nat) : Bool :=
  let k := ringSize s n
  decide (k ≠ 0) && regF s (aSeqOpqIdx n) 0 8 != regF s (aSeqOpqIdx n) 16 8
    && (regF s (aSeqCplIdx n) 16 8 + 1) % max 1 k != regF s (aSeqCplIdx n) 0 8

/-- Whether a condition is true. -/
def condTrue (s : State) (n c : Nat) : Bool :=
  let q := getSq s n
  let l := getCh s n
  let d := l.dsc
  if isEvent c then q.latch.contains c
  else match c with
    | 0x00 => true
    | 0x04 => match l.last with | some w => w.inn | none => false
    | 0x05 => match l.last with | some w => w.inw | none => false
    | 0x06 => lastRecs s n (·.trk)
    | 0x07 => lastRecs s n (·.mark == 0)
    | 0x08 => match l.last with | some w => w.recs.any fun r => decide (2 ≤ r.mark) | none => false
    | 0x09 => lastRecs s n (·.mode == 4)
    | 0x0A => lastRecs s n (·.mode == 3)
    | 0x0B => decide (4 * wedgeNs s < s.now - q.lastRec)
    | 0x0C => match l.last with | some w => w.no == getG s n 14 % 1024 | none => false
    | 0x0F => q.headSeen && upstreamHead s n == some q.head
    | 0x10 => s.chan.shock.active
    | 0x11 => decide (l.arm.length < 4)
    | 0x12 => match q.loaded with | some x => decide (x.armed < x.frags.length) | none => false
    | 0x13 => decide (dFirst d + dCount d ≤ q.ptr)
    | 0x14 => match q.loaded with | some x => x.parity | none => false
    | 0x15 => match q.loaded with | some x => decide (1 < x.frags.length) | none => false
    | 0x16 => match q.loaded with | some x => x.ra | none => false
    | 0x1A => !l.results.isEmpty
    | 0x1B => l.arm.isEmpty && l.sectors.all fun x => x.res != 0
    | 0x1C => decide (openSlots l ≠ 0)
    | 0x1D => readbackDue l
    | 0x1E => wrInhibit s n
    | 0x1F => regB s (aHslPaStat n) 9
    | 0x20 => q.z
    | 0x21 => !q.z
    | 0x22 => q.lt
    | 0x23 => !q.lt
    | 0x24 => laneUp s n 0
    | 0x25 => laneUp s n 1
    | 0x26 => laneUp s n 2
    | 0x27 => downUp s n
    | 0x28 => headTrip s n q.head
    | 0x29 => opAvail s n
    | 0x2A => regB s (aSeqCtl n) 1
    | 0x2B => q.pend.isSome
    | _ => if 0x30 ≤ c ∧ c ≤ 0x37 then regB s (aSeqSoft n) (c - 0x30) else false

/-! ### Words (R378, R379) -/

/-- The 48 bits of a word with its operation. -/
def wordBits (op : Nat) (w : MWord) : Nat :=
  op * 2 ^ 42 + w.wait.val * 2 ^ 40 + w.cond.val * 2 ^ 34 + w.opd.val * 2 ^ 13 + w.next.val

/-- The operand bits an operation uses are the only ones set (R379). -/
def opdGood (op opd : Nat) : Bool :=
  let d := bits opd 17 4
  let a := bits opd 13 4
  let low := bits opd 0 13
  match op with
  | 0x01 | 0x04 => true
  | 0x02 => !bit opd 16
  | 0x03 | 0x18 => low == 0
  | 0x05 | 0x06 | 0x07 | 0x08 => bits opd 0 9 == 0
  | 0x09 => d == 0 && bits opd 0 9 == 0
  | 0x0A => d == 0
  | 0x0B | 0x0C | 0x0D | 0x1C => d == 0 && a == 0
  | 0x0F => bits opd 8 9 == 0 && decide (bits opd 0 8 ≤ 0x14)
  | 0x10 => bits opd 17 2 == 0
  | 0x12 | 0x19 => d == 0 && low == 0
  | 0x15 => a == 0 && low == 0
  | 0x1A => d == 0 && bits opd 8 5 == 0
  | 0x1B => bits opd 16 5 == 0
  | _ => opd == 0

/-- A word's encodings are those of R379: no reserved operation or condition, no wait where none may stand. -/
def wordGood (v : Nat) : Bool :=
  let op := bits v 42 6
  decide (op ≤ 0x1C) && condGood (bits v 34 6) && opdGood op (bits v 13 21)
    && (bits v 40 2 == 0 || !([0x0B, 0x0C, 0x0E, 0x11, 0x1C].contains op))

/-- A CODE with which the ROM's handler of the descriptor in hand may end it (R394). -/
def romCode (s : State) (n code : Nat) : Bool :=
  let d := (getCh s n).dsc
  let rw := fun (ok : Bool) => if ok then code == 0 || (code == 2 && regB s (aSeqCtl n) 1) else code == 3
  match dKind d with
  | 1 | 3 => rw (!dFlag d 4)
  | 2 => rw (dFlag d 4)
  | 4 => code == 0 || code == 4
  | _ => code == 1

/-- A word agrees with what the spec says of the ROM: FETCH stands at 0x0002 alone, with dispatch base 0x0010; no branch goes into
a bank; each handler ends with its CODE (R388, R394). -/
def romFits (s : State) (n v : Nat) : Bool :=
  let q := getSq s n
  let op := bits v 42 6
  let target := bits v 13 13
  (op == 0x1C) == (q.pc == 2) && (op != 0x1C || target == 0x10) && decide (bits v 0 13 < 0x800) &&
    (!([0x0B, 0x0C, 0x0D].contains op) || decide (target < 0x800)) && (op != 0x1B || !q.inOp || romCode s n (bits v 13 16))

/-- The word at the sequencer's present address is this one; the ROM's contents are not given, so there the word is what
the sender says it is, as far as it agrees with what the spec says of it (log 36). -/
def wordAt (s : State) (n v : Nat) : Bool :=
  let q := getSq s n
  if q.pc < 0x800 then romFits s n v
  else decide (q.active ≠ 0) && (bankWords s n (q.active - 1))[q.pc - 0x800]? == some v

/-- Going to an address; one in no loaded bank is a microcode fault (R386). -/
def goto (n a : Nat) (s : State) : State :=
  let s := setSq n { getSq s n with pc := a, waiting := false } s
  if addrGood s n a then s else mcFault n 2 s

/-- A wait that completes clears the latch that completed it, with its trace item; none when it is not satisfied (R382,
R383). -/
def passWait (n : Nat) (w : MWord) (s : State) : Option State :=
  let c := w.cond.val
  let item := fun (t : State) => traceItem n 5 (getSq t n).pc (getSq t n).pc c t
  match w.wait.val with
  | 0 => some s
  | 1 => if condTrue s n c then some (item (if isEvent c then unlatch n c s else s)) else none
  | 2 => if condTrue s n c then none else some (item s)
  | _ =>
    if condTrue s n c then some (item (if isEvent c then unlatch n c s else s))
    else if condTrue s n 0x0D then some (item (unlatch n 0x0D s)) else none

/-- One microword of sequencer `n` executes: a word that still waits does nothing, a word that breaks the rules is a
fault, and otherwise its operation is performed (R378, R382, R386). -/
def runWord (n : Fin 4) (op : Nat) (w : MWord) (s : State) (f : State → State) : Host.Outcome State Fault Refusal :=
  actOp s fun s =>
    let v := wordBits op w
    if !actPresent s n.val || !regB s (aSeqCtl n.val) 0 || !wordAt s n.val v then s
    else if w.err = .uncorrectable then mcFault n.val 4 s
    else
      let s := if w.err = .corrected then incReg (aSeqCount n.val 5) s else s
      if !wordGood v then mcFault n.val 1 s
      else match passWait n.val w s with
        | none => setSq n.val { getSq s n.val with waiting := true, wcond := w.cond.val } s
        | some s => f s

/-- The operand fields (R379). -/
def opGd (w : MWord) : Nat := bits w.opd.val 17 4
def opGa (w : MWord) : Nat := bits w.opd.val 13 4
def opGb (w : MWord) : Nat := bits w.opd.val 9 4
def opImm (w : MWord) : Nat := unsgn 32 (sgn 13 w.opd.val)
def opTarget (w : MWord) : Nat := bits w.opd.val 0 13

/-! ### Plain operations (R379) -/

/-- NOP. -/
def execMwNop (n : Fin 4) (w : MWord) (s : State) : Host.Outcome State Fault Refusal := runWord n 0x00 w s fun s =>
  goto n w.next s

/-- LDI. -/
def execMwLdi (n : Fin 4) (w : MWord) (s : State) : Host.Outcome State Fault Refusal := runWord n 0x01 w s fun s =>
  goto n w.next (setG n (opGd w) (bits w.opd.val 0 17) s)

/-- LDHI. -/
def execMwLdhi (n : Fin 4) (w : MWord) (s : State) : Host.Outcome State Fault Refusal := runWord n 0x02 w s fun s =>
  goto n w.next (setG n (opGd w) (bits w.opd.val 0 16 * 65536 + getG s n (opGd w) % 65536) s)

/-- MOV. -/
def execMwMov (n : Fin 4) (w : MWord) (s : State) : Host.Outcome State Fault Refusal := runWord n 0x03 w s fun s =>
  goto n w.next (setG n (opGd w) (getG s n (opGa w)) s)

/-- A result stored with its flags. -/
def arith (n : Fin 4) (w : MWord) (v : Nat) (s : State) : State :=
  goto n w.next (setFlags n v (setG n (opGd w) v s))

/-- ADDI. -/
def execMwAddi (n : Fin 4) (w : MWord) (s : State) : Host.Outcome State Fault Refusal := runWord n 0x04 w s fun s =>
  arith n w (getG s n (opGa w) + (opImm w)) s

/-- ADD. -/
def execMwAdd (n : Fin 4) (w : MWord) (s : State) : Host.Outcome State Fault Refusal := runWord n 0x05 w s fun s =>
  arith n w (getG s n (opGa w) + getG s n (opGb w)) s

/-- SUB. -/
def execMwSub (n : Fin 4) (w : MWord) (s : State) : Host.Outcome State Fault Refusal := runWord n 0x06 w s fun s =>
  arith n w (getG s n (opGa w) + 2 ^ 32 - getG s n (opGb w)) s

/-- AND. -/
def execMwAnd (n : Fin 4) (w : MWord) (s : State) : Host.Outcome State Fault Refusal := runWord n 0x07 w s fun s =>
  arith n w (Nat.land (getG s n (opGa w)) (getG s n (opGb w))) s

/-- OR. -/
def execMwOr (n : Fin 4) (w : MWord) (s : State) : Host.Outcome State Fault Refusal := runWord n 0x08 w s fun s =>
  arith n w (Nat.lor (getG s n (opGa w)) (getG s n (opGb w))) s

/-- Flags of a comparison: Z for equal, LT for less as signed values. -/
def compare_ (n a b : Nat) (s : State) : State :=
  setSq n { getSq s n with z := a == b, lt := decide (sgn 32 a < sgn 32 b) } s

/-- CMP. -/
def execMwCmp (n : Fin 4) (w : MWord) (s : State) : Host.Outcome State Fault Refusal := runWord n 0x09 w s fun s =>
  goto n w.next (compare_ n (getG s n (opGa w)) (getG s n (opGb w)) s)

/-- CMPI. -/
def execMwCmpi (n : Fin 4) (w : MWord) (s : State) : Host.Outcome State Fault Refusal := runWord n 0x0A w s fun s =>
  goto n w.next (compare_ n (getG s n (opGa w)) (opImm w) s)

/-! ### Control flow (R379) -/

/-- A branch, with its trace item when it is taken. -/
def branch (n : Nat) (w : MWord) (taken : Bool) (s : State) : State :=
  if taken then goto n (opTarget w) (traceItem n 0 (getSq s n).pc (opTarget w) w.cond.val s) else goto n w.next s

/-- BRT. -/
def execMwBrt (n : Fin 4) (w : MWord) (s : State) : Host.Outcome State Fault Refusal := runWord n 0x0B w s fun s =>
  branch n w (condTrue s n w.cond) s

/-- BRF. -/
def execMwBrf (n : Fin 4) (w : MWord) (s : State) : Host.Outcome State Fault Refusal := runWord n 0x0C w s fun s =>
  branch n w (!condTrue s n w.cond) s

/-- CALL; a fifth is a fault. -/
def execMwCall (n : Fin 4) (w : MWord) (s : State) : Host.Outcome State Fault Refusal := runWord n 0x0D w s fun s =>
  let q := getSq s n
  if 4 ≤ q.stack.length then mcFault n 3 s
  else goto n (opTarget w) (traceItem n 1 q.pc (opTarget w) w.cond.val (setSq n { q with stack := w.next.val :: q.stack } s))

/-- RET; with the stack empty a fault. -/
def execMwRet (n : Fin 4) (w : MWord) (s : State) : Host.Outcome State Fault Refusal := runWord n 0x0E w s fun s =>
  let q := getSq s n
  match q.stack with
  | [] => mcFault n 3 s
  | a :: rest => goto n a (traceItem n 2 q.pc a w.cond.val (setSq n { q with stack := rest } s))

/-! ### Descriptor fields, timers, latches, head (R379, R380, R383) -/

/-- A descriptor field by its LDF index (R380). -/
def ldfField (d : List Byte) (i : Nat) : Nat :=
  match i with
  | 0x00 => fieldN d 0 1
  | 0x01 => fieldN d 1 1
  | 0x02 => fieldN d 2 1
  | 0x03 => fieldN d 3 1
  | 0x04 => unsgn 32 (sgn 8 (fieldN d 4 1))
  | 0x05 => dPset d
  | 0x06 => dFirst d
  | 0x07 => dCount d
  | 0x08 => dReqOfs d
  | 0x09 => dReqCnt d
  | 0x0A => fieldN d 0x10 4
  | 0x0B => dZgen d
  | 0x14 => dLcount d
  | _ => fieldN d (0x58 + 4 * (i - 0x0C)) 4

/-- LDF. -/
def execMwLdf (n : Fin 4) (w : MWord) (s : State) : Host.Outcome State Fault Refusal := runWord n 0x0F w s fun s =>
  goto n w.next (setG n (opGd w) (ldfField (getCh s n).dsc (bits w.opd.val 0 8)) s)

/-- TMR: a count of 0 stops the timer. -/
def execMwTmr (n : Fin 4) (w : MWord) (s : State) : Host.Outcome State Fault Refusal := runWord n 0x10 w s fun s =>
  let k := bits w.opd.val 0 17
  let t : Option Timer := if k = 0 then none else some { wedges := bit w.opd.val 19, left := k, from_ := s.now, count := k }
  let s := unlatch n (if bit w.opd.val 20 then 0x0E else 0x0D) s
  goto n w.next (setSq n (if bit w.opd.val 20 then { getSq s n with t1 := t } else { getSq s n with t0 := t }) s)

/-- CLR. -/
def execMwClr (n : Fin 4) (w : MWord) (s : State) : Host.Outcome State Fault Refusal := runWord n 0x11 w s fun s =>
  goto n w.next (unlatch n w.cond s)

/-- A head requested in the downstream header (R217, R371). -/
def requestHead (n m : Nat) (s : State) : State :=
  let h := getHsl s n
  if h.head = m then setSq n { getSq s n with head := m } s
  else setHsl n { h with head := m } (setSq n { getSq s n with head := m, headSeen := false } s)

/-- SELHD; while WRITE_EN is 1 a fault. A head that is absent or faulty is not selected (R125). -/
def execMwSelhd (n : Fin 4) (w : MWord) (s : State) : Host.Outcome State Fault Refusal := runWord n 0x12 w s fun s =>
  let m := getG s n (opGa w) % 8
  if (getHsl s n).writeEn then mcFault n 10 s
  else goto n w.next (if headBad s n m then s else requestHead n m s)

/-! ### The layout and the arm queue (R372–R374) -/

/-- A layout entry's 32 bytes obey R372; `split` says that the zone's format allows fragments. -/
def layoutGood (e : List Byte) (split : Bool) : Bool :=
  let k := fieldN e 3 1
  let len := fun (j : Nat) => fieldN e (7 + 6 * j) 2
  decide (fieldN e 0 2 ≤ 1023) && decide (fieldN e 2 1 ≤ 1) && decide (1 ≤ k) && decide (k ≤ 4) && (k == 1 || split)
    && (List.range 4).all (fun j => fieldN e (9 + 6 * j) 1 == 0 || j == 3)
    && (List.range 4).all (fun j => decide (j < k) || (fieldN e (4 + 6 * j) 3 == 0 && len j == 0))
    && fieldN e 0x1C 4 == 0 && fieldN e 0x1B 1 == 0
    && (if k = 1 then len 0 == 576 else (List.range k).all (fun j => decide (16 ≤ len j)) && ((List.range k).map len).sum == 576)

/-- The sector a layout entry describes (R372–R374). -/
def loadSector (s : State) (n idx : Nat) (e : List Byte) : Sector :=
  let d := (getCh s n).dsc
  let slot := idx - dFirst d
  let parity := bit (fieldN e 2 1) 0
  let data := dataOfSlot s d slot
  let ent := if dDdb d = 0 ∨ parity then 0xFFFF else dramNat s (dDdb d + 2 * data) 2
  { slot, psn := dPsn0 d + idx, parity, ra := slotAhead d slot,
    group := groupOfSlot s d slot, data, entry := if ent = 0xFFFF ∨ dFlag d 4 then none else some ent,
    expect := expectId s n d slot, wedge := fieldN e 0 2 % 1024,
    frags := (List.range (fieldN e 3 1)).map fun j => (fieldN e (4 + 6 * j) 3, fieldN e (7 + 6 * j) 2) }

/-- LDSECT: the layout entry at the pointer; one that breaks the rules, is poisoned, or lies beyond the operation is a
layout error (R372, R385, log 35). -/
def execMwLdsect (n : Fin 4) (w : MWord) (s : State) : Host.Outcome State Fault Refusal := runWord n 0x13 w s fun s =>
  let q := getSq s n
  if !q.inOp then goto n w.next s
  else
    let d := (getCh s n).dsc
    let a := dLayout d + 32 * q.ptr
    let e := dramBytes s a 32
    let s := noteRead a 32 s
    if dFirst d + dCount d ≤ q.ptr ∨ poisoned s a 32 ∨ !layoutGood e (fieldN (getCh s n).pset 1 1 == 1) then forcedEnd n 3 s
    else goto n w.next (setSq n { q with loaded := some (loadSector s n q.ptr e), ptr := q.ptr + 1 } s)

/-- A re-read that reads nothing for a sector: its entry has had 24 re-reads, or its state is final (R268). -/
def rereadSpent (s : State) (x : Sector) : Bool :=
  match x.entry with
  | some e => (match getEnt s e with | some y => decide (24 ≤ y.reads) || entFinal y.st | none => true)
  | none => false

/-- A sector of a read lies more than RA_MAX sectors beyond the request, and completes no parity group that reaches so far: the lane
does not read it (R250, R252). -/
def beyondReach (s : State) (n : Nat) (x : Sector) : Bool :=
  let l := getCh s n
  let d := l.dsc
  let edge := dReqOfs d + dReqCnt d + bits l.ctl 8 8
  decide (edge ≤ x.slot) && !(dFlag d 1 && (List.range (min edge (dCount d))).any fun i => groupOfSlot s d i == x.group)

/-- The next fragment of the loaded sector handed to the lane; the first hands over the sector too (R373, R374). A full
queue takes none, and a sector all of whose fragments are armed has none to arm (log 35). A sector that is not to be read is
abandoned at once. -/
def armNext (n : Nat) (s : State) : State :=
  let q := getSq s n
  let l := getCh s n
  match q.loaded with
  | none => s
  | some x =>
    if x.frags.length ≤ x.armed ∨ 4 ≤ l.arm.length then s
    else
      let s := setSq n { q with loaded := some { x with armed := x.armed + 1 } } s
      let s := setCh n { l with arm := l.arm ++ [(x.slot, x.armed)] } s
      if x.armed ≠ 0 then s
      else
        let far := !l.write && beyondReach s n x
        let spent := far || (!l.write && rereadSpent s x)
        let y := { x with res := if spent then 3 else 0, posted := spent, rb := l.write && l.rdback }
        let y := if l.write && l.rdback && (getW l x.slot).st != 5 then { y with res := 4 } else y
        let s := setCh n { getCh s n with sectors := (getCh s n).sectors ++ [y] } s
        let s := if far then incReg (aChl n 12) s else s
        if spent then postResult n x.slot 5 0xFFF s else s

/-- ARMF; in a write operation before its first REV a fault. -/
def execMwArmf (n : Fin 4) (w : MWord) (s : State) : Host.Outcome State Fault Refusal := runWord n 0x14 w s fun s =>
  let l := getCh s n
  if !(getSq s n).inOp then goto n w.next s
  else if l.write ∧ l.revs = 0 then mcFault n 8 s
  else goto n w.next (armNext n s)

/-- POPRES: the result word goes to the register and to the result array; in a write operation a fault. With the queue
empty the value is free (log 3). -/
def execMwPopres (n : Fin 4) (w : MWord) (s : State) : Host.Outcome State Fault Refusal := runWord n 0x15 w s fun s =>
  let l := getCh s n
  if (getSq s n).inOp ∧ l.write then mcFault n 7 s
  else match l.results with
    | v :: rest =>
      goto n w.next (setG n (opGd w) v (dramWrite (dRes l.dsc + 4 * (v % 2048)) (leBytes 4 v) (setCh n { l with results := rest } s)))
    | [] => let f := fresh s; goto n w.next (setG n (opGd w) f.1 f.2)

/-- REV. In a read operation a fault. -/
def execMwRev (n : Fin 4) (w : MWord) (s : State) : Host.Outcome State Fault Refusal := runWord n 0x16 w s fun s =>
  if !(getSq s n).inOp then goto n w.next s
  else if !(getCh s n).write then mcFault n 6 s
  else goto n w.next (writeRev n s)

/-- RDBACK. In a read operation, and a second time, a fault. -/
def execMwRdback (n : Fin 4) (w : MWord) (s : State) : Host.Outcome State Fault Refusal := runWord n 0x17 w s fun s =>
  if !(getSq s n).inOp then goto n w.next s
  else if !(getCh s n).write then mcFault n 6 s
  else if (getCh s n).rdback then mcFault n 9 s
  else goto n w.next (readBack n s)

/-- SLOT. In a read operation a fault. -/
def execMwSlot (n : Fin 4) (w : MWord) (s : State) : Host.Outcome State Fault Refusal := runWord n 0x18 w s fun s =>
  if (getSq s n).inOp ∧ !(getCh s n).write then mcFault n 6 s
  else goto n w.next (setG n (opGd w) (getW (getCh s n) (getG s n (opGa w))).st s)

/-- SETSECT. -/
def execMwSetsect (n : Fin 4) (w : MWord) (s : State) : Host.Outcome State Fault Refusal := runWord n 0x19 w s fun s =>
  goto n w.next (setSq n { getSq s n with ptr := dFirst (getCh s n).dsc + getG s n (opGa w) } s)

/-- SIGNAL. -/
def execMwSignal (n : Fin 4) (w : MWord) (s : State) : Host.Outcome State Fault Refusal := runWord n 0x1A w s fun s =>
  goto n w.next (record (srcSeq n) 0x146 [bits w.opd.val 0 8, getG s n (opGa w)] s)

/-- DONE. Outside an operation a fault. -/
def execMwDone (n : Fin 4) (w : MWord) (s : State) : Host.Outcome State Fault Refusal := runWord n 0x1B w s fun s =>
  if !(getSq s n).inOp then mcFault n 11 s else goto n w.next (endOp n 0 (bits w.opd.val 0 16) s)

/-! ### Accepting a descriptor (R370, R371) -/

/-- An area of DRAM: aligned, and within the usable capacity. -/
def areaGood (s : State) (off len align : Nat) : Bool := off % align == 0 && decide (off + len ≤ dramUsable s)

/-- The checks of R370. HEAD is in its range when the actuator has that head and it is not faulty (R125; DESIGN CHOICE,
log 119). -/
def descGood (s : State) (n : Nat) (d : List Byte) : Bool :=
  let w := dFlag d 4
  let dataN := dataOfSlot s d (dCount d)
  let h := fieldN d 4 1
  decide (1 ≤ dKind d) && decide (dKind d ≤ 15) && decide (fieldN d 1 1 < 32) && decide (dHead d ≤ 7) && decide (fieldN d 3 1 ≤ 31)
    && !headBad s n (dHead d) && (h == 0 || h == 1 || h == 0xFF) && fieldN d 5 1 == 0 && decide (dPset d ≤ 2047) && decide (fieldN d 0x10 4 < 2 ^ 22)
    && decide (1 ≤ dLcount d) && decide (dLcount d ≤ 2048) && decide (dPsn0 d < 2 ^ 40) && fieldN d 0x78 8 == 0
    && decide (1 ≤ dCount d) && decide (dCount d ≤ 2048) && decide (dFirst d + dCount d ≤ dLcount d)
    && decide (dReqOfs d + dReqCnt d ≤ dCount d) && areaGood s (dLayout d) (32 * dLcount d) 32
    && areaGood s (dStage d) (4096 * dataN) 4096
    && (if dFlag d 3 then areaGood s (dPia d) (16 * dataN) 16 else dPia d == 0)
    && areaGood s (dRes d) (if w then 8 * dataN else 4 * dCount d) 1
    && (if w then decide (dRes d ≠ 0) && decide (dCarry d ≠ 0) && dDdb d == 0 else true)
    && (dCarry d == 0 || areaGood s (dCarry d) 4616 64)
    && (dDdb d == 0 || areaGood s (dDdb d) (2 * dataN) 1)

/-- The operation starts in the lane, with its copies of the sets and controls (R234, R371). -/
def startLane (n : Nat) (d : List Byte) (s : State) : State :=
  let l := idleLane (getCh s n)
  let p := regBytes s (aPset (dPset d)) 48
  setCh n { l with busy := true, write := dFlag d 4, dsc := d, pset := p, wset := regBytes s (aWset (dPset d)) 16,
                   ctl := reg s (aChlCtl n), wctl := reg s (aWrCtl n), front := seedFront p } s

/-- The STATUS with which an operation ends at its acceptance, if any (R371, R385). -/
def acceptStop (s : State) (n : Nat) : Option Nat :=
  let l := getCh s n
  if !bit l.ctl 0 || (l.write && !bit l.wctl 0) then some 0x0A
  else if !psetGood l.pset || (l.write && !wsetGood l.pset l.wset) then some 2
  else if l.write && headTrip s n (dHead l.dsc) then some 5
  else if l.write && !downUp s n then some 6
  else none

/-- Acceptance, before any handler word runs (R371, R383). -/
def acceptDesc (n : Nat) (d : List Byte) (base : Nat) (s : State) : State :=
  let q := getSq s n
  let s := startLane n d s
  let s := setSq n { q with inOp := true, opFrom := s.now, ptr := dFirst d, loaded := none,
                            latch := q.latch.filter fun c => !(c == 0x17 || c == 0x18 || c == 0x19) } s
  let s := presentBand n (8 * n + dHead d) (fieldN d 3 1) (fieldN d 4 1) (requestHead n (dHead d) s)
  match acceptStop s n with
  | some 2 =>
    forcedEnd n 2 (record (srcChl n) 0x101 [ones64, dPset d, ones64] (incReg (aChl n 19) s))
  | some st => forcedEnd n st s
  | none =>
    let s := if dFlag d 4 then startWrite n s else s
    let dest := (base + dKind d) % 8192
    goto n dest (traceItem n 3 q.pc dest (dKind d) s)

/-- FETCH: waits for a descriptor; one that fails a check is rejected with STATUS 0x01 and the word goes on waiting; one
that passes is accepted. Inside an operation a fault (R370, R371, R386). -/
def execMwFetch (n : Fin 4) (w : MWord) (s : State) : Host.Outcome State Fault Refusal := runWord n 0x1C w s fun s =>
  let wait := fun (t : State) => setSq n { getSq t n with waiting := true, wcond := w.cond.val } t
  if (getSq s n).inOp then mcFault n 11 s
  else if !opAvail s n then wait s
  else
    let i := regF s (aSeqOpqIdx n) 16 8
    let a := reg s (aSeqOpqBase n) * 4096 + 128 * i
    let d := dramBytes s a 128
    let s := noteRead a 128 <| setRegF (aSeqOpqIdx n) 16 8 ((i + 1) % max 1 (ringSize s n)) s
    if poisoned s a 128 ∨ !descGood s n d then
      wait (complete n (completionBytes d 1 0 0 0 0 0 0 s.now) (incReg (aSeqCount n 2) s))
    else acceptDesc n d (opTarget w) s

end Sys2Proof.Machine
end

