-- ==== Sys2Proof/Machine/Servo.lean ====
section
/-! DEFINITION. The servo path: coefficient banks and head entries, demodulation, the control law, the limiters,
commands and modes, position records and output frames (R301–R328, R334–R338). Signals are integers in units of 2⁻²⁴. -/

namespace Sys2Proof.Machine

/-! ### Coefficient banks and head entries (R334–R336) -/

/-- The bounds of a limiter in integer units of its format (R320, R335). -/
structure Bounds where
  min : Int
  max : Int
  rate : Nat
  acc : Nat

/-- Bounds from their two words. -/
def boundsOf (range rates : Nat) : Bounds := ⟨sgn 16 range, sgn 16 (range / 65536), rates % 65536, rates / 65536⟩

/-- A bank's words, by byte offset within the bank (R334). -/
abbrev Bank := Nat → Nat

/-- Bank `b` of actuator `n` in an island. -/
def bankWord (s : State) (x n b : Nat) : Bank := fun off => cmWord s x (n * 0x800 + b * 0x400 + off)

/-- A Q8.24 scalar. -/
def Bank.q (w : Bank) (off : Nat) : Int := sgn 32 (w off)

/-- A UQ1.15 scalar. -/
def Bank.u (w : Bank) (off : Nat) : Int := (w off % 65536 : Nat)

def Bank.ofs (w : Bank) : Bounds := boundsOf (w 0x40) (w 0x44)
def Bank.manV (w : Bank) : Bounds := boundsOf (w 0x48) (w 0x4C)
def Bank.manM (w : Bank) : Bounds := boundsOf (w 0x50) (w 0x54)

/-- Bounds in order, with rates of at least one unit. -/
def Bounds.good (b : Bounds) : Bool := decide (b.min ≤ b.max) && decide (1 ≤ b.rate) && decide (1 ≤ b.acc)

/-- Every word of a bank is in range (R318, R335). -/
def bankGood (w : Bank) : Bool :=
  decide (0 < w.q 0x08) && decide (w 0x0C ≤ 0x8000) && decide (0 < w.q 0x14) && decide (0 < w.q 0x18) &&
  decide (1 ≤ w 0x1C) && decide (w 0x1C ≤ 0x8000) && decide (w.q 0x24 ≤ w.q 0x20) && decide (0 < w.q 0x24) &&
  decide (1 ≤ w 0x28) && decide (w 0x28 ≤ 255) && decide (0 < w.q 0x2C) && decide (1 ≤ w 0x30) && decide (w 0x30 ≤ 0x7FFF) &&
  decide (1 ≤ w 0x34) && decide (w 0x34 ≤ 0x7FFF) && decide (0 < w.q 0x38) && decide (0 < w.q 0x3C) &&
  w.ofs.good && w.manV.good && w.manM.good && decide (w 0x58 < 2 ^ 11) && bits (w 0x58) 6 2 != 3 && bits (w 0x58) 8 2 != 3 &&
  decide (w 0x5C ≤ 21) &&
  (List.range 40).all (fun k => w (0x60 + 4 * k) == 0) &&
  (List.range 23).all (fun i => (List.range 3).all fun k => w (0x100 + 0x20 * i + 0x14 + 4 * k) == 0)

/-- A head entry's words, by byte offset. -/
def headWord (s : State) (x n m off : Nat) : Nat := cmWord s x (0x2000 + n * 0x200 + m * 0x40 + off)

/-- A head entry is in range (R336). -/
def headGood (h : Nat → Nat) : Bool :=
  decide (100 * 64 ≤ h 0x08) && decide (h 0x08 ≤ 400 * 64) && h 0x0C &&& 0xFFFFF8F0 == 0 && decide (bits (h 0x0C) 8 3 ≤ 4) &&
  (List.range 11).all (fun k => h (0x14 + 4 * k) == 0)

/-! ### Fixed-point arithmetic (R311) -/

/-- Five coefficients of a biquad. -/
structure Coef where
  b0 : Int
  b1 : Int
  b2 : Int
  a1 : Int
  a2 : Int

/-- The biquads of a chain: `count` of them from `base`, each word a signed field of `width` bits. -/
def Bank.coefs (w : Bank) (base count width : Nat) : List Coef :=
  (List.range count).map fun i =>
    let c := fun k => sgn width (w (base + 0x20 * i + 4 * k))
    ⟨c 0, c 1, c 2, c 3, c 4⟩

/-- A value saturated to Q8.24, and whether that changed it. -/
def sat24 (x : Int) : Int × Bool := (satI 32 x, satI 32 x != x)

/-- One biquad of direct form I: exact products, one sum, rounded to Q8.24 and saturated; its output is `y1`. -/
def biquad (frac : Nat) (c : Coef) (q : Bq) (x : Int) : Bq × Bool :=
  let r := sat24 (roundShift (c.b0 * x + c.b1 * q.x1 + c.b2 * q.x2 - c.a1 * q.y1 - c.a2 * q.y2) frac)
  ({ x1 := x, x2 := q.x1, y1 := r.1, y2 := q.y1 }, r.2)

/-- A chain of biquads: its output, its states, and whether any saturated. -/
def chain (frac : Nat) : List Coef → List Bq → Int → Int × List Bq × Bool
  | [], _, x => (x, [], false)
  | c :: cs, st, x =>
    let r := biquad frac c (st.headD {}) x
    let t := chain frac cs (st.drop 1) r.1.y1
    (t.1, r.1 :: t.2.1, r.2 || t.2.2)

/-- Moving toward 0 by at most a rate (R322). -/
def toward0 (rate x : Int) : Int := if rate < x then x - rate else if x < -rate then x + rate else 0

/-- The square root of a number, rounded to the nearest. -/
def rootNear (n : Nat) : Nat := if isqrt n * isqrt n + isqrt n < n then isqrt n + 1 else isqrt n

/-- A Q8.24 signal as Q1.15 (R330). -/
def toQ15 (x : Int) : Int := satI 16 (roundShift x 9)

/-! ### The limiters (R320) -/

/-- One step of a limiter toward its target. -/
def limStep (b : Bounds) (l : Lim) : Lim :=
  let t := clampI b.min b.max l.t
  let d := t - l.x
  let vw : Int := (Nat.min b.rate (isqrt (2 * b.acc * d.natAbs)) : Nat)
  let vw := if d < 0 then -vw else vw
  let v := l.v + clampI (-b.acc) b.acc (vw - l.v)
  if d != 0 && v.sign == d.sign && decide (d.natAbs ≤ v.natAbs) then { l with x := t, v := 0 }
  else if l.x + v < b.min ∨ b.max < l.x + v then { l with x := clampI b.min b.max (l.x + v), v := 0 }
  else { l with x := l.x + v, v := v }

/-- A bank switch whose bounds exclude a limiter's present value. -/
def limBound (b : Bounds) (l : Lim) : Lim :=
  if l.x < b.min ∨ b.max < l.x then { l with x := clampI b.min b.max l.x, v := 0 } else l

/-- A target outside the bounds. -/
def outside (b : Bounds) (t : Int) : Bool := decide (t < b.min) || decide (b.max < t)

/-! ### Demodulation (R304–R308) -/

/-- What an island makes of a wedge: found, whether the RRO field failed, decoded from reader B, the positions valid on A
and B, and the head position where there is one. -/
structure Demod where
  found : Bool := false
  rroBad : Bool := false
  fromB : Bool := false
  okA : Bool := false
  okB : Bool := false
  y : Option Int := none

/-- The reader whose fields are decoded: A when its SAM qualified, otherwise B (R305). -/
def obsReader (o : WedgeObs) : Reader := if o.a.sam && !o.a.absent then o.a else o.b

/-- A reader's position is valid (R306, R307). -/
def readerValid (h : Nat → Nat) (r : Reader) : Bool :=
  let m : Int := (h 0x10 % 65536 * 256 : Nat)
  !r.absent && r.enough && decide (m * m ≤ r.n * r.n + r.q * r.q)

/-- A reader's position less its radial offset, with the track number decoded or else its own (R305–R307). -/
def readerPos (pred : Int) (track : Option Nat) (rdofs : Int) (r : Reader) : Int :=
  let t : Int := match track with | some t => (t : Nat) | none => (pred + rdofs + 2 ^ 23) / 2 ^ 24
  let sg : Int := if t % 2 = 0 then 1 else -1
  t * 2 ^ 24 + Config.servoArctan (sg * r.n) (sg * r.q) - rdofs

/-- The head position from the readers whose position is valid (R307). -/
def headPos (h : Nat → Nat) (pred : Int) (rro : Int) (okA okB : Bool) (track : Option Nat) (o : WedgeObs) : Option Int :=
  let ya := readerPos pred track (sgn 32 (h 0)) o.a
  let yb := readerPos pred track (sgn 32 (h 4)) o.b
  if okA && okB then some (roundShift (ya + yb) 1 - rro) else if okA then some (ya - rro) else if okB then some (yb - rro) else none

/-- A wedge demodulated by an actuator's demodulator, with the head's entry (R305–R307, R336). -/
def demod (h : Nat → Nat) (wedges : Nat) (a : ActSt) (o : WedgeObs) : Demod :=
  let r := obsReader o
  match r.wedge with
  | none => {}
  | some w =>
    if !headGood h || r.absent || !r.sam || (a.locked && w != (a.wedge + 1) % wedges) then {}
    else
      let rro := r.rro.getD 0 * 512
      let okA := readerValid h o.a
      let okB := readerValid h o.b
      { found := true, rroBad := r.rro.isNone, fromB := !(o.a.sam && !o.a.absent), okA, okB,
        y := headPos h (a.y + a.vh + rro) rro okA okB r.track o }

/-- A SAM interval in 1/256 of 10 ns lies within 2 % of `k` nominal wedge periods (R308). -/
def spacingGood (rate interval : Nat) : Bool :=
  let d := if interval * rate ≤ 1536000000000 then 1536000000000 - interval * rate else interval * rate - 1536000000000
  decide (d * 50 ≤ 1536000000000)

/-- The demodulator's state after a wedge: HUNTING or LOCKED, the run of found wedges, the SAM's time and the wedge period
(R308, R309). `rate` is SPIN_RPM × WEDGES. -/
def demodStep (wedges rate : Nat) (o : WedgeObs) (d : Demod) (a : ActSt) : ActSt :=
  let no := (obsReader o).wedge.getD 0
  if o.hsw && o.inBurst then { a with locked := false, run := 0 }
  else if !d.found then (if a.locked then { a with since := a.since + 1 } else { a with run := 0 })
  else
    let per := (o.samTime - a.sam) * 10 / (a.since + 1)
    if a.locked then { a with sam := o.samTime, since := 0, wper := per, found := no }
    else
      let next := decide (0 < a.run) && no == (a.found + 1) % wedges && spacingGood rate (o.samTime - a.sam)
      let run := if next then a.run + 1 else 1
      { a with run := run, locked := decide (3 ≤ run), sam := o.samTime, since := 0, found := no,
               wper := if next then per else a.wper }

/-! ### Commands and modes (R316–R318, R322, R323) -/

abbrev mParked : Nat := 0
abbrev mManual : Nat := 1
abbrev mSeek : Nat := 2
abbrev mSettle : Nat := 3
abbrev mTrack : Nat := 4

/-- A mode in which the loop closes by itself. -/
def autoMode (m : Nat) : Bool := m == mSeek || m == mSettle || m == mTrack

/-- A change of mode: what it does to filters, limiters and transfer differences (R308, R315, R323). -/
def enterMode (m : Nat) (a : ActSt) : ActSt :=
  if m = a.mode then a
  else
    let a' := { a with mode := m, tf := 0 }
    if m = mSeek ∧ a.mode = mManual then { a' with cm := [], pm := [] }
    else if m = mSeek then { a' with cm := [], pm := [], nm := [], dm := 0 }
    else if m = mManual ∧ autoMode a.mode then
      { a' with manV := { a.manV with x := toQ15 a.vPre, v := 0 }, manM := { a.manM with x := toQ15 a.mPre, v := 0 } }
    else if m = mParked then { a' with locked := false, run := 0 }
    else a'

def ActCmd.mode (c : ActCmd) : Nat := bits c.cmd 0 3
def ActCmd.bank (c : ActCmd) : Nat := bits c.cmd 3 1

/-- A command that falls due is refused (R316, R318). -/
def refusedCmd (bank : Nat → Bank) (a : ActSt) (c : ActCmd) : Bool :=
  ((c.bank != a.bank || c.mode != mParked) && !bankGood (bank c.bank)) ||
  (c.mode == mSeek && (a.mode == mParked || !a.locked))

/-- An applied command's effect before the mode is settled: bank, targets and limiters (R316, R320). -/
def takeTargets (bank : Nat → Bank) (c : ActCmd) (a : ActSt) : ActSt :=
  let w := bank c.bank
  let a := { a with safeParked := false }
  let a := if c.bank = a.bank then a
           else { a with bank := c.bank, ofs := limBound w.ofs a.ofs, manV := limBound w.manV a.manV,
                         manM := limBound w.manM a.manM }
  if c.mode = mSeek then { a with tgt := c.tgt % 2 ^ 22, ofs := { a.ofs with t := sgn 16 c.ofs } }
  else if c.mode = mManual then
    { a with manV := { a.manV with t := sgn 16 c.man }, manM := { a.manM with t := sgn 16 (c.man / 65536) } }
  else a

/-- A command's target lies outside its limiter's bounds (R320). -/
def clampedCmd (w : Bank) (c : ActCmd) : Bool :=
  if c.mode = mSeek then outside w.ofs (sgn 16 c.ofs)
  else if c.mode = mManual then outside w.manV (sgn 16 c.man) || outside w.manM (sgn 16 (c.man / 65536))
  else false

/-! ### The control law (R311–R315, R321, R322) -/

/-- A wedge's computation in hand: the loop's state, whether a Q8.24 saturation occurred, whether a preset was clamped. -/
structure Law where
  a : ActSt
  sat : Bool := false
  xfer : Bool := false

/-- The position of a wedge and the velocity estimate (R315, R324). -/
def lawPos (w : Bank) (y : Option Int) (c : Law) : Law :=
  let a := c.a
  match y with
  | none => { c with a := { a with y := a.y + a.vh } }
  | some y =>
    if !a.known then { c with a := { a with y := y, known := true } }
    else
      let v := sat24 (roundShift (a.vh * 2 ^ 15 + w.u 0x1C * (y - a.y - a.vh)) 15)
      { c with a := { a with y := y, vh := v.1 }, sat := c.sat || v.2 }

/-- The biquads of the other actuators' demands, in ascending order of actuator: their sum over those enabled (R312). -/
def fxSum (en : Nat) : List (Nat × Int × List Coef) → List (List Bq) → Int × List (List Bq) × Bool
  | [], _ => (0, [], false)
  | (j, u, cs) :: rest, st =>
    let r := chain 28 cs (st.headD []) u
    let t := fxSum en rest (st.drop 1)
    ((if bit en (1 + j) then r.1 else 0) + t.1, r.2.1 :: t.2.1, r.2.2 || t.2.2)

/-- The feedforward sum, formed first at each wedge (R312, R313). `us` lists the other actuators with their demands. -/
def lawFf (w : Bank) (rv : Int) (us : List (Nat × Int)) (bias : Int) (c : Law) : Int × Law :=
  let a := c.a
  let r := chain 28 (w.coefs 0x340 2 32) a.frv rv
  let en := w 0x58
  let f := fxSum en ((us.zipIdx).map fun e => (e.1.1, e.1.2, w.coefs (0x380 + 0x20 * e.2) 1 32)) a.fx
  let v := sat24 ((if bit en 0 then r.1 else 0) + f.1 + (if bit en 5 then bias else 0))
  (v.1, { c with a := { a with frv := r.2.1, fx := f.2.1 }, sat := c.sat || r.2.2 || f.2.2 || v.2 })

/-- The notch chains and the output limits: `v` and `m` are the pre-notch values (R312). -/
def lawOut (w : Bank) (v m : Int) (c : Law) : Law :=
  let a := c.a
  let nv := chain 14 (w.coefs 0x100 8 16) a.nv v
  let nm := chain 14 (w.coefs 0x200 4 16) a.nm m
  let lv := w.u 0x30 * 512
  let lm := w.u 0x34 * 512
  { c with a := { a with nv := nv.2.1, nm := nm.2.1, uv := clampI (-lv) lv nv.1, um := clampI (-lm) lm nm.1, vPre := v, mPre := m },
           sat := c.sat || nv.2.2 || nm.2.2 }

/-- The preset of the integrator and of d_v at a transfer (R322). -/
def lawPreset (w : Bank) (rest : Int) (c : Law) : Law :=
  let a := c.a
  let lim := w.q 0x08
  let want := a.vPre - rest
  let i := clampI (-lim) lim want
  let dv := sat24 (want - i)
  { a := { a with i := i, dv := dv.1 }, sat := c.sat || dv.2, xfer := c.xfer || i != want }

/-- e, limited to E_SAT (R312). -/
def errOf (w : Bank) (a : ActSt) : Int := clampI (-(w.q 0x2C)) (w.q 0x2C) ((a.tgt : Int) * 2 ^ 24 + a.ofs.x * 2 ^ 10 - a.y)

/-- e + ym, through the MA model, and the controller's biquads on it (R312, R321). -/
def lawBv (w : Bank) (c : Law) : Int × Int × Law :=
  let a := c.a
  let pm := chain 28 (w.coefs 0x320 1 32) a.pm a.um
  let ev := sat24 (errOf w a + pm.1)
  let bv := chain 28 (w.coefs 0x280 3 32) a.bv ev.1
  (ev.1, bv.1, { c with a := { a with pm := pm.2.1, bv := bv.2.1 }, sat := c.sat || pm.2.2 || ev.2 || bv.2.2 })

/-- MANUAL: the limiters' outputs through the notch chains; bv follows found wedges (R321). -/
def lawManual (w : Bank) (coast : Bool) (c : Law) : Law :=
  let c := if c.a.locked && !coast then (lawBv w c).2.2 else c
  lawOut w (c.a.manV.x * 512) (c.a.manM.x * 512) c

/-- SEEK (R315). `fromManual` at the first wedge of SEEK entered from MANUAL. -/
def lawSeek (w : Bank) (ff : Int) (fromManual : Bool) (c : Law) : Law :=
  let a := c.a
  let d := (a.tgt : Int) * 2 ^ 24 + a.ofs.x * 2 ^ 10 - a.y
  let m : Int := (Nat.min (w.q 0x14).toNat (rootNear (2 * (w.q 0x18).toNat * d.natAbs)) : Nat)
  let vref := if d < 0 then -m else m
  let k := w.q 0x10 * (vref - a.vh)
  let c := if fromManual then
             let c := lawPreset w (sat24 (roundShift (k + ff * 2 ^ 24) 24)).1 c
             { c with a := { c.a with dm := a.mPre } }
           else c
  let v := sat24 (roundShift (k + (c.a.i + ff + c.a.dv) * 2 ^ 24) 24)
  lawOut w v.1 c.a.dm { c with sat := c.sat || v.2 }

/-- SETTLE and TRACK_FOLLOW (R312). `pre` is the mode from which a transfer's first wedge comes: 1 MANUAL, 2 SEEK. -/
def lawFollow (w : Bank) (ff : Int) (coast : Bool) (pre : Option Nat) (c : Law) : Law :=
  let settle := c.a.mode == mSettle
  let e := errOf w c.a
  let r := lawBv w c
  let c := r.2.2
  let lim := w.q 0x08
  let c := if pre.isSome then lawPreset w (r.2.1 + ff) c
           else if coast then c
           else
             let ki := if settle then w.q 0x04 else w.q 0
             { c with a := { c.a with i := clampI (-lim) lim (roundShift (c.a.i * 2 ^ 24 + ki * r.1) 24) } }
  let v := sat24 (r.2.1 + c.a.i + ff + c.a.dv)
  let cm := chain 28 (w.coefs 0x2E0 2 32) c.a.cm (if settle then roundShift (w.u 0x0C * e) 15 else e)
  let dm := if pre = some mManual then sat24 (c.a.mPre - cm.1) else (c.a.dm, false)
  let m := sat24 (cm.1 + dm.1)
  lawOut w v.1 m.1 { c with a := { c.a with cm := cm.2.1, dm := dm.1 }, sat := c.sat || v.2 || cm.2.2 || dm.2 || m.2 }

/-! ### A wedge computed (R316, R320, R324, R325) -/

/-- What a wedge's computation takes besides the loop's state: the wedge's number, the position if it is found, whether it
is coasted, the first frame after a head switch, the rv input under a bank, the other actuators' demands and the bias table. -/
structure WedgeIn where
  wn : Nat
  y : Option Int
  coast : Bool
  hsw : Bool
  rv : Bank → Option Int
  us : List (Nat × Int)
  bias : Nat → Int

/-- What a computation counts and does besides the loop's state. -/
structure Events where
  late : Bool := false
  refused : Bool := false
  applied : Option ActCmd := none
  spClamp : Bool := false
  parked : Bool := false
  sat : Bool := false
  xfer : Bool := false

/-- The command that falls due at this wedge (R317): the state with it taken, whether its SEEK settles the mode, what it
counts. -/
def dueCmd (bank : Nat → Bank) (wn : Nat) (a : ActSt) : ActSt × Bool × Events :=
  match a.armed with
  | none => (a, false, {})
  | some c =>
    if c.due.isSome && c.due != some wn then (a, false, {})
    else
      let a := { a with armed := none }
      if refusedCmd bank a c then (a, false, { late := c.late, refused := true })
      else
        let ev : Events := { late := c.late, applied := some c, spClamp := clampedCmd (bank c.bank) c }
        let b := takeTargets bank c a
        if c.mode = mSeek then (b, !(a.mode == mTrack && b.tgt == a.tgt), ev) else (enterMode c.mode b, false, ev)

/-- The distance of R315 from the target, for a position. -/
def distOf (a : ActSt) (y : Int) : Int := (a.tgt : Int) * 2 ^ 24 + a.ofs.x * 2 ^ 10 - y

/-- The mode of this wedge, once commands are applied and limiters stepped (R316), with the mode a transfer comes from. `before` is the mode of the last
wedge: TRACK_FOLLOW is never entered at the first wedge of SETTLE (DEDUCED, log 42). -/
def settleMode (w : Bank) (i : WedgeIn) (before : Nat) (seek : Bool) (a : ActSt) : ActSt × Option Nat :=
  let was := a.mode
  let y := a.y
  let near := decide ((distOf a y).natAbs ≤ (w.q 0x20).toNat)
  let a := if seek then enterMode (if near then mSettle else mSeek) a
           else if a.mode = mSeek ∧ near then enterMode mSettle a else a
  let hit := !i.coast && decide ((errOf w a).natAbs ≤ (w.q 0x24).toNat)
  let a := if a.mode = mSettle then { a with tf := if hit then a.tf + 1 else 0 } else a
  let a := if before = mSettle ∧ a.mode = mSettle ∧ w 0x28 % 256 ≤ a.tf then enterMode mTrack a else a
  let pre := if was = mManual && (a.mode == mSeek || a.mode == mSettle) then some mManual
             else if was = mSeek && a.mode == mSettle then some mSeek else none
  (a, pre)

/-- One wedge of an actuator computed in an island: the demodulator and the coast count are already those of this wedge. -/
def compute (bank : Nat → Bank) (i : WedgeIn) (a : ActSt) : ActSt × Events :=
  let before := a.mode
  let p := dueCmd bank i.wn { a with wedge := i.wn }
  let ev := p.2.2
  let a := p.1
  let park := i.coast && a.coast == 16 && autoMode a.mode
  let a := if park then { enterMode mParked a with safeParked := true } else a
  let a := if i.hsw && a.mode == mTrack then enterMode mSettle a else a
  let a := if a.mode = mManual ∧ !a.locked then { a with y := 0, vh := 0, bv := [], known := false } else a
  let w := bank a.bank
  let a := { a with ofs := limStep w.ofs a.ofs, manV := limStep w.manV a.manV, manM := limStep w.manM a.manM }
  if a.mode = mParked then ({ a with uv := 0, um := 0, rvOn := false }, { ev with parked := park })
  else
    let c : Law := if a.mode = mManual ∧ !a.locked then { a } else lawPos w i.y { a }
    let q := settleMode w i before (p.2.1 && !park) c.a
    let a := q.1
    let a := if q.2.isSome then a else { a with dv := toward0 (w.q 0x38) a.dv, dm := toward0 (w.q 0x3C) a.dm }
    let rv := i.rv w
    let a := { a with rvOn := rv.isSome && bit (w 0x58) 0 }
    let band := Nat.min 31 ((roundShift a.y 24).toNat / 2 ^ (w 0x5C % 32))
    let f := lawFf w (rv.getD 0) i.us (i.bias band) { c with a }
    let c := if a.mode = mManual then lawManual w i.coast f.2
             else if a.mode = mSeek then lawSeek w f.1 q.2.isSome f.2
             else lawFollow w f.1 i.coast q.2 f.2
    (c.a, { ev with parked := park, sat := c.sat, xfer := c.xfer })

/-! ### Frames and records (R310, R324, R330) -/

/-- Bytes 0–7 of an actuator frame (R330). -/
def frameBytes (x n : Nat) (a : ActSt) (coast : Bool) : List Byte :=
  let parked := a.mode == mParked
  let maEn := !parked && (a.mode != mSeek || a.dm != 0)
  leBytes 1 (n + x * 4 + a.mode * 16) ++ leBytes 2 a.wedge ++ leBytes 2 (unsgn 16 (toQ15 a.uv)) ++ leBytes 2 (unsgn 16 (toQ15 a.um)) ++
    leBytes 1 (bnat (!parked) + bnat maEn * 2 + bnat parked * 4 + bnat coast * 8)

/-- A frame sent on an island's lane (R330, R339, R400): only by a HEALTHY island whose lane is enabled. -/
def sendLane (x : Nat) (bs : List Byte) (s : State) : State :=
  if islHealthy s x && regB s aTdmCtl x then
    incWideBy (aTdmFramesLo x) 1
      { s with tdm := { s.tdm with wire := s.tdm.wire ++ [(x, bs ++ leBytes 2 (crc16 bs).toNat)] } }
  else s

/-- An actuator frame: sent on the lane and, by an island in service, over the cross-link (R404, R405). -/
def sendFrame (x n : Nat) (bs : List Byte) (s : State) : State :=
  let s := setAct x n { getAct s x n with frame := bs } s
  let s := sendLane x bs s
  if islHealthy s x && s.red.xlinkUp then { s with red := { s.red with sent := smSet (fun _ => []) s.red.sent (4 * x + n) bs } }
  else s

/-- MARK of a position record (R310). -/
def markOf (a : ActSt) : Nat := if !a.locked then 3 else if a.coast = 0 then 0 else if a.coast ≤ 3 then 1 else 2

/-- The position record of a wedge, sent by a HEALTHY island (R310, R400). -/
def sendRecord (x n : Nat) (w : Bank) (s : State) : State :=
  let a := getAct s x n
  if a.mode = mParked ∨ !islHealthy s x then s
  else
    let t : Int := (a.tgt : Int) * 2 ^ 24
    let ofs := clampI w.ofs.min w.ofs.max a.ofs.t * 2 ^ 10
    let r : PosRec := { isl := x, wedge := a.wedge, mark := markOf a, trk := decide ((a.y - t).natAbs < 2 ^ 23),
                        pes := Nat.min 255 ((t + ofs - a.y).natAbs / 2 ^ 16), mode := a.mode, wper := a.wper % 2 ^ 24, tb := s.now }
    setCh n { getCh s n with posq := (getCh s n).posq ++ [r] } s

/-! ### The SERVO capture stream (R438, R439) -/

/-- SERVO items of an actuator are captured. -/
def servoCap (s : State) (n : Nat) : Bool := capEnabled s 0 && capAct s 0 n

/-- A SERVO item of a moment (R439). -/
def servoItemAt (tb ty x n : Nat) (a : ActSt) (body : List Byte) (s : State) : State :=
  captureItem 0 (leBytes 1 ty ++ leBytes 1 (x + n * 4) ++ leBytes 2 a.wedge ++ leBytes 4 a.rev ++ leBytes 8 tb ++ padTo 48 body) s

/-- A SERVO item of now. -/
def servoItem (ty x n : Nat) (a : ActSt) (body : List Byte) (s : State) : State := servoItemAt s.now ty x n a body s

/-- The 384 bytes of a checkpoint, and the state that such bytes stand for, if any: the layout is fixed for silicon revision B0 and
not given, so both are free (R439, R444, log 48). -/
opaque checkpointBytes : ActSt → List Byte
opaque checkpointOf : List Byte → Option ActSt

/-- Checkpoint parts 0–7 of an actuator (R439). -/
def checkpoint (x n : Nat) (a : ActSt) (s : State) : State :=
  forTo (fun k t => servoItem 4 x n a (seg (checkpointBytes a) (48 * k) 48) t) 8 s

/-- The image of an island's whole coefficient memory, in 224 parts (R439). -/
def cmImage (x n : Nat) (s : State) : State :=
  forTo (fun k t => servoItem 6 x n (getAct t x n) ((List.range 12).flatMap fun i => leBytes 4 (cmWord t x (48 * k + 4 * i))) t) 224 s

/-- What follows a wedge 0 in the stream: a checkpoint of the state behind it, and every 256 revolutions the coefficient image, once
for the island (R439). -/
def wedgeZero (x n : Nat) (s : State) : State :=
  let a := getAct s x n
  if a.wedge != 0 || !servoCap s n then s
  else
    let s := checkpoint x n a s
    if a.rev % 256 == 0 && (findFrom (fun j => serves s x j && servoCap s j) 0 4) == some n then cmImage x n s else s

/-- A wedge item's body (R439). -/
def wedgeBody (o : WedgeObs) (d : Demod) (a : ActSt) (coast missed : Bool) (acc : Nat) (e : Int) : List Byte :=
  let r := obsReader o
  let q := fun v => leBytes 4 (unsgn 32 v)
  q o.a.n ++ q o.a.q ++ q o.b.n ++ q o.b.q ++
  leBytes 4 (r.track.getD 0 % 2 ^ 22 + bnat d.fromB * 2 ^ 22 + bnat r.track.isNone * 2 ^ 23) ++
  leBytes 2 (r.wedge.getD 0 % 1024 + bnat r.wedge.isNone * 1024) ++ leBytes 2 (unsgn 16 (r.rro.getD 0)) ++ leBytes 1 o.samTime ++
  leBytes 1 (bnat o.a.sam + bnat o.b.sam * 2 + bnat d.okA * 4 + bnat d.okB * 8 + bnat r.rro.isSome * 16 + bnat o.hsw * 32 +
    bnat o.a.absent * 64 + bnat o.b.absent * 128) ++
  leBytes 1 (a.mode + bnat missed * 8 + bnat coast * 16 + bnat d.found * 32) ++ leBytes 4 acc ++
  leBytes 2 (unsgn 16 (toQ15 a.uv)) ++ leBytes 2 (unsgn 16 (toQ15 a.um)) ++ q e

/-! ### The computation in State -/

/-- The rv input of a sample set (R313): none while either accelerometer is disabled or faulty. -/
def rvOf (cfg faulty : Nat) (s0 s1 : List Int) (w : Bank) : Option Int :=
  if bits cfg 0 2 == 3 && faulty == 0 then
    let v := s0.getD (bits (w 0x58) 6 2) 0 - s1.getD (bits (w 0x58) 8 2) 0
    some ((if bit (w 0x58) 10 then -v else v) * 2 ^ 14)
  else none

/-- The rv input. -/
def rvInput (s : State) (w : Bank) : Option Int := rvOf (reg s aAccCfg) s.acc.faulty s.acc.s0 s.acc.s1 w

/-- The VCM demand of another actuator's latest wedge that ended strictly before now (R312). -/
def lastDemand (s : State) (x j : Nat) : Int :=
  let a := getAct s x j
  if a.uvAt < s.now then a.uv else a.uvOld

/-- The actuators parked for PS3 or PS4, changed. -/
def setParked (f : List Nat → List Nat) (s : State) : State :=
  { s with cmd := { s.cmd with saved := { s.cmd.saved with parked := f s.cmd.saved.parked } } }

/-- The actuator's scheduler state follows the loop: a parked actuator leaves service until it follows a track again; one
parked for an entry into PS3 or PS4 leaves its group's ANA state as it is (R150, R325). -/
def noteParked (n mode : Nat) (s : State) : State :=
  let k := getSched s n
  if mode = mParked ∧ k.st = 2 then
    let s := if s.cmd.moving && s.cmd.entering && decide (3 ≤ s.cmd.target) then setParked (n :: ·) s else s
    noteAna (setSched n { k with st := 4 } s)
  else if mode = mTrack ∧ k.st = 4 then noteAna (setSched n { k with st := 2 } (setParked (fun l => l.filter (· != n)) s))
  else s

/-- A computation done, its registers, counters, records and captures made; the frame is sent by the caller. -/
def runWedge (x n : Nat) (i : WedgeIn) (a0 : ActSt) (s : State) : State :=
  let bank := fun b => bankWord s x n b
  let r := compute bank i a0
  let ev := r.2
  let a := if a0.uvAt < s.now then { r.1 with uvOld := a0.uv, uvAt := s.now } else { r.1 with uvAt := s.now }
  let a := if i.wn = 0 then { a with rev := a.rev + 1 } else a
  let w := bank a.bank
  let s := setAct x n a s
  let inc := fun (on : Bool) j (t : State) => if on then basCount x n j t else t
  let s := inc i.coast 1 (inc ev.late 3 (inc ev.refused 4 (inc ev.spClamp 6 (inc ev.xfer 5 (inc ev.sat 7 (inc ev.parked 2 s))))))
  let s := if ev.parked then trigger 0 (record (srcBas x) 0x181 [n, a.wedge + a.rev * 1024] s) else s
  let s := if ev.parked && islHealthy s x && (getCh s n).busy then setCh n { getCh s n with stop := some ((getCh s n).stop.getD 4) } s else s
  let s := if a.mode = mParked then s
           else
             let e := if a.mode = mSeek then distOf a a.y else errOf w a
             setReg (aBasTrack x n) (unsgn 22 (roundShift a.y 24))
               (setReg (aBasPes x n) (unsgn 16 (satI 16 (roundShift e 10)) + a.wedge * 65536) s)
  let s := if islHealthy s x then noteParked n a.mode s else s
  let s := match ev.applied with
    | some c => if servoCap s n then servoItem 3 x n a (leBytes 4 c.cmd ++ leBytes 4 c.tgt ++ leBytes 4 c.ofs ++ leBytes 4 c.man ++ leBytes 2 a.wedge) s else s
    | none => s
  sendRecord x n w s

/-- The state of the demodulator after a wedge that counts, with the coasts in a row; whether it is coasted, and its position
(R308, R324, R325). -/
def wedgeBegin (wedges rate : Nat) (o : WedgeObs) (d : Demod) (a : ActSt) : ActSt × Option Int :=
  let b := demodStep wedges rate o d a
  let y := if b.locked then d.y else none
  let c := if y.isNone then Nat.min 17 (a.coast + 1) else 0
  ({ b with coast := c, locked := b.locked && c != 16, run := if c = 16 then 0 else b.run }, y)

/-- SPIN_RPM × WEDGES of an island. -/
def spinRate (s : State) (x : Nat) : Nat := basWedges s x * regF s (aBasCfg x) 11 13

/-- BIAS of an actuator. -/
def biasOf (s : State) (x n band : Nat) : Int := sgn 32 (cmWord s x (0x2800 + n * 0x80 + band * 4))

/-- The inputs of a computation. -/
def wedgeIn (s : State) (x n wn : Nat) (y : Option Int) (coast hsw : Bool) : WedgeIn :=
  { wn, y, coast, hsw, rv := rvInput s,
    us := ((List.range 4).filter (· != n)).map fun j => (j, lastDemand s x j),
    bias := biasOf s x n }

/-- The output frame of a wedge on time, or held back as late (R326). -/
def outFrame (x n : Nat) (coast late : Bool) (s : State) : State :=
  let a := getAct s x n
  let bs := frameBytes x n a coast
  if late then setAct x n { a with late := some (bs.take 3, coast) } s
  else sendFrame x n bs (setAct x n { a with lateRun := 0, deadline := false } s)

/-! ### The commands -/

/-- The head whose samples the upstream frames of an actuator carry (R206). -/
def servoHead (s : State) (n : Nat) : Option Nat := if clkSrc s n = 3 then none else some (getLane (getHsl s n) (clkSrc s n)).head

/-- A wedge as an island receives it: a reader whose lane is not UP is absent (R211, R307). -/
def seenWedge (s : State) (n : Nat) (o : WedgeObs) : WedgeObs :=
  { o with a := { o.a with absent := o.a.absent || !laneUp s n 0 }, b := { o.b with absent := o.b.absent || !laneUp s n 1 } }

/-- What an island makes of what an actuator's streams show, with the entry of the head named upstream. -/
def demodNow (x n : Nat) (o : WedgeObs) (s : State) : Demod :=
  match servoHead s n with
  | some m => demod (headWord s x n m) (basWedges s x) (getAct s x n) o
  | none => {}

/-- A wedge computed from what its streams show. `late` when the computation is not complete at the cutoff; `err` is what the
coefficient memory's code finds (R334). In MANUAL the wedge counts only once the demodulator is LOCKED (R325). -/
def wedgeStep (x n : Nat) (o : WedgeObs) (late : Bool) (err : MemErr) (s : State) : State :=
  let a := getAct s x n
  if !serves s x n || a.mode = mParked then s
  else
    let s := if err = .corrected then incReg (aBasCmemCe x) s else s
    if err = .uncorrectable then
      let coast := decide (0 < a.coast)
      let s := setAct x n { a with late := some ((frameBytes x n { a with wedge := (a.wedge + 1) % basWedges s x } coast).take 3, coast) } s
      failIsland x 4 (incReg (aBasCmemUe x) s)
    else
      let w := basWedges s x
      let d := demodNow x n o s
      let h := demodStep w (spinRate s x) o d a
      let s := if d.found && d.rroBad then basCount x n 8 s else s
      let wn := if d.found then (obsReader o).wedge.getD 0 else (a.wedge + 1) % w
      if a.mode = mManual ∧ !a.locked ∧ !h.locked then setAct x n h s
      else
        let b := wedgeBegin w (spinRate s x) o d a
        let coast := b.2.isNone
        let s := runWedge x n (wedgeIn s x n wn b.2 coast o.hsw) b.1 s
        let a := getAct s x n
        let tb := if d.found then o.samTime / 256 * 10 else s.now
        let s := if servoCap s n then
                   servoItemAt tb 1 x n a (wedgeBody o d a coast late (reg s aAccSeq) (errOf (bankWord s x n a.bank) a)) s else s
        outFrame x n coast late (wedgeZero x n s)

/-- The head entry with which an island reads an actuator's streams: that of the head named upstream. -/
def headEntry (s : State) (x n : Nat) : Nat → Nat := headWord s x n ((servoHead s n).getD 0)

/-- WEDGE_COMPUTATION (R304–R328): the end of a burst window of actuator n as island x receives it; `samTime` is the SAM's time
against CLK_REF. While the actuator is PARKED nothing is searched (R308). -/
def execWedgeComputation (x : Fin 2) (n : Fin 4) (samTime : Nat) (late : Bool) (err : MemErr) (s : State) :
    Host.Outcome State Fault Refusal := actAll s fun s =>
  if !serves s x n || (getAct s x n).mode == mParked then s
  else
    let h := headEntry s x n
    let r := getRx s x n
    let o := seenWedge s n (observe s x n samTime h)
    let p := samsSeen (servoOf s x n h) (getAct s x n) r
    wedgeStep x n o late err (setRx x n (rxNext (demodNow x n o s).found p r) s)

/-- FREE_RUNNING_FRAME (R325): the frame of a PARKED actuator, or of a MANUAL one whose demodulator is HUNTING, at the
nominal wedge period, SEQ on the island's own count. -/
def execFreeRunningFrame (x : Fin 2) (n : Fin 4) (s : State) : Host.Outcome State Fault Refusal := act s fun s =>
  let a := getAct s x n
  if !serves s x n || !(a.mode == mParked || (a.mode == mManual && !a.locked)) then s
  else
    let i := wedgeIn s x n ((a.wedge + 1) % basWedges s x) none false false
    clockBoundary n (outFrame x n false false (wedgeZero x n (runWedge x n i a s)))

/-- The other island was on time for the same wedge of an actuator that it serves (R403). -/
def peerOnTime (s : State) (x n : Nat) : Bool :=
  let p := getAct s (1 - x) n
  islHealthy s (1 - x) && serves s (1 - x) n && p.wedge == (getAct s x n).wedge && p.late.isNone && p.lateRun == 0

/-- DEADLINE_CUTOFF (R326, R327, R403): a late output's MISSED frame, repeating the previous frame's demands and command
bits; the second in a row sets DEADLINE, and the late island fails when its peer was on time. -/
def execDeadlineCutoff (x : Fin 2) (n : Fin 4) (s : State) : Host.Outcome State Fault Refusal := actSev s fun s =>
  let a := getAct s x n
  match a.late with
  | none => s
  | some (hd, coast) =>
    let last := padTo 8 a.frame
    let b0 := BitVec.ofNat 8 ((hd.headD 0).toNat % 128 + 128)
    let b7 := BitVec.ofNat 8 ((last.getD 7 0).toNat % 8 + bnat coast * 8)
    let s := setAct x n { a with late := none, lateRun := a.lateRun + 1, deadline := a.deadline || decide (2 ≤ a.lateRun + 1) } s
    let s := trigger 1 (record (srcBas x) 0x180 [n, a.wedge + a.rev * 1024] (basCount x n 0 s))
    let s := sendFrame x n ([b0] ++ hd.drop 1 ++ seg last 3 4 ++ [b7]) s
    if a.lateRun + 1 != 2 then s
    else if peerOnTime s x n then failIsland x 3 s
    else if redActive s then faultEvent 0x51 n 1 s else s

/-- The fields of BAS_ACTn_CMD. -/
def basCmdFields : List Fld := [⟨0, 3, .rw, fun v => decide (v ≤ 2)⟩, ⟨3, 1, .rw, fun _ => true⟩, ⟨4, 1, .rw, fun _ => true⟩,
  ⟨16, 10, .rw, fun _ => true⟩]

/-- A write to BAS_ACTn_CMD, which arms a command (R317). An island held in block reset takes no write, nor do the
registers of an actuator that the variant lacks. -/
def writeBasCmd (x n v : Nat) (s : State) : State :=
  if islHeld s x || !actPresent s n then s
  else
    let s := writeFields (aBasCmd x n) basCmdFields v s
    let c := reg s (aBasCmd x n)
    let a := getAct s x n
    let w := basWedges s x
    let ahead := (((bits c 16 10 : Nat) : Int) - a.wedge) % w
    let timed := !bit c 4 && decide (1 ≤ ahead) && decide (ahead ≤ 64)
    let k : ActCmd := { cmd := c, tgt := reg s (aBasTgt x n), ofs := reg s (aBasOfs x n), man := reg s (aBasMan x n),
                        due := if timed then some (bits c 16 10 % w) else none, late := !timed && !bit c 4 }
    setAct x n { a with armed := some k } s

/-- The word of BAS_ACTn_CMD with a mode. -/
def cmdWord (mode : Nat) (bank now : Bool) (apply : Fin 1024) : Nat :=
  mode + bnat bank * 8 + bnat now * 16 + apply.val * 65536

/-- PARKED_COMMAND (R317). -/
def execParkedCommand (x : Fin 2) (n : Fin 4) (bank now : Bool) (apply : Fin 1024) (s : State) : Host.Outcome State Fault Refusal :=
  act s (writeBasCmd x n (cmdWord 0 bank now apply))

/-- MANUAL_COMMAND (R317). -/
def execManualCommand (x : Fin 2) (n : Fin 4) (bank now : Bool) (apply : Fin 1024) (s : State) : Host.Outcome State Fault Refusal :=
  act s (writeBasCmd x n (cmdWord 1 bank now apply))

/-- SEEK_COMMAND (R317). -/
def execSeekCommand (x : Fin 2) (n : Fin 4) (bank now : Bool) (apply : Fin 1024) (s : State) : Host.Outcome State Fault Refusal :=
  act s (writeBasCmd x n (cmdWord 2 bank now apply))

/-- N of CLK_SPIN (R309). -/
def spinN (rpm wedges : Nat) : Nat := (2 * 25920000000 + rpm * wedges) / (2 * (rpm * wedges))

/-- A write to BAS_CFG (R338): WEDGES and RPM until LOCKED. LOCKED with either out of range is a reserved combination and stays
0: the write then carries an encoding out of range, whose one record `writeFields` has made (R11). -/
def writeBasCfg (x v : Nat) (s : State) : State :=
  if islHeld s x then s
  else
    let a := aBasCfg x
    let old := reg s a
    let okW := fun w => decide (256 ≤ w) && decide (w ≤ 1024)
    let okR := fun r => decide (5400 ≤ r) && decide (r ≤ 7200)
    if bit old 31 then (if bits v 0 24 = bits old 0 24 && bit v 31 then s else noteViolation a v s)
    else
      let s := writeFields a [⟨0, 11, .rw, okW⟩, ⟨11, 13, .rw, okR⟩] v s
      if !bit v 31 then s
      else if okW (regF s a 0 11) && okR (regF s a 11 13) then
        enableIsland x (setReg (aBasSpinN x) (spinN (regF s a 11 13) (regF s a 0 11)) (setRegF a 31 1 1 s))
      else s

/-- BAS_CFG_LOCK (R338): BAS_CFG written with LOCKED 1. -/
def execBasCfgLock (x : Fin 2) (wedges : Fin 2048) (rpm : Fin 8192) (s : State) : Host.Outcome State Fault Refusal :=
  actSev s (writeBasCfg x (wedges.val + rpm.val * 2048 + 2 ^ 31))

/-- A write to BAS_CTL (R338, R400). -/
def writeBasCtl (x v : Nat) (s : State) : State :=
  if islHeld s x then s
  else enableIsland x (writeFields (aBasCtl x) [⟨0, 1, .rw, fun _ => true⟩, ⟨4, 4, .rw, fun _ => true⟩] v s)

/-- BAS_CTL_EN (R400). -/
def execBasCtlEn (x : Fin 2) (en : Bool) (acts : Fin 16) (s : State) : Host.Outcome State Fault Refusal :=
  actSev s (writeBasCtl x (bnat en + acts.val * 16))

/-- COEFFICIENT_MEMORY_SCRUB (R415): every word is read, correctable errors are corrected and counted, and an uncorrectable
one fails the island. -/
def execCoefficientMemoryScrub (x : Fin 2) (corrected uncorrectable : Nat) (s : State) : Host.Outcome State Fault Refusal :=
  actSev s fun s =>
    if islHeld s x then s
    else
      let s := incRegBy (aBasCmemCe x) corrected s
      if uncorrectable = 0 then s else failIsland x 4 (incRegBy (aBasCmemUe x) uncorrectable s)

end Sys2Proof.Machine
end

