-- ==== Sys2Proof/Machine/Ind.lean ====
section
/-! DEFINITION. The indirect pairs and their five spaces, and the ends of the preamplifier accesses they make (R99–R101,
R221, R231, R334, R337, R356). -/

namespace Sys2Proof.Machine

/-! ### The pair's registers (R99–R101) -/

def indTimedOut (s : State) (c : Nat) : Bool := regB s (aIndStatus c) 0
def indSpace (s : State) (c : Nat) : Nat := regF s (aIndAddr c) 28 4
def indUnit (s : State) (c : Nat) : Nat := regF s (aIndAddr c) 26 2
def indOfs (s : State) (c : Nat) : Nat := regF s (aIndAddr c) 2 24 * 4

/-- The requester that made an access, and the answer it gets: a read's value, or the bytes of it that it addressed, after
the low word of a 64-bit read; nothing for a write (R97). -/
def indAnswer (a : IndAcc) (v : Nat) (s : State) : State :=
  match a with
  | .read src 8 low => emit (.readData src (low + v % 2 ^ 32 * 2 ^ 32)) s
  | .read src n off => emit (.readData src (bits v (8 * off) (8 * n))) s
  | _ => s

/-- The pair is no longer busy. -/
def indFree (c : Nat) (s : State) : State := setInd c { getInd s c with busy := none } s

/-- An access completes with data, or as a completed write; the offset advances under AUTOINC (R99). -/
def indDone (c : Nat) (a : IndAcc) (v : Nat) (s : State) : State :=
  let s := indFree c (indAnswer a v s)
  if regB s (aIndCtl c) 0 then setRegF (aIndAddr c) 2 24 (regF s (aIndAddr c) 2 24 + 1) s else s

/-- An access completes as a timeout (R100). -/
def indFail (c : Nat) (a : IndAcc) (s : State) : State :=
  let s := indFree c (indAnswer a 0xFFFFFFFF s)
  setRegF (aIndStatus c) 0 1 1 (incRegF (aIndStatus c) 16 16 s)

/-! ### The spaces -/

/-- SPACE 0x1: a PHY word of a group (R231): none where there is no such word. What the receiver adapted to is a free
value (log 3). -/
def phyRead (s : State) (n ofs : Nat) : Option (Nat × State) :=
  if ofs = 0xC0 then some ((getHsl s n).txFfe, s)
  else if ofs < 0xC0 ∧ ofs % 0x40 < 0x10 then
    let f := fresh s
    some (if ofs % 0x40 = 0 then f.1 % 32 else if ofs % 0x40 = 0xC then f.1 % 65536 else f.1 % 2 ^ 32, f.2)
  else none

/-- The actuator that a coefficient offset belongs to (R334). -/
def cmAct (ofs : Nat) : Nat := if ofs < 0x2000 then ofs / 0x800 else if ofs < 0x2800 then (ofs - 0x2000) / 0x200 else (ofs - 0x2800) / 0x80

/-- The access's place exists now: a target, with a running clock, of an actuator that is present (R100). -/
def indTarget (s : State) (c : Nat) : Bool :=
  let u := indUnit s c
  let o := indOfs s c
  match indSpace s c with
  | 1 => actPresent s u && clkSrc s u != 3 && (o == 0xC0 || (decide (o < 0xC0) && decide (o % 0x40 < 0x10)))
  | 2 => actPresent s u && decide (o ≤ 0xFFC)
  | 3 => u == 0 && decide (o < 0x40000) && actPresent s (o % 0x20000 / 0x1000 / 8)
  | 4 => u == 0 && decide (o ≤ 0x29FC) && actPresent s (cmAct o) && islClock s 0 && !islHeld s 0
  | 5 => u == 0 && decide (o ≤ 0x29FC) && actPresent s (cmAct o) && islClock s 1 && !islHeld s 1
  | _ => false

/-- A word of a calibration table written (R356). -/
def calWrite (o v : Nat) (s : State) : State :=
  let h := o % 0x20000 / 0x1000
  if o < 0x20000 then s
  else if bit s.cal.pending h then record srcCal 0x1C3 [h, ones64, ones64] s
  else setCal true h (o % 0x1000) v s

/-- A coefficient word written, with its SERVO item (R337, R439). -/
def coefWrite (x o v : Nat) (s : State) : State :=
  let s := setCm x o v s
  let n := cmAct o
  if servoCap s n then servoItem 5 x n (getAct s x n) (leBytes 4 o ++ leBytes 4 v) s else s

/-- An access to the preamplifier presented to its group (R221). -/
def indPreamp (c : Nat) (a : IndAcc) (s : State) : State :=
  let n := indUnit s c
  if !downUp s n then indFail c a (incRegF (aHslCfCount n) 16 16 s)
  else
    let q : CfReq := match a with
      | .write _ v => { pair := some c, write := true, reg := indOfs s c / 4, data := v }
      | _ => { pair := some c, write := false, reg := indOfs s c / 4, data := 0 }
    let h := getHsl s n
    setInd c { getInd s c with busy := some a } (setHsl n { h with queue := h.queue ++ [q] } s)

/-- An access to IND_DATA served: at once, but for one to a preamplifier (R99, R100). -/
def indAccess (c : Nat) (a : IndAcc) (s : State) : State :=
  let u := indUnit s c
  let o := indOfs s c
  if indTimedOut s c then indAnswer a 0xFFFFFFFF s
  else if !indTarget s c then indFail c a s
  else match indSpace s c with
    | 1 => (match a with
      | .write _ v => indDone c a 0 (if o = 0xC0 then setHsl u { getHsl s u with txFfe := bits v 0 18 } s else s)
      | _ => match phyRead s u o with
        | some r => indDone c a r.1 r.2
        | none => indFail c a s)
    | 2 => indPreamp c a s
    | 3 => (match a with
      | .write _ v => indDone c a 0 (calWrite o v s)
      | _ => indDone c a (calWord s (decide (0x20000 ≤ o)) (o % 0x20000 / 0x1000) (o % 0x1000)) s)
    | x => match a with
      | .write _ v => indDone c a 0 (coefWrite (x - 4) o v s)
      | _ => indDone c a (cmWord s (x - 4) o) s

/-- A write to IND_ADDR served: the selection, and TIMEOUT cleared (R100, R101). -/
def indSelect (c v : Nat) (s : State) : State := setRegF (aIndStatus c) 0 1 0 (setReg (aIndAddr c) (bits v 2 30 * 4) s)

/-- Accesses are served one at a time in arrival order (R101); the fuel bounds how many. -/
def indServe (c : Nat) : Nat → State → State
  | 0, s => s
  | k + 1, s =>
    let p := getInd s c
    match p.busy, p.waiting with
    | none, a :: rest =>
      let s := setInd c { p with waiting := rest } s
      indServe c k (match a with | .addr _ v => indSelect c v s | _ => indAccess c a s)
    | _, _ => s

/-- An access arrives at a pair. -/
def indArrive (c : Nat) (a : IndAcc) (s : State) : State :=
  let p := getInd s c
  indServe c (p.waiting.length + 1) (setInd c { p with waiting := p.waiting ++ [a] } s)

/-- The pair's accesses go on once the one in progress has ended. -/
def indNext (c : Nat) (s : State) : State := indServe c ((getInd s c).waiting.length) s

/-- A requester's access to a pair, behind its cluster's fence (R71). -/
def indBy (c source a : Nat) (write : Bool) (x : IndAcc) (s : State) : State :=
  if fenced s source a then accError source a errIsolated 2 write s else indArrive c x s

/-- IND_ADDR_WRITE. -/
def execIndAddrWrite (c : Fin 8) (source : Fin 128) (v : BitVec 32) (s : State) : Host.Outcome State Fault Refusal := act s
  (indBy c source (aIndAddr c) true (.addr source v.toNat))

/-- IND_DATA_READ. -/
def execIndDataRead (c : Fin 8) (source : Fin 128) (s : State) : Host.Outcome State Fault Refusal := act s
  (indBy c source (aIndAddr c + 4) false (.read source 4 0))

/-- IND_DATA_WRITE. -/
def execIndDataWrite (c : Fin 8) (source : Fin 128) (v : BitVec 32) (s : State) : Host.Outcome State Fault Refusal := act s
  (indBy c source (aIndAddr c + 4) true (.write source v.toNat))

/-! ### The ends of preamplifier accesses (R100, R221, R279) -/

/-- A request of a pair that its pair has given up. -/
def killReq (c : Nat) (r : CfReq) : CfReq := if r.pair = some c then { r with dead := true } else r

/-- IND_TIMEOUT: 4 µs without an answer; the request itself runs on, or is withdrawn (R100, R221). -/
def execIndTimeout (c : Fin 8) (s : State) : Host.Outcome State Fault Refusal := act s fun s =>
  match (getInd s c).busy with
  | none => s
  | some a =>
    let n := indUnit s c
    let h := getHsl s n
    let s := setHsl n { h with queue := h.queue.map (killReq c), cur := h.cur.map fun x => { x with req := killReq c x.req } } s
    indNext c (indFail c a s)

/-- A request ends: with the value its reply brought, or without one, as a failure. A reply to a pair that has timed out is
discarded and counts as nothing; `gaveUp` says that no reply came (R221). -/
def endRequest (n : Nat) (r : CfReq) (gaveUp : Bool) (v : Option Nat) (s : State) : State :=
  let s := if v.isNone && (gaveUp || !r.dead) then incRegF (aHslCfCount n) 16 16 s else s
  match r.pair with
  | none => currentDone n v.isSome s
  | some c =>
    if r.dead then s
    else match (getInd s c).busy with
      | none => s
      | some a => indNext c (match v with | some x => indDone c a x s | none => indFail c a s)

/-- CONTROL_REPLY: the reply to the request in hand ends it; any other is a duplicate or late, and is discarded (R221). -/
def execControlReply (n : Fin 4) (s : State) : Host.Outcome State Fault Refusal := actOp s fun s =>
  match takeMsg (getHsl s n) (fun op => op == 1 || op == 2 || op == 3) with
  | none => s
  | some (m, h) =>
    let s := setHsl n h s
    match h.cur with
    | none => s
    | some c =>
      if bits m 3 6 ≠ c.tag ∨ m % 8 ≠ (if c.req.write then 2 else 1) then s
      else
        let s := setHsl n { h with cur := none } s
        endRequest n c.req false (if bits m 9 2 = 0 then some (msgData m) else none) s

/-- CONTROL_GIVE_UP. -/
def execControlGiveUp (n : Fin 4) (s : State) : Host.Outcome State Fault Refusal := actOp s fun s =>
  let h := getHsl s n
  match h.cur with
  | none => s
  | some c => if c.resent then endRequest n c.req true none (setHsl n { h with cur := none } s) else s

/-- HSLn.D has left UP: every request of the group that has not been withdrawn fails (R221). -/
def failRequests (n : Nat) (s : State) : State :=
  let h := getHsl s n
  let all := (h.cur.map (·.req)).toList ++ h.queue.filter fun r => !r.dead
  all.foldl (fun t r => endRequest n r true none t) (setHsl n { h with cur := none, queue := [] } s)

end Sys2Proof.Machine
end

