-- ==== Sys2Proof/Machine/LinkEvents.lean ====
section
/-! DEFINITION. The Head Sample Link commands whose effects reach the channel lane, the write path, the assist loops or the
sequencer of the actuator (R206–R232). -/

namespace Sys2Proof.Machine

/-- What a change of the link does to a track operation: HSLn.D leaving UP ends a write operation, and a verify stream that
is lost sends the written sectors to read-back; accesses to the preamplifier fail; and while HSLn.D is FAILED the actuator is
write-degraded (R221, R228, R289, R385). -/
def linkAfter (n : Nat) (s0 s : State) : State :=
  let s := if laneUp s0 n 2 && !laneUp s n 2 then verifyLost n s else s
  let s := if ((getHsl s0 n).dSt == 5) = ((getHsl s n).dSt == 5) then s else noteAna s
  if downUp s0 n && !downUp s n then
    let s := failRequests n s
    let l := getCh s n
    if l.busy && l.write then setCh n { l with stop := l.stop <|> some 6 } s else s
  else s

/-- A command that changes the link of a group. -/
def actLink (n : Nat) (s : State) (f : State → State) : Host.Outcome State Fault Refusal :=
  actAll s fun s => linkAfter n s (f s)

/-! ### Samples (R207, R210, R217) -/

/-- Samples joined to those of a sector, up to the 704 frames an entry holds (R265). -/
def joinSamples (old new : List (Option Int)) : List (Option Int) := (old ++ new).take 90112

/-- A read sector takes a reader's samples while its stream has been there since the sector's start; one that resumes is used from
the next sector on, and what it does not bring counts as erased (R237). -/
def joinRead (l : Nat) (resume : Bool) (out : List (Option Int)) (x : Sector) : Sector :=
  if l = 0 then
    let x := { x with goneA := x.goneA || resume }
    if x.hasA && !x.goneA then { x with a := joinSamples x.a out } else x
  else if l = 1 then
    let x := { x with goneB := x.goneB || resume }
    if x.hasB && !x.goneB then { x with b := joinSamples x.b out } else x
  else x

/-- The samples that lane `l` of the link delivers, which may resume a stream, reach the sectors under the head: a read sector
between its first and last bit takes readers A and B; a written one takes the verify reader until its mark has been sought. -/
def takeSamples (n l : Nat) (resume : Bool) (out : List (Option Int)) (s : State) : State :=
  mapSecs n (fun x =>
    if x.res != 0 || x.begun == 0 then x
    else if !(getCh s n).write || x.rb then (if x.passed then x else joinRead l resume out x)
    else if l = 2 && decide (0 < x.gfrags) && !x.formed then { x with a := joinSamples x.a out } else x) s

/-- A good frame with HSW that names the head requested puts that head into effect (R217, R381). -/
def takeHsw (n : Nat) (f : LinkFrame) (s : State) : State :=
  let q := getSq s n
  if frameGood upMarker f && bit f.header 22 && upHead f == q.head then setSq n { q with headSeen := true } s else s

/-- The descrambler of a lane after a frame (R203). -/
def descrambled (n l : Nat) (f : LinkFrame) (s : State) : State :=
  let h := getHsl s n
  setHsl n (putLane l { getLane h l with descr := lineTail (lineBits f) } h) s

/-- The frames of an FSEQ can be passed on: every lane that is UP has brought its own, or the foremost lane is already 3 past them
(R200). -/
def skewReady (s : State) (n : Nat) (h : Hsl) : Bool :=
  match h.skew with
  | [] => false
  | b :: r => decide (3 ≤ r.length) || (List.range 3).all fun l => !laneUp s n l || b.got.any (·.lane == l)

/-- What a lane brings the channel lane of an FSEQ that is passed on: erased samples where its frame is missing (R200, R210). -/
def passLane (n : Nat) (b : Skew) (l : Nat) (s : State) : State :=
  if !laneUp s n l then s
  else if b.got.any (·.lane == l) then
    (b.got.filter (·.lane == l)).foldl (fun t g => takeSamples n l g.resume g.chan t) s
  else
    let out := missed (getLane (getHsl s n) l) b.fseq
    takeSamples n l false out (incWideBy (aUpErasedLo n l) out.length s)

/-- Frames pass on from the deskew buffer, FSEQ by FSEQ: the samples of each lane, to the channel lane and the islands, and the
AUX unit (R200, R205, R211). -/
def passOn : Nat → Nat → State → State
  | 0, _, s => s
  | k + 1, n, s =>
    let h := getHsl s n
    match h.skew with
    | [] => s
    | b :: r =>
      if skewReady s n h then
        let s := setHsl n (upAux b.fseq b.aux { h with skew := r, passed := some b.fseq }) s
        passOn k n (islandsTake n b (forTo (fun l t => passLane n b l t) 3 s))
      else s

/-- A frame of a lane that is UP, with what follows from it. -/
def serveFrame (n l : Nat) (f : LinkFrame) (drops : Nat × Nat × Nat) (s : State) : State :=
  let s := upFrame n l f drops s
  let s := takeHsw n f (passOn (getHsl s n).skew.length n s)
  if lossDue (getLane (getHsl s n) l) then upLost n l s else s

/-- UPSTREAM_FRAME (R200, R203–R211, R222): a slot of a lane whose receiver is on; `dropped`, `dropA` and `dropB` samples met a
full receive FIFO of the channel lane and of the two islands. A lane that is not UP delivers nothing; it acquires or trains. -/
def execUpstreamFrame (n : Fin 4) (l : Fin 3) (f : LinkFrame) (dropped dropA dropB : Nat) (s : State) : Host.Outcome State Fault Refusal :=
  actLink n s fun s =>
    let x := getLane (getHsl s n) l
    if !actPresent s n || x.st == 0 then s
    else
      let g := received x.descr f
      let s := descrambled n l f s
      if x.st = 3 then serveFrame n l g (dropped, if l.val = 2 then 0 else dropA, if l.val = 2 then 0 else dropB) s
      else if x.st = 2 then trainFrame n l g s
      else if x.st = 1 ∨ x.st = 4 then acquireFrame n l g s
      else s

/-! ### Lanes lost, failed and turned off (R222) -/

/-- LANE_LOST; lane 3 is HSLn.D. -/
def execLaneLost (n : Fin 4) (l : Fin 4) (s : State) : Host.Outcome State Fault Refusal := actLink n s fun s =>
  if l.val = 3 then downLost n s
  else if laneUp s n l then upLost n l s else s

/-- LANE_FAILED; lane 3 is HSLn.D. -/
def execLaneFailed (n : Fin 4) (l : Fin 4) (s : State) : Host.Outcome State Fault Refusal := actLink n s fun s =>
  let h := getHsl s n
  if l.val = 3 then (if h.dSt = 2 ∨ h.dSt = 4 then setHsl n { h with dSt := 5 } s else s)
  else
    let st := (getLane h l).st
    if st = 1 ∨ st = 2 ∨ st = 4 then setLaneSt n l 5 (incReg (aUpFail n l) s) else s

/-- A write to HSL_CTL, with what it does to a track operation (R228). -/
def setHslCtl (n v : Nat) (s : State) : State := linkAfter n s (writeHslCtl n v s)

/-- HSL_EN. -/
def execHslEn (n : Fin 4) (on : Bool) (s : State) : Host.Outcome State Fault Refusal := actAll s fun s =>
  setHslCtl n (setBits (reg s (aHslCtl n)) 0 1 (bnat on)) s

/-- RX_EN. -/
def execRxEn (n : Fin 4) (l : Fin 3) (on : Bool) (s : State) : Host.Outcome State Fault Refusal := actAll s fun s =>
  setHslCtl n (setBits (reg s (aHslCtl n)) (8 + l) 1 (bnat on)) s

/-! ### STATUS and SENSE frames (R219, R293, R343, R351, R365) -/

/-- PA_STATUS: while HSLn.D is UP a STATUS control frame updates HSL_PA_STAT, and with it PA_SAFE and WABORT; a write stream
reported aborted restarts, LIMIT is counted, and the fault bits trip the loops of the selected head. -/
def execPaStatus (n : Fin 4) (s : State) : Host.Outcome State Fault Refusal := actAll s fun s =>
  match takeMsg (getHsl s n) (· == 7) with
  | none => s
  | some (m, g) =>
    if !downUp s n then setHsl n g s
    else
    let was := paStat s n 9
    let s := setReg (aHslPaStat n) (msgData m) (setHsl n g s)
    let s := if !was && paStat s n 9 then writeAborted n s else s
    let s := if paStat s n 11 then incReg (aAstCount n 5) s else s
    let h := 8 * n.val + (getHsl s n).head
    let w := reg s (aHslPaSense n)
    let s := if paStat s n 13 then tripHead n h false 4 (w % 65536) s else s
    if paStat s n 14 then tripHead n h true 6 (w / 65536) s else s

/-- PA_SENSE: a SENSE control frame updates HSL_PA_SENSE; the next tick is a fresh one. -/
def execPaSense (n : Fin 4) (s : State) : Host.Outcome State Fault Refusal := act s fun s =>
  match takeMsg (getHsl s n) (· == 6) with
  | none => s
  | some (m, g) =>
    if !downUp s n then setHsl n g s
    else setAst n { getAst s n with fresh := true } (setReg (aHslPaSense n) (msgData m) (setHsl n g s))

end Sys2Proof.Machine
end

