-- ==== Sys2Proof/Machine/Power.lean ====
section
/-! DEFINITION. Power, reference, temperature, watchdog and reset: the sources of reset, the power-fail sequence, and
what survives a reset (R49–R68, R70, R430, R431, R434). -/

namespace Sys2Proof.Machine

/-! ### Sources of reset, numbered as SYS_RSTCAUSE's bits (R66) -/

abbrev cPor : Nat := 0
abbrev cPin : Nat := 1
abbrev cPwrfail : Nat := 2
abbrev cMonitor : Nat := 3
abbrev cRefloss : Nat := 4
abbrev cThermal : Nat := 5
abbrev cWdog : Nat := 6
abbrev cSoft : Nat := 7

/-- A source added to a mask of sources. -/
def addCause (i m : Nat) : Nat := setBits m i 1 1

/-- A source removed from a mask of sources. -/
def dropCause (i m : Nat) : Nat := setBits m i 1 0

/-- The order in which coinciding sources are recorded: the first that was recognized (R66). -/
def causeOf (m : Nat) : Nat :=
  match [cPor, cMonitor, cPwrfail, cRefloss, cThermal, cPin, cWdog, cSoft].find? (bit m) with
  | some i => 2 ^ i
  | none => 1

/-! ### The power-fail sequence (R63, R431) -/

/-- The recorder at recognition: every record is copied to the mirror, those still queued are dropped, and POWER_FAIL
carries their number (R431). -/
def powerFailRecord (s : State) : State :=
  let dropped := s.strata.queue.length
  let s := { s with strata := { s.strata with queue := [], stopped := true } }
  if !s.strata.mirrorRun then s
  else
    let s := if s.strata.onMirror then s else copyAll s.strata.ring.length s
    let q := nextSeq s srcSys
    let r : Rec := { src := srcSys, code := 2, epoch := s.wall.epoch, seq := q % 2 ^ 32, tb := s.now, args := [dropped] }
    appendMirror r { s with strata := { s.strata with seqs := smSet (fun _ => 0) s.strata.seqs srcSys (q + 1) } }

/-- A source of reset that quiesces is recognized: it starts the sequence, joins the one in progress, or keeps the
device in the reset it is in. The sequence turns write gate and assist off and pulls PAn_MGT (R63, R66, R226). -/
def recognize (i : Nat) (s : State) : State :=
  let p := s.pwr
  match p.phase with
  | .running =>
    let s := powerFailRecord
      { s with pwr := { p with phase := .quiescing, recognized := addCause i 0, holding := addCause i p.holding } }
    forTo (fun n t => if actPresent t n then failSafe n t else t) 4 s
  | .quiescing => { s with pwr := { p with recognized := addCause i p.recognized, holding := addCause i p.holding } }
  | .reset => { s with pwr := { p with holding := addCause i p.holding } }

/-! ### Entering and leaving reset (R61, R64, R70, R430) -/

/-- A field of the OTP reads uncorrectable (R453). -/
def otpBad (o : Otp) (f : Nat) : Bool := o.bad.contains f

/-- The lifecycle state that a reading of the OTP gives: SECURED when it is uncorrectable (R453). -/
def lcOf (o : Otp) : Nat := if otpBad o 5 then 2 else o.lc

/-- OTP fields in the middle of being written when a reset comes read uncorrectable (R453). -/
def otpTorn (s : State) : Otp :=
  match s.sec.cmd with
  | some c => { s.otp with bad := (s.otp.bad ++ c.fields).eraseDups }
  | none => s.otp

/-- The device in reset: everything at its reset value but the MRAM, the OTP, the always-on domain and what lies
outside the device. DRAM does not keep its contents (DESIGN CHOICE, log 21). -/
def resetDevice (s : State) : State :=
  let p : Power := { phase := .reset, resetCount := s.pwr.resetCount, cause := s.pwr.cause, holding := s.pwr.holding,
                     pwrFailHigh := s.pwr.pwrFailHigh, rstHigh := s.pwr.rstHigh, coreOk := s.pwr.coreOk,
                     islAOk := s.pwr.islAOk, islBOk := s.pwr.islBOk, mramOk := s.pwr.mramOk, ioOk := s.pwr.ioOk,
                     refOk := s.pwr.refOk, xtalOk := s.pwr.xtalOk, tapReset := s.pwr.tapReset, aonTmax := s.pwr.aonTmax }
  { pending := s.pending, out := s.out, free := s.free, variant := s.variant, now := s.now, pwr := p, wall := s.wall,
    mem := s.mem.filter (fun e => decide (mramBase ≤ e.1)), bad := s.bad.filter (fun e => decide (mramBase / 64 ≤ e.1)),
    mirror := s.mirror, jrn := s.jrn, flash := s.flash, flashBig := s.flashBig, unfenced := s.unfenced, otp := otpTorn s,
    sec := { debugSeen := s.sec.debugSeen }, tdm := { s.tdm with wire := [], status := [] } }

/-- Reset entered from recognized sources: the cause is recorded and RESET_COUNT rises (R66). -/
def enterReset (m : Nat) (s : State) : State :=
  resetDevice { s with pwr := { s.pwr with cause := causeOf m, resetCount := satAdd 16 s.pwr.resetCount 1 } }

/-- The START record, whose payload is completed when the mirror starts (R430). -/
def startRecord (s : State) : State := enqueue srcSys 1 [0, s.pwr.cause + s.pwr.resetCount * 65536, reg s aBootStatus] s

/-- The SEC block at reset release (R452–R454, R456, R457): the OTP is read and its lifecycle state takes effect, debug is
closed to what that state allows, a challenge is drawn, and the first reset in RMA clears the MRAM. -/
def secRelease (s : State) : State :=
  let lc := lcOf s.otp
  let c := freeBytes 32 s
  let s := { c.2 with sec := { lc := lc, seen := s.otp, debugSeen := s.sec.debugSeen || lc != 2, challenge := c.1 } }
  let s := if lc = 3 ∧ s.otp.rmaDone = false then
      { s with mem := s.mem.filter (fun e => decide (e.1 < mramBase)), bad := s.bad.filter (fun e => decide (e.1 < mramBase / 64)),
               jrn := {}, mirror := {}, otp := { s.otp with rmaDone := true } }
    else s
  s.otp.bad.foldl (fun t f => record srcSec 0xA5 [if f < 8 then f else 2] t) s

/-- A holding cause has gone; with none left the device leaves reset (R54, R60, R62, R63). -/
def release (m : List Nat) (s : State) : State :=
  let h := m.foldl (fun h i => dropCause i h) s.pwr.holding
  let s := { s with pwr := { s.pwr with holding := h } }
  if s.pwr.phase = .reset ∧ h = 0 then secRelease (startRecord { s with pwr := { s.pwr with phase := .running } }) else s

/-- An event of the always-on domain or of the board: it acts in reset too. -/
def actAon (s : State) (f : State → State) : Host.Outcome State Fault Refusal := .next (keep s (f s))

/-! ### Commands -/

/-- The entry record of a write that no completion has acknowledged: a command in flight still holds it (R63). -/
def unacknowledged (s : State) (i : Nat) : Bool := s.cmd.cmds.any fun c => c.recs.contains i

/-- An entry record whose 64-byte block the power collapse left as it was before its last burst: free, wholly old (R91). A record
that belongs to an acknowledged write is durable. -/
def oldRecord (s : State) (i : Nat) (t : State) : State := if unacknowledged s i then setRec i {} t else t

/-- A block of MRAM that reads as before the engine store given: no fence had made it durable (R91). -/
def oldStore (e : Nat × Nat × List Byte) (s : State) : State := memWrite (e.2.1 * 64) e.2.2 s

/-- The levels at a core power-up, one bit each: VDD_ISLA, VDD_ISLB, VDD_MRAM, VDDIO_18, the reference, the crystal, and
PWR_FAIL_N (R66). What is not there holds the device in reset as its own source does (R52, R54, R63). -/
def powerUpLevels (levels : Nat) : Power :=
  let hold := fun i on m => if on then m else addCause i m
  { phase := .reset, rstHigh := false, islAOk := bit levels 0, islBOk := bit levels 1, mramOk := bit levels 2, ioOk := bit levels 3,
    refOk := bit levels 4, xtalOk := bit levels 5, pwrFailHigh := bit levels 6,
    holding := hold cMonitor (bit levels 2 && bit levels 3) (hold cRefloss (bit levels 4) (hold cPwrfail (bit levels 6) (addCause cPin 0))) }

/-- CORE_POWER_UP (R52, R61): everything is reset, the timebase, the reset count and the holdover included. `torn` are the
entry records of unacknowledged writes, and `old` the unfenced engine stores, whose blocks the collapse left wholly old (R63,
R91). RST_N is low until it is released (R62). -/
def execCorePowerUp (torn old : List Nat) (levels : Fin 128) (s : State) : Host.Outcome State Fault Refusal :=
  let t := torn.foldl (fun t i => oldRecord s i t) (resetDevice s)
  let t := ((s.unfenced.zipIdx.filter fun e => old.contains e.2).map (·.1)).foldl (fun t e => oldStore e t) t
  .next { t with pending := s.pending, variant := s.variant, now := 0, wall := {}, sec := {}, unfenced := [],
                 pwr := powerUpLevels levels.val }

/-- SUPPLY_MONITOR_TRIP (R52): 0 VDD_CORE, 1 VDD_MRAM, 2 VDDIO_18. -/
def execSupplyMonitorTrip (rail : Fin 3) (s : State) : Host.Outcome State Fault Refusal := actAon s fun s =>
  let p := s.pwr
  recognize cMonitor { s with pwr := { p with coreOk := p.coreOk && rail.val != 0, mramOk := p.mramOk && rail.val != 1,
                                              ioOk := p.ioOk && rail.val != 2 } }

/-- PWR_FAIL_N_LOW (R63, R66): the ball goes low, or is high again. A low level that lasts 1.0 µs is recognized, one of 0.5 µs
may be; the sequence once begun runs to its end whatever the ball does. -/
def execPwrFailNLow (low recognized : Bool) (s : State) : Host.Outcome State Fault Refusal := actAon s fun s =>
  let s := { s with pwr := { s.pwr with pwrFailHigh := !low } }
  if low && recognized then recognize cPwrfail s else s

/-- RESET_ENTERED (R63): the end of the power-fail sequence. -/
def execResetEntered (s : State) : Host.Outcome State Fault Refusal := actAon s fun s =>
  if s.pwr.phase = .quiescing then enterReset s.pwr.recognized s else s

/-- RESTART (R63): PWR_FAIL_N is high, the rails are up, and the causes that end with them have gone. -/
def execRestart (s : State) : Host.Outcome State Fault Refusal := actAon s fun s =>
  if s.pwr.phase ≠ .reset then s
  else release [cPwrfail, cMonitor, cWdog, cSoft]
    { s with pwr := { s.pwr with pwrFailHigh := true, coreOk := true, mramOk := true, ioOk := true } }

/-- REFERENCE_LOSS (R54). -/
def execReferenceLoss (s : State) : Host.Outcome State Fault Refusal := actAon s fun s =>
  recognize cRefloss { s with pwr := { s.pwr with refOk := false } }

/-- REFERENCE_RETURN (R54). -/
def execReferenceReturn (s : State) : Host.Outcome State Fault Refusal := actAon s fun s =>
  release [cRefloss] { s with pwr := { s.pwr with refOk := true } }

/-- AON_XTAL_TIMEOUT (R55). -/
def execAonXtalTimeout (s : State) : Host.Outcome State Fault Refusal := actAon s fun s =>
  { s with pwr := { s.pwr with xtalOk := false } }

/-- CRYSTAL_START (R55). -/
def execCrystalStart (s : State) : Host.Outcome State Fault Refusal := actAon s fun s =>
  { s with pwr := { s.pwr with xtalOk := true } }

/-- The hottest of the sensors and its index; of equals the lowest index (DESIGN CHOICE, log 22). -/
def hottest : List Int → Nat → Option (Int × Nat)
  | [], _ => none
  | t :: ts, i =>
    match hottest ts (i + 1) with
    | none => some (t, i)
    | some (u, j) => if u ≤ t then some (t, i) else some (u, j)

/-- SYS_THERM_STATUS (R66). -/
def thermStatus (s : State) : Nat :=
  s.pwr.tmax + s.pwr.tmaxSensor * 4096 + bnat s.pwr.warn * 65536 + bnat s.pwr.crit * 131072

/-- A threshold with its 2.0 °C of release (R59). -/
def threshold (was : Bool) (t thr : Int) : Bool := if was then decide (thr - 8 ≤ t) else decide (thr ≤ t)

/-- WARN and CRIT follow TMAX and the thresholds, with a record each time one begins (R59, R66). -/
def judgeTherm (s : State) : State :=
  let p := s.pwr
  let t := sgn 12 p.tmax
  let warn := threshold p.warn t (sgn 12 (regF s aThermCfg 0 12))
  let crit := threshold p.crit t (sgn 12 (regF s aThermCfg 16 12))
  let s := { s with pwr := { p with warn := warn, crit := crit } }
  let s := if warn && !p.warn then record srcSys 0x20 [thermStatus s] s else s
  if crit && !p.crit then record srcSys 0x20 [thermStatus s] s else s

/-- THERMAL_SAMPLE (R58–R60): the eight sensors in Q10.2 °C. The sensor logic runs on in reset, where only the trip is judged. -/
def execThermalSample (temps : List Int) (s : State) : Host.Outcome State Fault Refusal := actAon s fun s =>
  match hottest (temps.take 8) 0 with
  | none => s
  | some (t, i) =>
    let s := { s with pwr := { s.pwr with aonTmax := unsgn 12 t } }
    let p := s.pwr
    let peak := if sgn 12 p.tmaxPeak ≤ t then unsgn 12 t else p.tmaxPeak
    let s := if p.phase = .reset then s
      else judgeTherm { s with pwr := { p with tmax := unsgn 12 t, tmaxSensor := i, tmaxPeak := peak } }
    if 540 ≤ t then recognize cThermal s else s

/-- THERMAL_TRIP_RELEASE (R60): in reset, TMAX has read below +110.0 °C for 1 s. -/
def execThermalTripRelease (s : State) : Host.Outcome State Fault Refusal := actAon s fun s =>
  if s.pwr.phase = .reset ∧ sgn 12 s.pwr.aonTmax < 440 then release [cThermal] s else s

/-- CLK_CORE runs at half its frequency while CRIT reads 1 (R59). -/
def coreHalved (s : State) : Bool := s.pwr.crit

/-- The fields of SYS_WDOG_CFG (R66). -/
def wdogFields : List Fld := [⟨0, 16, .rw, fun v => decide (100 ≤ v) && decide (v ≤ 10000)⟩, ⟨16, 1, .rw1, fun _ => true⟩]

/-- The watchdog's count starts over with the TIMEOUT now held (R68). -/
def wdogRestart (s : State) : State :=
  { s with pwr := { s.pwr with wdogTimeout := regF s aWdogCfg 0 16, wdogFrom := s.now } }

/-- A write to SYS_WDOG_CFG (R68). -/
def writeWdogCfg (v : Nat) (s : State) : State :=
  let t := writeFields aWdogCfg wdogFields v s
  if !regB s aWdogCfg 16 && regB t aWdogCfg 16 then wdogRestart t else t

/-- WDOG_CFG_WRITE (R68). -/
def execWdogCfgWrite (v : Nat) (s : State) : Host.Outcome State Fault Refusal := act s (writeWdogCfg v)

/-- A write to SYS_WDOG_KICK (R66, R68). -/
def writeWdogKick (v : Nat) (s : State) : State := if bits v 0 16 = 0x6B1D then wdogRestart s else s

/-- WDOG_KICK (R68). -/
def execWdogKick (v : Nat) (s : State) : Host.Outcome State Fault Refusal := act s (writeWdogKick v)

/-- WATCHDOG_TIMEOUT (R68). -/
def execWatchdogTimeout (s : State) : Host.Outcome State Fault Refusal := act s fun s =>
  if regB s aWdogCfg 16 then recognize cWdog s else s

/-- A write to SYS_RSTCTL (R67). -/
def writeRstctl (v : Nat) (s : State) : State :=
  if bit v 8 then (if bits v 0 8 = 0x5A then recognize cSoft s else record srcSys 0x13 [v] s) else s

/-- SOFT_RST (R67). -/
def execSoftRst (v : Nat) (s : State) : Host.Outcome State Fault Refusal := act s (writeRstctl v)

/-- RST_N_LOW (R61, R62): reset without quiescing; it coincides with a sequence in progress (R66). -/
def execRstNLow (s : State) : Host.Outcome State Fault Refusal := actAon s fun s =>
  let s := { s with pwr := { s.pwr with rstHigh := false, holding := addCause cPin s.pwr.holding } }
  if s.pwr.phase = .reset then s
  else enterReset (addCause cPin (if s.pwr.phase = .quiescing then s.pwr.recognized else 0)) s

/-- RST_N_RELEASE (R62, R70). -/
def execRstNRelease (s : State) : Host.Outcome State Fault Refusal := actAon s fun s =>
  release [cPin] { s with pwr := { s.pwr with rstHigh := true } }

/-- PLLS_LOCKED (R62). -/
def execPllsLocked (s : State) : Host.Outcome State Fault Refusal := act s fun s =>
  { s with pwr := { s.pwr with pllLocked := true } }

/-- JTAG_TRST (R61, R64): the TAP is in reset while JTAG_TRST_N is low. -/
def execJtagTrst (low : Bool) (s : State) : Host.Outcome State Fault Refusal := actAon s fun s =>
  { s with pwr := { s.pwr with tapReset := low } }

end Sys2Proof.Machine
end

