-- ==== Sys2Proof/Machine/Sha.lean ====
section
/-! DEFINITION. SHA-256 and HMAC-SHA-256, which the spec names and does not write out: as FIPS 180-4 and FIPS 198-1
define them (PRESUMED, log 51; R449, R460). -/

namespace Sys2Proof.Machine

/-- The round constants. -/
def shaK : List Word :=
  [0x428a2f98, 0x71374491, 0xb5c0fbcf, 0xe9b5dba5, 0x3956c25b, 0x59f111f1, 0x923f82a4, 0xab1c5ed5] ++
  [0xd807aa98, 0x12835b01, 0x243185be, 0x550c7dc3, 0x72be5d74, 0x80deb1fe, 0x9bdc06a7, 0xc19bf174] ++
  [0xe49b69c1, 0xefbe4786, 0x0fc19dc6, 0x240ca1cc, 0x2de92c6f, 0x4a7484aa, 0x5cb0a9dc, 0x76f988da] ++
  [0x983e5152, 0xa831c66d, 0xb00327c8, 0xbf597fc7, 0xc6e00bf3, 0xd5a79147, 0x06ca6351, 0x14292967] ++
  [0x27b70a85, 0x2e1b2138, 0x4d2c6dfc, 0x53380d13, 0x650a7354, 0x766a0abb, 0x81c2c92e, 0x92722c85] ++
  [0xa2bfe8a1, 0xa81a664b, 0xc24b8b70, 0xc76c51a3, 0xd192e819, 0xd6990624, 0xf40e3585, 0x106aa070] ++
  [0x19a4c116, 0x1e376c08, 0x2748774c, 0x34b0bcb5, 0x391c0cb3, 0x4ed8aa4a, 0x5b9cca4f, 0x682e6ff3] ++
  [0x748f82ee, 0x78a5636f, 0x84c87814, 0x8cc70208, 0x90befffa, 0xa4506ceb, 0xbef9a3f7, 0xc67178f2]

/-- The eight words of the hash in the making. -/
structure Sha where
  a : Word := 0x6a09e667
  b : Word := 0xbb67ae85
  c : Word := 0x3c6ef372
  d : Word := 0xa54ff53a
  e : Word := 0x510e527f
  f : Word := 0x9b05688c
  g : Word := 0x1f83d9ab
  h : Word := 0x5be0cd19

/-- The message schedule, latest word first, carried on by `n` words. -/
def shaSched : Nat → List Word → List Word
  | 0, w => w
  | n + 1, w =>
    let x := w.getD 1 0
    let y := w.getD 14 0
    let s1 := x.rotateRight 17 ^^^ x.rotateRight 19 ^^^ (x >>> (10 : Nat))
    let s0 := y.rotateRight 7 ^^^ y.rotateRight 18 ^^^ (y >>> (3 : Nat))
    shaSched n ((s1 + w.getD 6 0 + s0 + w.getD 15 0) :: w)

/-- One round, on a schedule word and its constant. -/
def shaRound (s : Sha) (wk : Word × Word) : Sha :=
  let s1 := s.e.rotateRight 6 ^^^ s.e.rotateRight 11 ^^^ s.e.rotateRight 25
  let ch := (s.e &&& s.f) ^^^ (~~~s.e &&& s.g)
  let t1 := s.h + s1 + ch + wk.2 + wk.1
  let s0 := s.a.rotateRight 2 ^^^ s.a.rotateRight 13 ^^^ s.a.rotateRight 22
  let mj := (s.a &&& s.b) ^^^ (s.a &&& s.c) ^^^ (s.b &&& s.c)
  { a := t1 + (s0 + mj), b := s.a, c := s.b, d := s.c, e := s.d + t1, f := s.e, g := s.f, h := s.g }

/-- A big-endian number of bytes. -/
def shaNat (l : List Byte) : Nat := l.foldl (fun v b => v * 256 + b.toNat) 0

/-- A number as `n` big-endian bytes. -/
def shaBytes (n v : Nat) : List Byte := (leBytes n v).reverse

/-- The sixteen words of a block, latest first. -/
def shaWords : Nat → List Byte → List Word → List Word
  | 0, _, w => w
  | n + 1, l, w => shaWords n (l.drop 4) (BitVec.ofNat 32 (shaNat (l.take 4)) :: w)

/-- One block of 64 bytes. -/
def shaBlock (s : Sha) (l : List Byte) : Sha :=
  let t := ((shaSched 48 (shaWords 16 l [])).reverse.zip shaK).foldl shaRound s
  { a := s.a + t.a, b := s.b + t.b, c := s.c + t.c, d := s.d + t.d, e := s.e + t.e, f := s.f + t.f, g := s.g + t.g, h := s.h + t.h }

/-- `n` blocks. -/
def shaBlocks : Nat → Sha → List Byte → Sha
  | 0, s, _ => s
  | n + 1, s, l => shaBlocks n (shaBlock s (l.take 64)) (l.drop 64)

/-- SHA-256 of bytes: 32 bytes. -/
def sha256 (l : List Byte) : List Byte :=
  let z := (119 - l.length % 64) % 64
  let m := l ++ [0x80] ++ zeros z ++ shaBytes 8 (8 * l.length)
  let s := shaBlocks (m.length / 64) {} m
  [s.a, s.b, s.c, s.d, s.e, s.f, s.g, s.h].flatMap fun x => shaBytes 4 x.toNat

/-- HMAC-SHA-256 with a key of at most 64 bytes. -/
def hmac (key msg : List Byte) : List Byte :=
  let k := padTo 64 key
  sha256 ((k.map (· ^^^ 0x5C)) ++ sha256 ((k.map (· ^^^ 0x36)) ++ msg))

end Sys2Proof.Machine
end

