-- ==== Sys2Proof/Machine/Image.lean ====
section
/-! DEFINITION. What the SEC block and the boot ROM check: keys in OTP, signature blocks, the boot image's manifest,
sections and configuration block (R107–R116, R120, R449–R455, R459). -/

namespace Sys2Proof.Machine

/-! ### Keys and lifecycle (R452–R455) -/

/-- An owner slot is programmed, wholly or in part. -/
def ownerSet (o : Otp) (k : Nat) : Bool := !(smGet (fun _ => []) o.owner k).isEmpty

/-- An owner slot counts as revoked: by its flag, or because its hash is uncorrectable (R453). -/
def ownerRevoked (o : Otp) (k : Nat) : Bool := bit o.ownerRevoked k || otpBad o (8 + k)

/-- The vendor root counts as revoked. -/
def vendorRevoked (o : Otp) : Bool := o.vendorRevoked || otpBad o 0

/-- An owner slot that is programmed and not revoked. -/
def ownerOk (o : Otp) (k : Nat) : Bool := ownerSet o k && !ownerRevoked o k

/-- Some owner slot is programmed and not revoked. -/
def anyOwner (o : Otp) : Bool := (List.range 4).any (ownerOk o)

/-- The floors: 64 when uncorrectable (R453). -/
def imageFloor (o : Otp) : Nat := if otpBad o 6 then 64 else o.imageFloor
def mcFloor (o : Otp) : Nat := if otpBad o 7 then 64 else o.mcFloor

/-- The key hash a SIGNER names, of a key that is programmed and not revoked (R450, R451). -/
def keyHash (o : Otp) (signer : Nat) : Option (List Byte) :=
  if signer = 1 then (if o.vendorSet && !vendorRevoked o then some Config.vendorHash else none)
  else if 0x10 ≤ signer ∧ signer ≤ 0x13 then
    (if ownerOk o (signer - 0x10) then some (smGet (fun _ => []) o.owner (signer - 0x10)) else none)
  else none

/-- The signers that R455 allows for a kind of object in a lifecycle state. -/
def signerAllowed (lc ctx signer : Nat) : Bool :=
  let vendor := signer == 1
  let owner := decide (0x10 ≤ signer) && decide (signer ≤ 0x13)
  match ctx with
  | 0x01 | 0x02 => if lc = 0 then vendor else if lc = 2 then owner else vendor || owner
  | 0x03 => lc == 2 && owner
  | 0x04 => owner
  | 0x05 => lc == 2 && vendor
  | _ => vendor

/-! ### Signature blocks (R449–R451) -/

/-- The size of a signature block. -/
abbrev sigLen : Nat := 29888

/-- The context string of an object's kind (R449). -/
def ctxString (ctx : Nat) : List Byte := [0x5A, 0x51, 0x34, 0x31, 0x32, 0x30, 0x3A] ++ leBytes 1 ctx

/-- A signature block checked against the bytes it covers: 0 it verifies, 1 malformed, 3 signer not allowed or revoked,
2 signature invalid (R451). -/
def sigCheck (s : State) (ctx : Nat) (msg b : List Byte) : Nat :=
  let signer := fieldN b 7 1
  let pk := seg b 0x20 64
  if fieldN b 0 4 != 0x4753515A || fieldN b 4 2 != 1 || fieldN b 6 1 != 1 || fieldN b 8 1 != ctx || !allZero b 9 23 then 1
  else if !signerAllowed s.sec.lc ctx signer then 3
  else match keyHash s.otp signer with
    | none => 3
    | some h =>
      if sha256 pk ≠ h then 2
      else if Config.slhVerify pk msg (ctxString ctx) (seg b 0x60 29792) then 0 else 2

/-- A verification is counted, and one that fails is recorded (R465, R466). -/
def noteVerify (ctx r : Nat) (s : State) : State :=
  if r = 0 then incReg (aSecCount 0) s else record srcSec 0xA0 [ctx, r] (incReg (aSecCount 1) s)

/-! ### The manifest (R111–R113) -/

/-- A directory entry of a manifest. -/
structure Sect where
  type_ : Nat
  off : Nat
  len : Nat
  load : Nat
  hash : List Byte
  deriving DecidableEq, Repr

/-- A slot's manifest. -/
def manifest (s : State) (k : Nat) : List Byte := flashBytes s (slotBase s k) 4096

/-- Where a directory entry lies. -/
def dirAt (i : Nat) : Nat := 0x40 + 64 * i

/-- A directory entry. -/
def sectAt (m : List Byte) (i : Nat) : Sect :=
  { type_ := fieldN m (dirAt i) 4, off := fieldN m (dirAt i + 8) 4, len := fieldN m (dirAt i + 0xC) 4,
    load := fieldN m (dirAt i + 0x10) 8, hash := seg m (dirAt i + 0x18) 32 }

/-- The sections of a manifest, in directory order. -/
def sects (m : List Byte) : List Sect := (List.range (fieldN m 6 2)).map (sectAt m)

/-- Two ranges of bytes overlap. -/
def overlaps (a n b k : Nat) : Bool := decide (a < b + k) && decide (b < a + n)

/-- Of no two entries does a test hold. -/
def pairwise {α : Type} (p : α → α → Bool) : List α → Bool
  | [] => true
  | x :: xs => xs.all (fun y => !p x y) && pairwise p xs

/-- How many sections are of a type. -/
def typeCount (l : List Sect) (t : Nat) : Nat := (l.filter fun x => x.type_ == t).length

/-- One section is as R111 to R113 ask, but for the DRAM's capacity. -/
def sectGood (len : Nat) (x : Sect) : Bool :=
  decide (1 ≤ x.type_) && decide (x.type_ ≤ 5) && x.off % 4096 == 0 && decide (0x10000 ≤ x.off) && decide (1 ≤ x.len)
    && decide (x.off + x.len ≤ len) && x.load % 4096 == 0
    && (if x.type_ = 1 then x.len == 4096 && x.load == 0 else decide (0x1000 ≤ x.load))

/-- A manifest is well formed, but for load ranges beyond the DRAM, which its configuration block decides (R111–R113). An
IMAGE_LEN beyond the end of the last section is no reason to call it malformed (DESIGN CHOICE, log 89). -/
def manifestGood (slot : Nat) (m : List Byte) : Bool :=
  let n := fieldN m 6 2
  let l := sects m
  fieldN m 4 2 == 1 && decide (2 ≤ n) && decide (n ≤ 16) && decide (1 ≤ fieldN m 8 4) && decide (fieldN m 0x10 4 ≤ slot)
    && decide (fieldN m 0x14 2 < 4) && allZero m 0x17 1 && allZero m 0x28 24 && allZero m 0x440 3008
    && allZero m (dirAt n) (64 * (16 - n))
    && ((List.range n).all fun i => allZero m (dirAt i + 4) 4 && allZero m (dirAt i + 0x38) 8)
    && l.all (sectGood (fieldN m 0x10 4))
    && typeCount l 1 == 1 && decide (1 ≤ typeCount l 2) && decide (typeCount l 2 ≤ 8) && decide (typeCount l 3 ≤ 4)
    && decide (typeCount l 4 ≤ 1) && decide (typeCount l 5 ≤ 8)
    && pairwise (fun x y => overlaps x.off x.len y.off y.len) l
    && pairwise (fun x y => overlaps x.load x.len y.load y.len) (l.filter fun x => x.type_ != 1)

/-- The bytes of a section in the flash. -/
def sectBytes (s : State) (k : Nat) (x : Sect) : List Byte := flashBytes s (slotBase s k + x.off) x.len

/-- A section's bytes hash to what the manifest says (R114). -/
def sectHashed (s : State) (k : Nat) (x : Sect) : Bool := sha256 (sectBytes s k x) == x.hash

/-! ### The configuration block (R120) -/

/-- A slot's configuration block. -/
def configOf (s : State) (k : Nat) : List Byte :=
  match (sects (manifest s k)).find? fun x => x.type_ == 1 with
  | some x => sectBytes s k x
  | none => []

/-- The fixed fields of a configuration block are in their ranges. -/
def configGood (c : List Byte) : Bool :=
  let rate := fieldN c 8 1; let cap := fieldN c 9 1
  let assist := fieldN c 0xC 4; let rpm := fieldN c 0x10 2; let wedges := fieldN c 0x12 2; let host := fieldN c 0x24 1
  fieldN c 0 4 == 0x4643515A && fieldN c 4 2 == 1 && allZero c 6 2
    && decide (1 ≤ rate) && decide (rate ≤ 3) && decide (1 ≤ cap) && decide (cap ≤ 3) && decide (fieldN c 0xA 1 ≤ 64)
    && decide (fieldN c 0xB 1 < 16) && decide (assist < 256) && ((List.range 4).all fun n => bits assist (2 * n) 2 != 3)
    && decide (5400 ≤ rpm) && decide (rpm ≤ 7200) && decide (256 ≤ wedges) && decide (wedges ≤ 1024)
    && decide (fieldN c 0x14 1 ≤ 1) && decide (8 ≤ fieldN c 0x15 1) && decide (fieldN c 0x15 1 ≤ 0xA0) && allZero c 0x16 2
    && !bit (fieldN c 0x18 1) 0 && !bit (fieldN c 0x1E 1) 0 && seg c 0x18 6 != seg c 0x1E 6
    && bits host 0 2 != 3 && bits host 2 2 != 3 && decide (host < 16) && allZero c 0x25 27

/-- Usable DRAM under a configured capacity code (R86, R88). -/
def usableOf (cap : Nat) : Nat := 2 * 2 ^ cap * 0x40000000 / 16 * 15

/-! ### The order of checks (R113, R114, R118) -/

/-- The variant and revision are allowed by a manifest. -/
def variantGood (s : State) (m : List Byte) : Bool :=
  bit (fieldN m 0x14 2) (match s.variant with | .af => 0 | .bf => 1) && decide (fieldN m 0x16 1 ≤ 0xB0)

/-- Every check of a slot but those of the DRAM, in order: 0 when all pass, else the code of R127. -/
def slotCode (s : State) (k : Nat) : Nat :=
  let m := manifest s k
  let c := configOf s k
  let rest := (sects m).filter fun x => x.type_ != 1
  if s.boot.dead.contains k then 0xC
  else if fieldN m 0 4 ≠ 0x4942515A then 3
  else if !manifestGood (slotSize s) m then 4
  else if sigCheck s 1 m (flashBytes s (slotBase s k + 0x1000) sigLen) ≠ 0 then 5
  else if fieldN m 0xC 4 < imageFloor s.otp then 6
  else if !variantGood s m then 7
  else if !((sects m).filter fun x => x.type_ == 1).all (sectHashed s k) then 8
  else if !configGood c then 9
  else if rest.any (fun x => decide (usableOf (fieldN c 9 1) < x.load + x.len)) then 4
  else if !rest.all (sectHashed s k) then 8
  else 0

/-- The signature of a slot, as it is counted and recorded when the order of checks reaches it. -/
def noteSlot (k : Nat) (s : State) : State :=
  let m := manifest s k
  if s.boot.dead.contains k || fieldN m 0 4 != 0x4942515A || !manifestGood (slotSize s) m then s
  else noteVerify 1 (sigCheck s 1 m (flashBytes s (slotBase s k + 0x1000) sigLen)) s

/-- The measurement of a slot's image (R462). -/
def measure (s : State) (k : Nat) : Meas :=
  let m := manifest s k
  { slot := k, signer := fieldN (flashBytes s (slotBase s k + 0x1000) 16) 7 1, gen := fieldN m 8 4, svn := fieldN m 0xC 4,
    version := seg m 0x18 16, hash := sha256 m }

end Sys2Proof.Machine
end

