-- ==== Sys2Proof/Machine/Security.lean ====
section
/-! DEFINITION. The SEC block: its commands, keys, lifecycle, tokens, identity and attestation, the protocols of
Security Send and Receive, and patch loads (R389, R390, R449–R466). A command is decided, and what it programs is
programmed, when it starts; its end publishes the result (log 51). -/

namespace Sys2Proof.Machine

/-! ### Results (R465) -/

abbrev secMalformed : Nat := 1
abbrev secSigner : Nat := 3
abbrev secLifecycle : Nat := 4
abbrev secSvn : Nat := 5
abbrev secMismatch : Nat := 6
abbrev secOtp : Nat := 7
abbrev secArea : Nat := 8
abbrev secSlot : Nat := 9
abbrev secIdentity : Nat := 0xA

/-! ### Shared -/

/-- Where a command's input and output lie in DRAM. -/
def secIn (s : State) : Nat := reg s aSecCmdIn * 64
def secOut (s : State) : Nat := reg s aSecCmdOut * 64

/-- An area outside usable DRAM, or a poisoned one (R465). -/
def areaBad (s : State) (off n : Nat) : Bool := decide (dramUsable s < off + n) || poisoned s off n

/-- DEVICE_ID, 0 until the identity is derived (R460). -/
def deviceId (s : State) : List Byte := if s.sec.idReady then sha256 s.sec.idPk else zeros 32

/-- The debug module is reachable (R454). -/
def debugReachable (s : State) : Bool := s.sec.lc != 2 || s.sec.debugOpen

/-- An advance takes effect at the next reset. -/
def lcPending (s : State) : Bool := s.otp.lc != s.sec.lc

/-- A key management object or a token, and its signature block. -/
def objBody (s : State) : List Byte := dramBytes s (secIn s) 128
def objSig (s : State) : List Byte := dramBytes s (secIn s + 128) sigLen

/-- A field of the OTP programmed, with its record, or left uncorrectable when it fails read-back; a flag that fails holds
what it happens to hold (R452, R453, R466). `f` is the field's row, `bad` its number when it is uncorrectable. -/
def otpProgram (ok : Bool) (f arg : Nat) (o o' : Otp) (bad : List Nat) (s : State) : State :=
  if ok then record srcSec 0xA1 [f, arg] { s with otp := o' }
  else if bad.isEmpty then
    let d := fresh s
    { d.2 with otp := if d.1 % 2 = 0 then o else o' }
  else { s with otp := { o' with bad := (o.bad ++ bad).eraseDups } }

/-- A challenge drawn anew (R457). -/
def newChallenge (s : State) : State :=
  let c := freeBytes 32 s
  { c.2 with sec := { c.2.sec with challenge := c.1 } }

/-! ### Tokens (R457) -/

/-- A token's body is not as R457 lays it out. -/
def tokenMalformed (b : List Byte) (kind : Nat) : Bool :=
  fieldN b 0 4 != 0x5452515A || fieldN b 4 2 != 1 || fieldN b 6 1 != kind || !allZero b 7 25 || !allZero b 0x60 32

/-- A token of a kind checked: 0 accepted. -/
def tokenCheck (s : State) (kind ctx : Nat) : Nat :=
  if areaBad s (secIn s) (128 + sigLen) then secArea
  else
    let b := objBody s
    if tokenMalformed b kind then secMalformed
    else
      let r := sigCheck s ctx b (objSig s)
      if r ≠ 0 then r
      else if !s.sec.idReady then secIdentity
      else if seg b 0x20 32 ≠ deviceId s ∨ seg b 0x40 32 ≠ s.sec.challenge then secMismatch else 0

/-- The verification that a token's check makes is counted (R465, R466). -/
def noteToken (kind ctx : Nat) (s : State) : State :=
  if areaBad s (secIn s) (128 + sigLen) then s
  else
    let b := objBody s
    if tokenMalformed b kind then s else noteVerify ctx (sigCheck s ctx b (objSig s)) s

/-! ### The commands (R454–R462): each answers its result and the state it leaves -/

/-- What a command's start answers. -/
structure SecRes where
  result : Nat
  s : State
  boot : Nat := 0
  out : List Byte := []
  nonce : List Byte := []
  fields : List Nat := []

/-- VERIFY_SLOT (R118): every check of the order but those of the DRAM. -/
def secVerifySlot (k : Nat) (s : State) : SecRes :=
  if 1 < k then { result := secMalformed, s := s }
  else
    let code := slotCode s k
    let t := noteSlot k s
    if code = 0 then
      { result := 0, boot := 2,
        s := { t with sec := { t.sec with verified := smSet (fun _ => none) t.sec.verified k (some (measure s k)) } } }
    else
      let r := match code with
        | 5 => sigCheck s 1 (manifest s k) (flashBytes s (slotBase s k + 0x1000) sigLen)
        | 6 => secSvn
        | _ => secMalformed
      { result := r, boot := code, s := t }

/-- ACTIVATED (R462): RUN becomes the measurement of a slot that passed VERIFY_SLOT since the last reset. -/
def secActivated (k : Nat) (s : State) : SecRes :=
  match smGet (fun _ => none) s.sec.verified k with
  | none => { result := secMalformed, s := s }
  | some m =>
    { result := 0, s := { s with sec := { s.sec with run := some m, activated := true, activations := s.sec.activations + 1 } } }

/-- A measurement's 64 bytes (R462). -/
def measBytes : Option Meas → List Byte
  | none => zeros 64
  | some m => leBytes 1 m.slot ++ leBytes 1 m.signer ++ leBytes 2 0 ++ leBytes 4 m.gen ++ leBytes 4 m.svn ++ leBytes 4 0
      ++ padTo 16 m.version ++ padTo 32 m.hash

/-- The measurement of a sequencer's active patch (R462). -/
def patchMeas (s : State) (n : Nat) : PatchMeas :=
  let q := getSq s n
  if q.active = 0 then {} else smGet (fun _ => {}) s.sec.patches (n * 2 + (q.active - 1))

/-- A sequencer's 48 bytes of a report (R462). -/
def seqMeas (s : State) (n : Nat) : List Byte :=
  let m := patchMeas s n
  leBytes 1 (getSq s n).active ++ leBytes 1 m.signer ++ leBytes 2 0 ++ leBytes 4 (reg s (aSeqVerActive n)) ++ leBytes 4 m.svn
    ++ leBytes 4 (reg s (aSeqRomVer n)) ++ padTo 32 m.hash

/-- KEYSTATE (R462). -/
def keyState (o : Otp) : Nat :=
  (List.range 4).foldl (fun v k => v + bnat (ownerSet o k) * 2 ^ k + bnat (ownerRevoked o k) * 2 ^ (4 + k)) 0
    + bnat o.vendorSet * 256 + bnat (vendorRevoked o) * 512

/-- The 512-byte body of a report (R462). -/
def reportBody (s : State) (nonce fw : List Byte) : List Byte :=
  let c := s.sec
  let rma := c.lc == 3
  let flags := bnat (lcPending s) + bnat (debugReachable s) * 2 + bnat c.debugSeen * 4 + bnat (!c.seen.bad.isEmpty) * 8
    + bnat s.wall.valid * 16 + bnat c.activated * 32 + bnat rma * 64
  fieldBytes 512
    ([(0, leBytes 4 0x5241515A), (4, leBytes 2 1), (6, leBytes 2 0x200), (8, padTo 32 nonce),
      (0x28, if rma then zeros 32 else deviceId s), (0x48, leBytes 4 (sysId s)), (0x4C, leBytes 1 c.lc), (0x4D, leBytes 1 flags),
      (0x4E, leBytes 2 (keyState s.otp)), (0x50, leBytes 1 (imageFloor s.otp)), (0x51, leBytes 1 (mcFloor s.otp)),
      (0x54, leBytes 4 s.mirror.life), (0x58, leBytes 8 s.now), (0x60, leBytes 8 (wallNow s)),
      (0x68, leBytes 4 c.activations), (0x6C, leBytes 4 (reg s aBootStatus)), (0x70, measBytes c.boot), (0xB0, measBytes c.run)]
     ++ ((List.range 4).map fun n => (0xF0 + 48 * n, if actPresent s n then seqMeas s n else zeros 48))
     ++ [(0x1B0, leBytes 1 (severityOf s.red)), (0x1C0, padTo 64 fw)])

/-- The 72 bytes the identity key is made of (R460). -/
def idSeed (dus : List Byte) : List Byte :=
  let tag : List Byte := [0x5A, 0x51, 0x34, 0x31, 0x32, 0x30, 0x2D, 0x49, 0x44]
  ((hmac dus (tag ++ [1])) ++ (hmac dus (tag ++ [2])) ++ (hmac dus (tag ++ [3]))).take 72

/-- SIGN_REPORT (R462): the fields are taken now. -/
def secSignReport (s : State) : SecRes :=
  if s.sec.lc ≠ 3 ∧ s.sec.idReady = false then { result := secIdentity, s := s }
  else if areaBad s (secIn s) 96 || areaBad s (secOut s) 36224 then { result := secArea, s := s }
  else
    let nonce := dramBytes s (secIn s) 32
    let body := reportBody s nonce (dramBytes s (secIn s + 32) 64)
    let sig := if s.sec.lc = 3 then zeros (48 + 35664)
      else padTo 48 s.sec.idPk ++ padTo 35664 (Config.slhSign (idSeed (s.sec.seen.dus.getD [])) body (ctxString 0x10))
    { result := 0, s := s, out := body ++ sig, nonce := nonce }

/-- KEY_MGMT (R458). -/
def secKeyMgmt (ok : Bool) (s : State) : SecRes :=
  let signed := s.sec.lc == 2
  let b := objBody s
  let action := fieldN b 6 1; let k := fieldN b 7 1
  let dev := seg b 8 32
  let o := s.otp
  let owner' := { o with ownerRevoked := setBits o.ownerRevoked k 1 1 }
  if s.sec.lc = 3 then { result := secLifecycle, s := s }
  else if areaBad s (secIn s) (if signed then 128 + sigLen else 128) then { result := secArea, s := s }
  else if fieldN b 0 4 != 0x4D4B515A || fieldN b 4 2 != 1 || action == 0 || decide (3 < action) || decide (3 < k)
      || (action == 3 && k != 0) || (action != 1 && !allZero b 0x28 32) || !allZero b 0x48 56 then { result := secMalformed, s := s }
  else
    let r := if signed then sigCheck s 3 b (objSig s) else 0
    let s := if signed then noteVerify 3 r s else s
    if r ≠ 0 then { result := r, s := s }
    else if dev ≠ zeros 32 ∧ dev ≠ deviceId s then { result := secMismatch, s := s }
    else if action = 1 then
      if ownerSet o k then { result := secSlot, s := s }
      else
        { result := if ok then 0 else secOtp, fields := [8 + k],
          s := otpProgram ok 2 k o { o with owner := smSet (fun _ => []) o.owner k (seg b 0x28 32) } [8 + k] s }
    else if action = 2 then
      if bit o.ownerRevoked k then { result := 0, s := s }
      else if s.sec.lc = 2 ∧ anyOwner owner' = false then { result := secSlot, s := s }
      else { result := if ok then 0 else secOtp, s := otpProgram ok 3 k o owner' [] s }
    else if s.sec.lc = 0 then { result := secLifecycle, s := s }
    else if o.vendorRevoked then { result := 0, s := s }
    else { result := if ok then 0 else secOtp, s := otpProgram ok 1 0 o { o with vendorRevoked := true } [] s }

/-- The lowest SVN of the patches active in the present sequencers, 64 with none. -/
def patchSvn (s : State) : Nat :=
  (List.range 4).foldl (fun v n => if actPresent s n && (getSq s n).active != 0 then min v (patchMeas s n).svn else v) 64

/-- SVN_RAISE (R459). -/
def secSvnRaise (ok : Bool) (arg : Nat) (s : State) : SecRes :=
  let i := bits arg 0 7; let m := bits arg 8 7
  let o := s.otp
  let svn := match s.sec.run with | some r => r.svn | none => 0
  let imgOk := i == imageFloor o || (decide (imageFloor o ≤ i) && decide (i ≤ min 64 svn))
  let mcOk := m == mcFloor o || (decide (mcFloor o ≤ m) && decide (m ≤ patchSvn s))
  if !imgOk || !mcOk then { result := secSvn, s := s }
  else
    let f := (if i = imageFloor o then [] else [6]) ++ (if m = mcFloor o then [] else [7])
    let s := if i = imageFloor o then s else otpProgram ok 6 i s.otp { s.otp with imageFloor := i } [6] s
    let s := if m = mcFloor o then s else otpProgram ok 7 m s.otp { s.otp with mcFloor := m } [7] s
    { result := if f.isEmpty || ok then 0 else secOtp, s := s, fields := f }

/-- The journal holds nothing (R456). -/
def journalEmpty (s : State) : Bool := jrnSlots s == jrnFree s && s.jrn.recs.isEmpty

/-- An advance to `t` programmed. -/
def lcProgram (ok : Bool) (t : Nat) (s : State) : SecRes :=
  let s := otpProgram ok 5 t s.otp { s.otp with lc := t } [5] s
  { result := if ok then 0 else secOtp, s := if ok then record srcSec 0xA2 [t] s else s, fields := [5] }

/-- LC_ADVANCE (R454–R457): in the directions shown, from what is programmed. -/
def secLcAdvance (ok : Bool) (t : Nat) (s : State) : SecRes :=
  let from_ := s.otp.lc
  let no : SecRes := { result := secLifecycle, s := s }
  if t = 1 then (if from_ = 0 ∧ s.sec.idReady ∧ s.otp.vendorSet then lcProgram ok t s else no)
  else if t = 2 then (if from_ = 1 ∧ anyOwner s.otp then lcProgram ok t s else no)
  else if t = 3 then
    if from_ = 0 ∨ from_ = 3 ∨ journalEmpty s = false then no
    else if s.sec.lc = 2 then
      let r := tokenCheck s 2 5
      let s := noteToken 2 5 s
      if r ≠ 0 then { result := r, s := s } else lcProgram ok t (newChallenge s)
    else lcProgram ok t s
  else no

/-- DEBUG_UNLOCK (R457). -/
def secDebugUnlock (s : State) : SecRes :=
  let r := tokenCheck s 1 4
  let signer := fieldN (objSig s) 7 1
  let open_ := debugReachable s
  let s := noteToken 1 4 s
  if r ≠ 0 then { result := r, s := s }
  else
    let s := newChallenge s
    if open_ then { result := 0, s := s }
    else { result := 0, s := record srcSec 0xA3 [signer] { s with sec := { s.sec with debugOpen := true, debugSeen := true } } }

/-- GEN_IDENTITY (R460): once, in VENDOR. -/
def secGenIdentity (ok : Bool) (s : State) : SecRes :=
  if s.sec.lc ≠ 0 ∨ s.otp.dus.isSome then { result := secLifecycle, s := s }
  else if areaBad s (secOut s) 48 then { result := secArea, s := s }
  else
    let d := freeBytes 32 s
    let s := otpProgram ok 4 0 d.2.otp { d.2.otp with dus := some d.1 } [4] d.2
    { result := if ok then 0 else secOtp, s := s, fields := [4],
      out := if ok then padTo 48 (Config.slhPublic (idSeed d.1)) else [] }

/-- CHALLENGE (R457). -/
def secChallenge (s : State) : SecRes :=
  if areaBad s (secOut s) 32 then { result := secArea, s := s } else { result := 0, s := s, out := s.sec.challenge }

/-! ### Starting and ending (R465) -/

/-- The command named by OP runs. -/
def secRun (ok : Bool) (op arg : Nat) (s : State) : SecRes :=
  match op with
  | 1 => secVerifySlot arg s
  | 2 => secActivated arg s
  | 3 => secSignReport s
  | 4 => secKeyMgmt ok s
  | 5 => secSvnRaise ok arg s
  | 6 => secLcAdvance ok arg s
  | 7 => secDebugUnlock s
  | 8 => secGenIdentity ok s
  | _ => secChallenge s

/-- The bytes that a command reads at SEC_CMD_IN (R456–R458, R462, R465). -/
def secReads (s : State) (op arg : Nat) : Nat :=
  match op with
  | 3 => 96
  | 4 => if s.sec.lc = 2 then 128 + sigLen else 128
  | 6 => if s.sec.lc = 2 ∧ arg = 3 then 128 + sigLen else 0
  | 7 => 128 + sigLen
  | _ => 0

/-- The fields of SEC_CMD but GO. -/
def secCmdFields : List Fld := [⟨0, 4, .rw, fun v => decide (1 ≤ v) && decide (v ≤ 9)⟩, ⟨8, 16, .rw, fun _ => true⟩]

/-- A write to SEC_CMD; `ok` says that what the command programs into OTP reads back. A reserved OP leaves the one
held, and a GO with none held starts nothing (R11, log 51). -/
def writeSecCmd (ok : Bool) (v : Nat) (s : State) : State :=
  if bit v 31 && s.sec.cmd.isSome then record srcSec 0xA4 [v] (incReg (aSecCount 3) s)
  else
    let s := writeFields aSecCmd secCmdFields v s
    let op := regF s aSecCmd 0 4
    if bit v 31 && decide (1 ≤ op) && decide (op ≤ 9) then
      let at_ := secOut s
      let arg := regF s aSecCmd 8 16
      let r := secRun ok op arg (noteRead (secIn s) (secReads s op arg) s)
      { r.s with sec := { r.s.sec with cmd := some { op := op, result := r.result, boot := r.boot, out := r.out, at_ := at_,
                                                     nonce := r.nonce, fields := r.fields }, done := false } }
    else s

/-- The value of SEC_CMD that starts a command. -/
def secGo (op arg : Nat) : Nat := op + arg % 65536 * 256 + 2 ^ 31

/-- VERIFY_SLOT. -/
def execVerifySlot (slot : Nat) (s : State) : Host.Outcome State Fault Refusal := act s (writeSecCmd true (secGo 1 slot))

/-- ACTIVATED. -/
def execActivated (slot : Nat) (s : State) : Host.Outcome State Fault Refusal := act s (writeSecCmd true (secGo 2 slot))

/-- SIGN_REPORT. -/
def execSignReport (s : State) : Host.Outcome State Fault Refusal := act s (writeSecCmd true (secGo 3 0))

/-- KEY_MGMT. -/
def execKeyMgmt (otpOk : Bool) (s : State) : Host.Outcome State Fault Refusal := act s (writeSecCmd otpOk (secGo 4 0))

/-- SVN_RAISE. -/
def execSvnRaise (image mc : Fin 128) (otpOk : Bool) (s : State) : Host.Outcome State Fault Refusal := act s
  (writeSecCmd otpOk (secGo 5 (image.val + mc.val * 256)))

/-- LC_ADVANCE. -/
def execLcAdvance (target : Nat) (otpOk : Bool) (s : State) : Host.Outcome State Fault Refusal := act s
  (writeSecCmd otpOk (secGo 6 target))

/-- DEBUG_UNLOCK. -/
def execDebugUnlock (s : State) : Host.Outcome State Fault Refusal := act s (writeSecCmd true (secGo 7 0))

/-- GEN_IDENTITY. -/
def execGenIdentity (otpOk : Bool) (s : State) : Host.Outcome State Fault Refusal := act s (writeSecCmd otpOk (secGo 8 0))

/-- CHALLENGE. -/
def execChallenge (s : State) : Host.Outcome State Fault Refusal := act s (writeSecCmd true (secGo 9 0))

/-- A host's Security Receive answered with the first AL bytes of its data (R463). -/
def answerReceive (c : Cmd) (data : List Byte) (s : State) : State := returnData c (data.take c.cap.cdw11) s

/-- The request that has waited longest for a report over a nonce gets it (R463). -/
def serveReport (nonce data : List Byte) (s : State) : State :=
  match takeFirst (fun w => w.nonce == nonce) s.sec.waiting with
  | none => s
  | some (w, rest) =>
    let s := { s with sec := { s.sec with waiting := rest } }
    match w.cmd with
    | none => emit (.smbus 0 (data.take w.al)) s
    | some q => match findCmd s q with
      | some c => answerReceive c data s
      | none => s

/-- The Security Send whose object a command has taken completes with the command's result (log 51). -/
def serveSend (spsp result : Nat) (s : State) : State :=
  match takeFirst (fun w => w.2 == spsp) s.sec.sends with
  | none => s
  | some (w, rest) =>
    let s := { s with sec := { s.sec with sends := rest } }
    match findCmd s w.1 with
    | some c => completeNow c (if result = 0 then stOk else stInvalidField) s
    | none => s

/-- SEC_COMMAND_DONE (R465, R466): RESULT and DONE, the output in DRAM, and what waited for it. -/
def execSecCommandDone (s : State) : Host.Outcome State Fault Refusal := act s fun s =>
  match s.sec.cmd with
  | none => s
  | some c =>
    let s := setReg aSecCmdStatus (c.result * 256 + c.boot * 65536) { s with sec := { s.sec with cmd := none, done := true } }
    let s := if c.result = 0 then dramWrite c.at_ c.out s else s
    if c.op = 3 ∧ c.result = 0 then
      let s := if s.sec.lc = 3 then s else record srcSec 0xA6 [leNat (c.nonce.take 8)] (incReg (aSecCount 2) s)
      serveReport c.nonce c.out s
    else if c.op = 4 then serveSend 3 c.result s
    else if c.op = 6 ∨ c.op = 7 then serveSend 4 c.result s
    else s

/-- IDENTITY_DERIVATION (R460): outside RMA, from the secret that the OTP held at reset release. -/
def execIdentityDerivation (s : State) : Host.Outcome State Fault Refusal := act s fun s =>
  match s.sec.seen.dus with
  | none => s
  | some d =>
    if s.sec.lc = 3 ∨ otpBad s.sec.seen 4 then s
    else { s with sec := { s.sec with idReady := true, idPk := padTo 48 (Config.slhPublic (idSeed d)) } }

/-! ### Levels (R465) -/

/-- SEC_STATE. -/
def secState (s : State) : Nat :=
  let o := s.sec.seen
  s.sec.lc + bnat (lcPending s) * 8 + (keyState o % 256) * 16 + bnat o.vendorSet * 2 ^ 12 + bnat (vendorRevoked o) * 2 ^ 13
    + bnat s.sec.idReady * 2 ^ 14 + bnat (debugReachable s) * 2 ^ 15 + bnat s.sec.debugSeen * 2 ^ 16 + bnat (!o.bad.isEmpty) * 2 ^ 17

/-- SEC_SVN. -/
def secSvnReg (s : State) : Nat := imageFloor s.sec.seen + mcFloor s.sec.seen * 256

/-! ### Security Send and Receive (R463) -/

/-- SECP and SPSP of a command, as one number. -/
def secProtocol (c : Cmd) : Nat := bits c.cap.cdw10 24 8 * 65536 + bits c.cap.cdw10 8 16

/-- A fresh Security Send or Receive of a protocol. -/
def isSend (p : Nat → Bool) (c : Cmd) : Bool := isAdmin 0x81 c && p (secProtocol c)
def isReceive (p : Nat → Bool) (c : Cmd) : Bool := isAdmin 0x82 c && p (secProtocol c)

/-- The protocols of R463. -/
def sendProtocol (p : Nat) : Bool := p == 0xF00001 || p == 0xF00003 || p == 0xF00004
def receiveProtocol (p : Nat) : Bool := p == 0 || p == 0xF00001 || p == 0xF00002 || p == 0xF00004

/-- SEC_SEND_NONCE: the nonce is held for the controller; and a Security Send of no protocol listed is turned away. -/
def execSecSendNonce (s : State) : Host.Outcome State Fault Refusal := act s fun s =>
  withFresh (isSend fun p => p == 0xF00001 || !sendProtocol p) (fun c => withCtrl c fun t s =>
    if secProtocol c ≠ 0xF00001 ∨ c.cap.cdw11 ≠ 32 ∨ c.cap.data.length ≠ 32 then completeNow c stInvalidField s
    else completeNow c stOk (setCtrl c.ctrl (some { t with nonce := some c.cap.data }) s)) s

/-- An object that a host sends goes to firmware, in DRAM where SEC_CMD_IN points, and its command completes with the SEC
command that takes it (log 51). -/
def sendObject (spsp : Nat) (c : Cmd) (s : State) : State :=
  let s := toWaiting c (dramWrite (secIn s) c.cap.data s)
  { s with sec := { s.sec with sends := s.sec.sends ++ [(c.seq, spsp)] } }

/-- SEC_SEND_KEY_MGMT. -/
def execSecSendKeyMgmt (s : State) : Host.Outcome State Fault Refusal := act s (withFresh (isSend (· == 0xF00003)) (sendObject 3))

/-- SEC_SEND_TOKEN. -/
def execSecSendToken (s : State) : Host.Outcome State Fault Refusal := act s (withFresh (isSend (· == 0xF00004)) (sendObject 4))

/-- SEC_RECV_PROTOCOLS: the supported protocols, in the list that SPC's Security Protocol Information returns (PRESUMED,
log 51); and a Security Receive of no protocol listed is turned away. -/
def execSecRecvProtocols (s : State) : Host.Outcome State Fault Refusal := act s fun s =>
  withFresh (isReceive fun p => p == 0 || !receiveProtocol p) (fun c s =>
    if secProtocol c ≠ 0 then completeNow c stInvalidField s
    else answerReceive c (zeros 6 ++ [0, 2, 0x00, 0xF0]) s) s

/-- Report requests that wait and whose commands still stand. -/
def reportsWaiting (s : State) : Nat :=
  (s.sec.waiting.filter fun w => match w.cmd with | none => true | some q => (findCmd s q).isSome).length

/-- SEC_RECV_REPORT: the request waits for its turn with the nonce it consumes; a seventeenth is turned away. -/
def execSecRecvReport (s : State) : Host.Outcome State Fault Refusal := act s fun s =>
  withFresh (isReceive (· == 0xF00001)) (fun c => withCtrl c fun t s =>
    if 16 ≤ reportsWaiting s then completeNow c stInterrupted s
    else
      let s := toWaiting c (setCtrl c.ctrl (some { t with nonce := none }) s)
      { s with sec := { s.sec with waiting := s.sec.waiting ++ [{ cmd := some c.seq, al := c.cap.cdw11, nonce := t.nonce.getD (zeros 32) }] } }) s

/-- SEC_RECV_CERTIFICATE: the identity certificate from the boot flash, or nothing when it is not there (R461). -/
def execSecRecvCertificate (s : State) : Host.Outcome State Fault Refusal := act s fun s =>
  withFresh (isReceive (· == 0xF00002)) (fun c s =>
    let cert := flashBytes s 0x20000 30400
    answerReceive c (if fieldN cert 0 4 = 0x4349515A then cert else []) s) s

/-- SEC_RECV_CHALLENGE. -/
def execSecRecvChallenge (s : State) : Host.Outcome State Fault Refusal := act s fun s =>
  withFresh (isReceive (· == 0xF00004)) (fun c s => answerReceive c s.sec.challenge s) s

/-! ### Patch loads (R389, R390, R396) -/

/-- The 48-bit words of a patch object. -/
def patchWords (b : List Byte) (n : Nat) : List Nat := (List.range n).map fun w => fieldN b (0x40 + 8 * w) 6

/-- Where a patch object's signature block begins. -/
def patchSigAt (words : Nat) : Nat := (0x40 + 8 * words + 63) / 64 * 64

/-- The header of a patch object, by the RESULT of SEQ_BANKk_STATE: 0 when it is good. -/
def patchHeader (s : State) (n : Nat) (h : List Byte) : Nat :=
  let w := fieldN h 6 2; let e := fieldN h 0x12 2
  if fieldN h 0 4 ≠ 0x434D515A ∨ fieldN h 4 2 ≠ 1 then 1
  else if w = 0 ∨ 6144 < w ∨ e < 0x800 ∨ 0x800 + w ≤ e ∨ fieldN h 8 4 = 0 ∨ fieldN h 0x11 1 ≠ 0 ∨ allZero h 0x20 32 = false then 2
  else if fieldN h 0xC 4 ≠ reg s (aSeqRomVer n) then 3
  else if bit (fieldN h 0x10 1) n = false ∨ 16 ≤ fieldN h 0x10 1 then 4
  else 0

/-- SEQ_BANKk_STATE given STATE, RESULT and WORDS. -/
def setBankState (n k st result words : Nat) (s : State) : State := setReg (aSeqBankState n k) (st + result * 16 + words * 256) s

/-- A load that fails: the bank is FAILED and LOADS_FAILED rises. -/
def loadFails (n k result words : Nat) (s : State) : State := incReg (aSeqCount n 8) (setBankState n k 3 result words s)

/-- A write to SEQ_PLOAD_CTL: a load into a bank that is active or about to be is refused and leaves the bank as it is; a
GO during a load makes a record; else the bank is LOADING (R390). -/
def writePload (n v : Nat) (s : State) : State :=
  let q := getSq s n
  let k := bits v 0 1
  if !bit v 31 then setReg (aSeqPloadCtl n) k s
  else if q.loading.isSome then record (srcSeq n) 0x145 [v] s
  else
    let s := setReg (aSeqPloadCtl n) k s
    if q.active = k + 1 ∨ q.pend = some (k + 1) then
      incReg (aSeqCount n 8) (setRegF (aSeqBankState n k) 4 4 8 s)
    else setBankState n k 1 0 0 (setSq n { q with loading := some k } s)

/-- PATCH_LOAD. -/
def execPatchLoad (n : Fin 4) (bank : Fin 2) (s : State) : Host.Outcome State Fault Refusal := act s fun s =>
  if actPresent s n.val then writePload n.val (bank.val + 2 ^ 31) s else s

/-- PATCH_LOAD_COMPLETE: the SEC block has read the object once and made its checks in order; the words in a VALID bank
are those it verified (R390). -/
def execPatchLoadComplete (n : Fin 4) (s : State) : Host.Outcome State Fault Refusal := act s fun s =>
  match (getSq s n.val).loading with
  | none => s
  | some k =>
    let off := reg s (aSeqPloadOfs n.val) * 4096
    let h := dramBytes s off 64
    let w := fieldN h 6 2
    let s := noteRead off (patchSigAt w + sigLen) (setSq n.val { getSq s n.val with loading := none } s)
    let r := if areaBad s off 64 then 9 else patchHeader s n.val h
    if r ≠ 0 then loadFails n.val k r 0 s
    else if areaBad s off (patchSigAt w + sigLen) then loadFails n.val k 9 0 s
    else
      let b := dramBytes s off (patchSigAt w)
      let sig := dramBytes s (off + patchSigAt w) sigLen
      let words := patchWords b w
      let put := fun (t : State) => setSq n.val { getSq t n.val with banks := smSet (fun _ => []) (getSq t n.val).banks k words } t
      if (!words.all wordGood) || !((List.range w).all fun i => allZero b (0x46 + 8 * i) 2) then loadFails n.val k 7 w (put s)
      else
        let r := sigCheck s 2 b sig
        let s := noteVerify 2 r (put s)
        if r ≠ 0 then loadFails n.val k 5 w s
        else if fieldN h 0x14 4 < mcFloor s.otp then loadFails n.val k 6 w s
        else
          let m : PatchMeas := { signer := fieldN sig 7 1, svn := fieldN h 0x14 4, hash := sha256 b }
          let s := { s with sec := { s.sec with patches := smSet (fun _ => {}) s.sec.patches (n.val * 2 + k) m } }
          let q := getSq s n.val
          let s := setSq n.val { q with builds := smSet (fun _ => 0) q.builds k (fieldN h 0x18 8) } s
          setBankState n.val k 2 0 w (setReg (aSeqBankVer n.val k) (fieldN h 8 4) (setReg (aSeqBankEntry n.val k) (fieldN h 0x12 2) s))

end Sys2Proof.Machine
end

