-- ==== Sys2Proof/Machine/Boot.lean ====
section
/-! DEFINITION. Start-up: the boot ROM's choice, verification and loading of a slot, its report, the flash command port,
and head-stack discovery (R104–R128). -/

namespace Sys2Proof.Machine

/-! ### The boot record (R109, R117) -/

/-- The slot on trial that a record names; TRIAL equal to ACTIVE, or a TRIAL_MAX outside 1 to 8, means none. -/
def trialOf (r : List Byte) : Option Nat :=
  let t := fieldN r 9 1; let m := fieldN r 0xA 1
  if t ≤ 1 ∧ t ≠ fieldN r 8 1 ∧ 1 ≤ m ∧ m ≤ 8 then some t else none

/-- Trial attempts made: cleared bits among ATTEMPTS[TRIAL_MAX − 1:0]. -/
def attemptsMade (r : List Byte) : Nat := countTo (fun i => !bit (fieldN r 0xC 1) i) (fieldN r 0xA 1)

/-- ATTEMPTS with its lowest set bit cleared. -/
def clearLowest (v : Nat) : Nat := match findFrom (bit v) 0 8 with | some i => setBits v i 1 0 | none => v

/-- The IMAGE_GEN of a slot that is not empty. -/
def slotGen (s : State) (k : Nat) : Option Nat := if fieldN (manifest s k) 0 4 = 0x4942515A then some (fieldN (manifest s k) 8 4) else none

/-- The slots to try, in order, the slot on trial with the attempts used including this one, and the slot whose attempts
are used up (R117). -/
structure Choice where
  order : List Nat
  trial : Option (Nat × Nat) := none
  spent : Option Nat := none
  deriving DecidableEq, Repr

/-- The choice with no valid record: the higher IMAGE_GEN among slots that are not empty, slot 0 on a tie (R117). -/
def choiceByGen (s : State) : Choice :=
  match slotGen s 0, slotGen s 1 with
  | some a, some b => { order := if a < b then [1, 0] else [0, 1] }
  | none, some _ => { order := [1, 0] }
  | _, none => { order := [0, 1] }

/-- The choice of slots, and the flash once the attempt's bit is programmed (R117). -/
def chooseSlots (s : State) : Choice × State :=
  match recInForce s with
  | none => (choiceByGen s, s)
  | some k =>
    let r := bootRec s k
    let active := fieldN r 8 1
    match trialOf r with
    | none => ({ order := [active, 1 - active] }, s)
    | some t =>
      if attemptsMade r < fieldN r 0xA 1 then
        ({ order := [t, active], trial := some (t, attemptsMade r + 1) }, flashPut (k * 0x10000 + 0xC) (leBytes 1 (clearLowest (fieldN r 0xC 1))) s)
      else ({ order := [active], spent := some t }, s)

/-! ### Trying a slot (R113–R116) -/

/-- The configuration block and sections of a slot in DRAM (R104, R120). -/
def loadSlot (k : Nat) (s : State) : State :=
  let m := manifest s k
  let s' := ((sects m).filter fun x => x.type_ != 1).foldl (fun t x => dramWrite x.load (sectBytes s k x) t) s
  dramWrite 0 (configOf s k) s'

/-- FW_MIB to lock, and SYS_BOOT_STATUS.FWMIB_SRC (R116). -/
def fwMibChoice (s : State) (k : Nat) : Nat × Nat :=
  let want := fieldN (configOf s k) 0xA 1
  match validDesc s with
  | some d => if d.fwMib ≠ want ∧ d.unreleased ≠ 0 then (d.fwMib, 2) else (want, 1)
  | none => (want, 1)

/-- A slot tried (R113–R115): 1 when it boots, else the code of R127; DRAM may have been locked on its behalf. `trains` says
that DRAM training succeeds with the slot's settings, `copies` that each section hashes right within three copies. -/
def trySlot (trains copies : Bool) (k : Nat) (s : State) : Nat × State :=
  let code := slotCode s k
  let s := noteSlot k s
  let c := configOf s k
  let dram := fieldN c 8 1 + fieldN c 9 1 * 4
  if code ≠ 0 then (code, s)
  else if regB s aDramCfg 7 then
    if regF s aDramCfg 0 5 ≠ dram then (0xD, s) else if copies then (1, loadSlot k s) else (8, s)
  else if !trains then (0xA, s)
  else
    let s := writeDramCfg (dram + 128) s
    if copies then (1, loadSlot k s) else (8, s)

/-- What a round leaves: the slot booted and each slot's result code. -/
structure Round where
  booted : Option Nat := none
  r0 : Nat := 0xF
  r1 : Nat := 0xF
  deriving DecidableEq, Repr

/-- A slot's result put into a round. -/
def Round.put (r : Round) (k code : Nat) : Round := if k = 0 then { r with r0 := code } else { r with r1 := code }

/-- The slots tried in order until one boots. -/
def tryAll (trains copies : Nat) : List Nat → Round → State → Round × State
  | [], r, s => (r, s)
  | k :: ks, r, s =>
    let x := trySlot (bit trains k) (bit copies k) k s
    if x.1 = 1 then ({ (r.put k 1) with booted := some k }, x.2) else tryAll trains copies ks (r.put k x.1) x.2

/-! ### The report and the handover (R119, R127) -/

/-- SYS_BOOT_STATUS. -/
def bootStatus (c : Choice) (r : Round) (src : Nat) : Nat :=
  let onTrial := match c.trial, r.booted with | some (t, _), some k => t == k | _, _ => false
  let slot := match r.booted with | some k => k + 1 | none => 3
  let kind := match r.booted with | some _ => if onTrial then 2 else 1 | none => 0
  let attempt := match c.trial with | some (_, n) => if onTrial || r.booted.isNone then n else 0xF | none => 0xF
  slot + kind * 4 + r.r0 * 16 + r.r1 * 256 + attempt * 4096 + src * 65536

/-- Handover: MRAM locked, the boot report, the measurement, and hart 0 at the first FIRMWARE section. -/
def handover (k time : Nat) (c : Choice) (r : Round) (s : State) : State :=
  let m := manifest s k
  let cfg := configOf s k
  let f := fwMibChoice s k
  let entry := match (sects m).find? (fun x => x.type_ == 2) with | some x => x.load | none => 0
  let s := setReg aBootStatus (bootStatus c r f.2) s
  let s := setReg aBootGen (fieldN m 8 4) (setReg aBootTime (min time 0xFFFFFFFF) s)
  let s := writeMramRegion (f.1 + 128) s
  let s := setHart 0 (some (dramBase + entry)) s
  let hostRate := fieldN cfg 0x24 1
  { s with boot := { s.boot with phase := .firmware, dead := [] },
           sec := { s.sec with boot := some (measure s k), run := some (measure s k) },
           cmd := { s.cmd with fmt := { s.cmd.fmt with layout := fieldN cfg 0x14 1 } },
           host := { s.host with hostRate := hostRate, running := k } }

/-- No slot boots: the report, the line on UART_TXD, and a retry in 1 s, or after the third failure the halt (R119). -/
def bootFails (c : Choice) (r : Round) (s : State) : State :=
  let s := emit (.uart r.r0 r.r1) (setReg aBootStatus (bootStatus c r 0) s)
  let n := s.boot.failed + 1
  { s with boot := { s.boot with failed := n, phase := if 3 ≤ n then .halted else .retry } }

/-- BOOT_SEQUENCE (R62, R113, R117): a round of the boot ROM's sequence, which does not start until the PLLs report lock; `trains` and `copies` say by slot whether DRAM trains and
whether the copies hash right, `time` is SYS_BOOT_TIME. -/
def execBootSequence (trains copies : Fin 4) (time : Nat) (s : State) : Host.Outcome State Fault Refusal := act s fun s =>
  if s.boot.phase ≠ .ready ∨ s.pwr.pllLocked = false then s
  else
    let c := chooseSlots s
    let r0 : Round := match c.1.spent with | some t => ({} : Round).put t 0xB | none => {}
    let x := tryAll trains.val copies.val c.1.order r0 c.2
    match x.1.booted with
    | some k => handover k time c.1 x.1 x.2
    | none => bootFails c.1 x.1 x.2

/-- FLASH_TIMEOUT (R105): a flash command of a slot gets no answer within 10 ms; the slot fails with code 0xC. -/
def execFlashTimeout (slot : Fin 2) (s : State) : Host.Outcome State Fault Refusal := act s fun s =>
  { s with boot := { s.boot with dead := (slot.val :: s.boot.dead).eraseDups } }

/-- BOOT_RETRY (R119): 1 s after a failed round the whole sequence is retried. -/
def execBootRetry (s : State) : Host.Outcome State Fault Refusal := act s fun s =>
  if s.boot.phase = .retry then { s with boot := { s.boot with phase := .ready, dead := [] } } else s

/-! ### The flash command port (R127, R128) -/

/-- The fields of SYS_OSPI_CMD but GO. -/
def ospiFields : List Fld := [⟨0, 8, .rw, fun _ => true⟩, ⟨8, 1, .rw, fun _ => true⟩, ⟨9, 1, .rw, fun _ => true⟩,
  ⟨11, 5, .rw, fun _ => true⟩, ⟨16, 9, .rw, fun v => decide (v ≤ 256)⟩]

/-- A write to SYS_OSPI_CMD: with GO it sends a command to the flash, or is discarded with a record while one is on the bus. A
command that writes takes its LENGTH bytes from the FIFO. -/
def writeOspiCmd (v : Nat) (s : State) : State :=
  if bit v 31 && s.boot.busy then record srcSys 0x14 [v] s
  else
    let s := writeFields aOspiCmd ospiFields v s
    if bit v 31 then
      let out := regB s aOspiCmd 9
      let len := regF s aOspiCmd 16 9
      let sent := if out then s.boot.fifo.take len else []
      let addr := if regB s aOspiCmd 8 then some (reg s aOspiAddr) else none
      let s := { s with boot := { s.boot with busy := true, sending := sent, fifo := s.boot.fifo.drop sent.length } }
      emit (.flash (regF s aOspiCmd 0 8) addr (regF s aOspiCmd 11 5) sent (if out then 0 else len)) s
    else s

/-- OSPI_COMMAND (R128). -/
def execOspiCommand (value : Nat) (s : State) : Host.Outcome State Fault Refusal := act s (writeOspiCmd value)

/-- A write to SYS_OSPI_DATA: 4 bytes appended, or discarded when the FIFO is full (R127); one that 253 to 255 bytes leave no room
for is discarded whole (DESIGN CHOICE, log 87). -/
def writeOspiData (v : Nat) (s : State) : State :=
  if 256 < s.boot.fifo.length + 4 then s else { s with boot := { s.boot with fifo := s.boot.fifo ++ leBytes 4 v } }

/-- A read of SYS_OSPI_DATA: 4 bytes removed; an empty FIFO gives ones (R127). Where 1 to 3 bytes are left the missing upper bytes
read 0 (DESIGN CHOICE, log 87). -/
def readOspiData (s : State) : Nat × State :=
  if s.boot.fifo.isEmpty then (0xFFFFFFFF, s)
  else (leNat (s.boot.fifo.take 4), { s with boot := { s.boot with fifo := s.boot.fifo.drop 4 } })

/-- OSPI_DATA_WRITE. -/
def execOspiDataWrite (value : BitVec 32) (s : State) : Host.Outcome State Fault Refusal := act s (writeOspiData value.toNat)

/-- OSPI_DATA_READ, answered to its requester. -/
def execOspiDataRead (source : Fin 128) (s : State) : Host.Outcome State Fault Refusal := act s fun s =>
  let x := readOspiData s
  emit (.readData source x.1) x.2

/-- What a command on the bus leaves in the flash: a program clears bits from the address sent, an erase sets its 64 KiB sector to
ones (R107). Bytes beyond the fitted capacity go nowhere. -/
def flashAfter (e : FlashEffect) (s : State) : State :=
  let x := reg s aOspiAddr
  if !regB s aOspiCmd 8 ∨ flashSize s ≤ x then s
  else match e with
    | .none => s
    | .program => flashPut x (((s.boot.sending.take (flashSize s - x)).zipIdx).map fun b => flashByte s (x + b.2) &&& b.1) s
    | .erase => { s with flash := smClear s.flash (x / 0x10000 * 0x10000) (x / 0x10000 * 0x10000 + 0x10000) }

/-- OSPI_COMMAND_END: the data that a read command brought go into the FIFO, the flash holds what the command, as its opcode says
there, left in it, and flash window reads that waited are answered (R127, R128). Data beyond the FIFO's 256 bytes are lost
(DESIGN CHOICE, log 87). -/
def execOspiCommandEnd (bytes : List Byte) (effect : FlashEffect) (s : State) : Host.Outcome State Fault Refusal :=
  act s fun s =>
    if !s.boot.busy then s
    else
      let s := flashAfter effect s
      let data := if regB s aOspiCmd 9 then [] else bytes.take (regF s aOspiCmd 16 9)
      let waits := s.boot.waits
      let s := { s with boot := { s.boot with busy := false, sending := [], fifo := (s.boot.fifo ++ data).take 256, waits := [] } }
      waits.foldl (fun t w => emit (.readData w.1 (leNat (flashBytes t w.2.1 w.2.2))) t) s

/-! ### Head-stack discovery (R124, R126) -/

/-- ACT_EXPECT and ASSIST_EXPECT of the configuration block that boot left in DRAM (R120). -/
def actExpected (s : State) (n : Nat) : Bool := actPresent s n && bit (dramNat s 0xB 1) n
def assistExpect (s : State) (n : Nat) : Nat := bits (dramNat s 0xC 4) (2 * n) 2

/-- HSL lock: HSLn.D is UP and so is an upstream lane (R223). -/
def hslLock (s : State) (n : Nat) : Bool := downUp s n && clkSrc s n != 3

/-- Discovery's outcome for an actuator: 1 found, 2 not found, 3 mismatch (R124). -/
def discoverState (s : State) (n : Nat) : Nat :=
  let heads := Config.preamp n 8
  let kind := bits heads 4 2
  let want := assistExpect s n
  let stat := (getPre s n).headstat
  if !hslLock s n then 2
  else if bits (Config.preamp n 4) 0 8 ≠ 1 ∨ bits heads 0 4 = 0 ∨ 8 < bits heads 0 4 ∨ (want ≠ 0 ∧ want ≠ kind) then 3
  else if (List.range 8).any fun m => bits stat (2 * m) 2 == 3 then 3
  else 1

/-- HEAD_DISCOVERY (R124–R126, R181): step 0 enables the group and drives PAn_RST_N high; step 1, once the
waits are over, classes the actuator, unless it is FOUND drives PAn_RST_N low again and leaves the downstream lane in
electrical idle, and makes firmware's record (its code and layout, and the zeros it gives for what an actuator NOT_FOUND did not
let it read: log 52); step 2 makes one head that was present faulty: it yields no servo address mark after load, or firmware
declares it failed; step 3 finds the actuator's in-service bound missed (R105). Once classed an actuator is not discovered again
until the next start (R121). -/
def execHeadDiscovery (n : Fin 4) (step : Fin 4) (head : Fin 8) (s : State) : Host.Outcome State Fault Refusal := act s fun s =>
  let known := smGet (fun _ => 0) s.boot.acts n.val
  if step.val = 3 then
    if s.cmd.fmt.acts.contains n.val && (getSched s n.val).st == 1 then noteAna (declareUnavailable n s) else s
  else if !actExpected s n.val ∨ (step.val < 2 ∧ known ≠ 0) then s
  else if step.val = 0 then setHslCtl n.val (setBits (setBits (reg s (aHslCtl n.val)) 0 2 3) 8 3 7) s
  else if step.val = 2 then
    let h := n.val * 8 + head.val
    if known = 1 ∧ smGet (fun _ => 0) s.boot.heads h = 1 then
      failHeads { s with boot := { s.boot with heads := smSet (fun _ => 0) s.boot.heads h 2 } }
    else s
  else
    let st := discoverState s n.val
    let p := getPre s n.val
    let ids := if st = 2 then [0, 0, 0] else [preFixed n.val 0, preFixed n.val 4, p.headstat]
    let s := record (srcClu 0) 0x800 ([n.val + st * 256] ++ ids) s
    let b := { s.boot with acts := smSet (fun _ => 0) s.boot.acts n.val st }
    let b := if st ≠ 1 then b
      else forTo (fun m (b : Boot) => { b with heads := smSet (fun _ => 0) b.heads (n.val * 8 + m) (bits p.headstat (2 * m) 2),
                                               elems := smSet (fun _ => 0) b.elems (n.val * 8 + m) (smGet (fun _ => 0) p.elems m) }) 8 b
    let s := { s with boot := b }
    if st = 1 then (if s.cmd.recovered then failHeads s else s)
    else noteAna (unavailable (setHslCtl n.val (setBits (reg s (aHslCtl n.val)) 0 2 0) s))

end Sys2Proof.Machine
end

