-- ==== Sys2Proof/Machine/CalCmds.lean ====
section
/-! DEFINITION. The commands of the assist and calibration blocks: ticks, temperature, sensors, commits, exchanges and
trip clearing (R341–R366). -/

namespace Sys2Proof.Machine

/-! ### The loops (R343, R346) -/

/-- LOOP_TICK: every present actuator's two loops, in actuator order (R343). -/
def execLoopTick (ins : List TickIn) (s : State) : Host.Outcome State Fault Refusal := actAll s fun s =>
  forTo (fun n t => if actPresent t n then assistTick n (ins.getD n {}) t else t) 4 s

/-- HEATER_RECORD_TIMEOUT: the heater loop is disabled (R346). -/
def execHeaterRecordTimeout (n : Fin 4) (s : State) : Host.Outcome State Fault Refusal := act s fun s =>
  let a := getAst s n
  setAst n { a with noRec := true, htr := { a.htr with en := false, onFor := 0, overN := 0, under := 0 } } s

/-! ### The drive temperature and its sensors (R354, R355, R361) -/

/-- The valid sensors' readings. -/
def validReadings (s : State) : List Int :=
  (List.range 4).filterMap fun k => let v := smGet (fun _ => {}) s.cal.sens k; if v.valid then some v.t else none

/-- The temperature and the source in force at an update (R354). -/
def tempNow (s : State) : Int × Nat :=
  let r := validReadings s
  if regB s aCalCfg 8 then (sgn 16 (reg s aCalTempOvr), 1)
  else if r.isEmpty then (s.cal.td, 2)
  else (roundDiv (r.foldl (· + ·) 0) r.length, 0)

/-- T_D_UPDATE. -/
def execTDUpdate (s : State) : Host.Outcome State Fault Refusal := act s fun s =>
  let p := tempNow s
  let old := s.cal.tsrc
  let s := { s with cal := { s.cal with td := p.1, tsrc := p.2 } }
  let s := if old = p.2 then s else record srcCal 0x1C2 [ones64, p.2, ones64] s
  noteDue s

/-- A reading in Q8.8 °C, when it is good: raw ÷ 2^FRAC, from −40.00 °C to +125.00 °C (R355). -/
def goodReading (frac : Nat) (raw : Option (BitVec 16)) : Option Int :=
  match raw with
  | none => none
  | some r =>
    let t := r.toInt * (2 ^ (8 - frac) : Nat)
    if -40 * 256 ≤ t ∧ t ≤ 125 * 256 then some t else none

/-- A sensor after a reading: three in a row of the other kind change its validity (R355). -/
def sensorAfter (v : Sensor) (t : Option Int) : Sensor :=
  let flips := t.isSome != v.valid
  let run := if flips then v.run + 1 else 0
  { valid := if run = 3 then !v.valid else v.valid, t := t.getD v.t, run := if run = 3 then 0 else run }

/-- I3C_SENSOR_READ: the two bytes read, or none for a read that failed. -/
def execI3cSensorRead (k : Fin 4) (raw : Option (BitVec 16)) (s : State) : Host.Outcome State Fault Refusal := act s fun s =>
  if !regB s (aI3cCfg k) 0 || !regB s aI3cCtl 0 then s
  else
    let t := goodReading (regF s (aI3cCfg k) 24 4) raw
    let v := sensorAfter (smGet (fun _ => {}) s.cal.sens k) t
    let s := emit (.i3cRead k (regF s (aI3cCfg k) 8 7) (regF s (aI3cCfg k) 16 8)) (if t.isNone then incReg aI3cErr s else s)
    setReg (aI3cVal k) (unsgn 16 v.t + bnat v.valid * 65536)
      { s with cal := { s.cal with sens := smSet (fun _ => {}) s.cal.sens k v } }

/-- A write to I3C_CTL; on the change of EN to 1, SETDASA and DISEC go to every enabled sensor (R355). -/
def writeI3cCtl (v : Nat) (s : State) : State :=
  let was := regB s aI3cCtl 0
  let s := writeFields aI3cCtl [{ lo := 0, len := 1 }, { lo := 4, len := 4, legal := fun x => decide (x ≤ 0xB) }] v s
  if was || !regB s aI3cCtl 0 then s
  else forTo (fun k t => if regB t (aI3cCfg k) 0 then emit (.i3c k (regF t (aI3cCfg k) 1 7) (regF t (aI3cCfg k) 8 7)) t else t) 4 s

/-- I3C_EN. -/
def execI3cEn (on : Bool) (scl : Fin 16) (s : State) : Host.Outcome State Fault Refusal := act s fun s =>
  writeI3cCtl (bnat on + scl * 16) s

/-! ### Commit (R359, R360) -/

/-- A write to CAL_COMMIT. -/
def writeCalCommit (v : Nat) (s : State) : State :=
  if s.cal.check.isSome then record srcCal 0x1C5 [bits v 0 5, ones64, ones64] s
  else
    let s := writeFields aCalCommit [{ lo := 0, len := 5 }, { lo := 8, len := 1 }] v s
    setRegF aCalCommitStatus 0 1 1 { s with cal := { s.cal with check := some (bits v 0 5, bit v 8) } }

/-- CAL_COMMIT. -/
def execCalCommit (h : Fin 32) (restore : Bool) (s : State) : Host.Outcome State Fault Refusal := act s fun s =>
  writeCalCommit (h + bnat restore * 256) s

/-- COMMIT_CHECK_DONE. -/
def execCommitCheckDone (s : State) : Host.Outcome State Fault Refusal := act s fun s =>
  match s.cal.check with
  | none => s
  | some (h, restore) =>
    let r := commitResult s h restore
    let s := { s with cal := { s.cal with check := none } }
    let s := setReg aCalCommitStatus (r * 256 + h * 65536) s
    if r = 0 then
      { s with cal := { s.cal with pending := setBits s.cal.pending h 1 1, restore := setBits s.cal.restore h 1 (bnat restore) } }
    else record srcCal 0x1C4 [h, r, ones64] (incReg aCalReject s)

/-- CAL_EXCHANGE: a boundary of the head; `field` says that it is the end of a qualifying servo field (R360). -/
def execCalExchange (h : Fin 32) (field : Bool) (s : State) : Host.Outcome State Fault Refusal := act s fun s =>
  if bit s.cal.pending h && (!writingHead s (h / 8) (h % 8) || field) then exchange h s else s

/-! ### Clearing a trip (R352) -/

/-- One trip of a head cleared. -/
def clearTrip (h k : Nat) (s : State) : State :=
  let t := smGet (fun _ => 0) s.cal.trips h
  if !bit t k then s
  else
    let c := s.cal
    record srcCal 0x1C1 [h, k, ones64] { s with cal := { c with
      trips := smSet (fun _ => 0) c.trips h (setBits t k 1 0), generation := c.generation + 1,
      counts := smSet (fun _ => 0) c.counts (h * 4 + 2) (satAdd 32 (smGet (fun _ => 0) c.counts (h * 4 + 2)) 1) } }

/-- A write to CAL_TRIP_CLR. -/
def writeTripClr (v : Nat) (s : State) : State :=
  let h := bits v 0 5
  let s := if bit v 8 then clearTrip h 0 s else s
  if bit v 9 then clearTrip h 1 s else s

/-- CAL_TRIP_CLR. -/
def execCalTripClr (h : Fin 32) (ast htr : Bool) (s : State) : Host.Outcome State Fault Refusal := act s fun s =>
  writeTripClr (h + bnat ast * 256 + bnat htr * 512) s

end Sys2Proof.Machine
end

