-- ==== Sys2Proof/Machine/HostPort.lean ====
section
/-! DEFINITION. The host ports: links, Ethernet frames and the slow path, TCP connections and their contexts, and the
NVMe/TCP PDUs (R129–R141, R152, R158). -/

namespace Sys2Proof.Machine

/-! ### The slow path's transmit ring (R133, R158) -/

/-- The slots of a slow-path ring, from its LOG2 field. -/
def ringSlots (s : State) (lo : Nat) : Nat := 2 ^ regF s aSlowCfg lo 4

/-- Slots that firmware has passed are sent in order; a port that is down or paused holds them. An uncorrectable block met
in a slot is counted (R88). The fuel bounds how many. -/
def slowTransmit : Nat → State → State
  | 0, s => s
  | k + 1, s =>
    let n := ringSlots s 4
    let hw := regF s aSlowTxIdx 0 10
    if !regB s aSlowCfg 8 || hw == regF s aSlowTxIdx 16 10 % n then s
    else
      let off := reg s aSlowTxBase * 4096 + hw * 9216
      let len := bits (dramNat s off 8) 0 16
      let p := bits (dramNat s off 8) 16 1
      let o := getPort s p
      if !o.up || o.paused then s
      else
        let s := noteRead off (8 + len) (emit (.ethernet p (portTag s p) (dramBytes s (off + 8) len)) s)
        slowTransmit k (setRegF aSlowTxIdx 0 10 ((hw + 1) % n) s)

/-! ### Links (R129, R131, R158) -/

/-- Port enable bits of HOST_CTL. -/
def portEnabled (s : State) (p : Nat) : Bool := regB s aHostCtl p

/-- A port fails: a record with the contexts ended, every context ended, the fault reported (R131). -/
def portFail (p : Nat) (s : State) : State :=
  let n := (s.host.ctxs.filter fun e => match e.2 with | some c => c.port == p | none => false).length
  let s := setPort p { getPort s p with failed := true, up := false, rate := 3, fec := 0, paused := false } s
  let s := endCtxs (fun _ c => c.port == p) (record (srcHost p) 0x80 [n] s)
  if redActive s then addFault 0x30 p s else s

/-- The highest rate both ends advertise: the port offers HOST_RATE and every lower rate (R129). -/
def commonRate (s : State) (p partner : Nat) : Option Nat :=
  ([0, 1, 2].filter fun r => decide (bits s.host.hostRate (2 * p) 2 ≤ r) && bit partner r).head?

/-- LINK_UP (R129, R131): the partner's advertised rates as a mask of RATE codes, and the FECs it offers at 25 Gbit/s. -/
def execLinkUp (p : Fin 2) (partner : Nat) (rs528 baseR : Bool) (s : State) : Host.Outcome State Fault Refusal := actSev s fun s =>
  let o := getPort s p
  if !portEnabled s p || o.up then s
  else match commonRate s p partner with
    | none => s
    | some r =>
      let fec := if r = 2 then (if rs528 then 2 else if baseR then 3 else 0) else 1
      let s := setPort p { o with training := false, up := true, rate := r, fec := fec, failed := false } s
      slowTransmit 1024 (discoveryChanged (if redActive s then clearFault 0x30 p s else s))

/-- LINK_DOWN (R131). -/
def execLinkDown (p : Fin 2) (s : State) : Host.Outcome State Fault Refusal := act s fun s =>
  let o := getPort s p
  if o.up then discoveryChanged (incReg (aLinkDown p) (setPort p { o with up := false, training := portEnabled s p, rate := 3, fec := 0, paused := false } s))
  else s

/-- PORT_FAILED (R131): the link has stayed down for 2 s. -/
def execPortFailed (p : Fin 2) (s : State) : Host.Outcome State Fault Refusal := actSev s fun s =>
  let o := getPort s p
  if portEnabled s p && !o.up && !o.failed then portFail p s else s

/-- A port's enable bit written: setting it starts auto-negotiation, clearing it fails the port at once (R158). -/
def setPortEnable (p : Nat) (on : Bool) (s : State) : State :=
  if portEnabled s p = on then s
  else
    let s := setRegF aHostCtl p 1 (bnat on) s
    if on then setPort p { getPort s p with training := true } s
    else
      let wasUp := (getPort s p).up
      let s := setPort p { getPort s p with training := false } s
      let s := portFail p (if wasUp then incReg (aLinkDown p) s else s)
      if wasUp then discoveryChanged s else s

/-- PORT_ENABLE (R158). -/
def execPortEnable (p : Fin 2) (s : State) : Host.Outcome State Fault Refusal := actSev s (setPortEnable p true)

/-- PORT_DISABLE (R158). -/
def execPortDisable (p : Fin 2) (s : State) : Host.Outcome State Fault Refusal := actSev s (setPortEnable p false)

/-- A write of HOST_CTL (R158). -/
def writeHostCtl (v : Nat) (s : State) : State :=
  setPortEnable 1 (bit v 1) (setPortEnable 0 (bit v 0) (setRegF aHostCtl 2 2 (bits v 2 2) s))

/-! ### Frames and the slow path (R130, R132, R133, R158) -/

/-- Whether a frame passes the MAC: size and VLAN (R130). -/
def frameFits (s : State) (p : Nat) (f : EthFrame) : Bool :=
  let mtu := regF s (aPortCfg p) 0 14
  let n := f.bytes.length + 4
  let vlanEn := regB s (aPortCfg p) 14
  !f.secondTag && decide (64 ≤ n) && decide (n ≤ mtu + 18 + (if f.vlan.isSome then 4 else 0))
    && (match f.vlan with | some v => vlanEn && v == regF s (aPortCfg p) 19 12 | none => !vlanEn)

/-- A frame stored in the next slot of the receive ring, or dropped and counted (R133, R158). -/
def slowReceive (p : Nat) (bytes : List Byte) (s : State) : State :=
  let n := ringSlots s 0
  let hw := regF s aSlowRxIdx 0 10
  if !regB s aSlowCfg 8 || (hw + 1) % n == regF s aSlowRxIdx 16 10 % n then incReg (aPortDrop p) s
  else
    let off := reg s aSlowRxBase * 4096 + hw * 9216
    setRegF aSlowRxIdx 0 10 ((hw + 1) % n) (dramWrite off (leBytes 8 (bytes.length + p * 65536) ++ bytes) s)

/-- The FEC codewords met since the last frame, on a port that runs with FEC (R129, R158). -/
def noteFec (p : Nat) (f : EthFrame) (s : State) : State :=
  if (getPort s p).fec = 0 then s else incRegBy (aFecUncorr p) f.fecUncorr (incWideBy (aFecCorrLo p) f.fecCorr s)

/-- Firmware learns of a smaller path MTU and writes the MSS into the context; it holds from the next segment on (R133). -/
def lowerMss (x mtu : Nat) (s : State) : State :=
  match getCtx s x with
  | none => s
  | some c =>
    let m := mtu - (if overV6 s c then 60 else 40) - (if c.tsRecent.isSome then 12 else 0)
    setCtx x (some { c with mss := max 1 (min c.mss m) }) s

/-- A frame that passes the MAC and is addressed to the port (R132, R133). A TCP segment for a listener or context has its
effect as a command of its own; any other goes to firmware. -/
def takeFrame (p : Nat) (f : EthFrame) (s : State) : State :=
  if f.fragment || (f.options && f.hardware) then incReg (aPortDrop p) s
  else if !f.sumOk || f.hardware then s
  else
    let s := slowReceive p f.bytes s
    match f.pmtu with | some (x, mtu) => lowerMss x mtu s | none => s

/-- FRAME_RECEIVE (R130, R132, R133). Every frame of R130 that is dropped counts in DROP, one with a bad FCS in FCS_ERR too
(R158). -/
def execFrameReceive (p : Fin 2) (f : EthFrame) (s : State) : Host.Outcome State Fault Refusal := act s fun s =>
  if !(getPort s p).up then s
  else
  let s := noteFec p f s
  if !f.fcsOk then incReg (aPortDrop p) (incReg (aFcsErr p) s)
  else match f.pause with
    | some t =>
      let s := setPort p { getPort s p with paused := decide (t ≠ 0) } s
      if t = 0 then slowTransmit 1024 s else s
    | none =>
      if !frameFits s p f then incReg (aPortDrop p) s
      else if f.forPort then takeFrame p f s else s

/-- A write of HOST_SLOW_TX_IDX (R133, R158). -/
def writeSlowTx (v : Nat) (s : State) : State := slowTransmit 1024 (setRegF aSlowTxIdx 16 10 (bits v 16 10) s)


/-- SLOW_PATH_TRANSMIT (R133): firmware advances FW_IDX. -/
def execSlowPathTransmit (fwIdx : Fin 1024) (s : State) : Host.Outcome State Fault Refusal := act s (writeSlowTx (fwIdx.val * 65536))

/-- RECEIVED_PAUSE_EXPIRY (R130): the port resumes transmitting. -/
def execReceivedPauseExpiry (p : Fin 2) (s : State) : Host.Outcome State Fault Refusal := act s fun s =>
  if (getPort s p).paused then slowTransmit 1024 (setPort p { getPort s p with paused := false } s) else s

/-! ### TCP (R134, R135) -/

/-- HOST_CTX_STATUS.PEAK follows the contexts in use. -/
def notePeak (s : State) : State := setRegF aCtxStatus 16 11 (max (regF s aCtxStatus 16 11) (ctxUsed s)) s

/-- The MSS a port can take from its MTU (R132). -/
def ownMss (s : State) (p : Nat) (v6 : Bool) : Nat := regF s (aPortCfg p) 0 14 - (if v6 then 60 else 40)

/-- The context that a SYN opens: the smaller MSS of the two ends, a SYN's without the option being RFC 9293's default; the
options that the SYN offers; an initial window of 10 segments (R134). The initial sequence number is left open (log 3). -/
def synCtx (p : Nat) (k : Nat) (disc : Bool) (mac ip port isn iss : Nat) (o : TcpOpts) (s : State) : Ctx :=
  let v6 := regB s (aAddrCtl p k) 1
  let m := max 1 (min (ownMss s p v6) (o.mss.getD (if v6 then 1220 else 536)) - (if o.tsval.isSome then 12 else 0))
  let n := (iss + 1) % 2 ^ 32
  { port := p, entry := k, disc := disc, peerMac := mac, peerIp := ip, peerPort := port,
    ownPort := regF s aHostListen (if disc then 16 else 0) 16, mss := m, cwnd := 10 * m, sndNxt := n, sndUna := n, cwrTo := n,
    sndWnd := o.wnd, rcvNxt := (isn + 1) % 2 ^ 32, wscale := o.wscale.map (min 14), tsRecent := o.tsval, sackOk := o.sackOk, ecn := o.ecn }

/-- Contexts whose connection is half open. -/
def halfOpens (s : State) : Nat := (s.host.ctxs.filter fun e => match e.2 with | some c => c.phase == .halfOpen | none => false).length

/-- SYN (R134, R135): to a listener on an address entry with the matching flag. -/
def execSyn (p : Fin 2) (k : Fin 6) (disc : Bool) (mac ip port isn : Nat) (o : TcpOpts) (s : State) : Host.Outcome State Fault Refusal := act s fun s =>
  let a := aAddrCtl p k
  if !(getPort s p).up || !regB s a 0 || !regB s a (if disc then 3 else 2) || !regB s aHostCtl (if disc then 3 else 2) then s
  else if 1024 ≤ ctxUsed s then
    incReg aCtxRefused (emit (rstFrame s { synCtx p k disc mac ip port isn (2 ^ 32 - 1) o s with tsRecent := none }) s)
  else if 64 ≤ halfOpens s then s
  else
    let i := (findFrom (fun i => (getCtx s i).isNone) 0 1024).getD 0
    let f := fresh s
    let c := synCtx p k disc mac ip port isn f.1 o s
    notePeak (setCtx i (some c) (emit (synAckFrame s { c with sndNxt := f.1 % 2 ^ 32 } (ownMss s p (regB s a 1))) f.2))

/-- Segments sent again. -/
def resendAll (x : Nat) (c : Ctx) (gs : List Seg) (s : State) : State :=
  gs.foldl (fun t g => emit (.resend x g.endSeq g.len (portTag t c.port) (dataHeaders t c g)) t) s

/-- TCP_ACK (R134): the segment that completes the handshake; or an acknowledgement, which frees the staging buffers of
acknowledged read data, opens the windows and recovers losses; and data out of order waits. -/
def execTcpAck (x : Nat) (a : AckSeg) (s : State) : Host.Outcome State Fault Refusal := act s fun s =>
  match getCtx s x with
  | none => s
  | some c =>
    if c.phase = .halfOpen then setCtx x (some { noteHeader a c with phase := .opened }) s
    else
      let r := onAck a (noteHeader a c)
      let s := sendAll x (resendAll x r.1 r.2 (setCtx x (some r.1) s))
      match a.data with | some d => outOfOrder x d s | none => s

/-- The connection is reset: RST, and every command meets its fate (R134, R135, R152). -/
def resetCtx (x : Nat) (s : State) : State :=
  match getCtx s x with
  | none => s
  | some c => endCtx x (emit (rstFrame s c) s)

/-- RETRANSMISSION_TIMEOUT (R134): the oldest segment is resent and the timer doubles, to 4 s; the fifteenth
retransmission has been made when another would be. -/
def execRetransmissionTimeout (x : Nat) (s : State) : Host.Outcome State Fault Refusal := act s fun s =>
  match getCtx s x with
  | none => s
  | some c =>
    match c.segs with
    | [] => s
    | g :: rest =>
      if 15 ≤ g.tries then resetCtx x s
      else
        let clear := fun (h : Seg) => { h with sacked := false, again := false }
        setCtx x (some { c with segs := { clear g with tries := g.tries + 1 } :: rest.map clear, rto := min 4000 (c.rto * 2),
                                ssthresh := halved (flight c) c.mss, cwnd := c.mss, recover := none, dupAcks := 0 })
          (emit (.resend x g.endSeq g.len (portTag s c.port) (dataHeaders s c g)) s)

/-- USER_TIMEOUT (R134): a segment has stayed unacknowledged for 30 s or 15 retransmissions. -/
def execUserTimeout (x : Nat) (s : State) : Host.Outcome State Fault Refusal := act s fun s =>
  match getCtx s x with
  | some c => if c.segs.isEmpty then s else resetCtx x s
  | none => s

/-- DELAYED_ACK (R134): 0.5 ms after data that is not yet acknowledged. -/
def execDelayedAck (x : Nat) (s : State) : Host.Outcome State Fault Refusal := act s fun s =>
  match getCtx s x with
  | some c => if c.unacked = 0 then s else sendAck x c s
  | none => s

/-- TCP_FIN_RST (R152). -/
def execTcpFinRst (x : Nat) (rst : Bool) (s : State) : Host.Outcome State Fault Refusal := act s fun s =>
  match getCtx s x with
  | some c => endCtx x (if rst then s else emit (finFrame s c) s)
  | none => s

/-! ### NVMe/TCP (R136–R141) -/

/-- Fatal error statuses of C2HTermReq (NVMe/TCP Transport Specification 1.0). -/
abbrev fesInvalidHeader : Nat := 1
abbrev fesSequence : Nat := 2
abbrev fesDigest : Nat := 3
abbrev fesOutOfRange : Nat := 4
abbrev fesLimit : Nat := 5
abbrev fesUnsupported : Nat := 6

/-- ICREQ (R137). -/
def execIcreq (x : Nat) (pfv hpda maxR2t : Nat) (hdgst ddgst : Bool) (s : State) : Host.Outcome State Fault Refusal := act s fun s =>
  match getCtx s x with
  | none => s
  | some c =>
    if c.phase != .opened then fatalError x fesSequence s
    else if pfv ≠ 0 ∨ 31 < hpda then fatalError x fesUnsupported s
    else
      let c := { c with phase := .icDone, hpda := hpda, maxR2t := maxR2t, hdgst := hdgst, ddgst := ddgst }
      noteReceived x 128 (emit (.icResp x 131072 hdgst ddgst) (setCtx x (some c) s))

/-- ICREQ_TIMEOUT (R135): no ICReq, or no Connect, within 10 s. -/
def execIcreqTimeout (x : Nat) (s : State) : Host.Outcome State Fault Refusal := act s fun s =>
  match getCtx s x with
  | some c => if c.phase = .opened ∨ c.phase = .icDone then resetCtx x s else s
  | none => s

/-- A header digest error is counted and fatal (R138). -/
def headerDigestError (x : Nat) (c : Ctx) (s : State) : State := fatalError x fesDigest (incReg (aHdgstErr c.port) s)

/-- Any command received on a queue of a controller restarts its keep-alive timer (R153). -/
def restartKa (c : Ctx) (s : State) : State :=
  if c.kind == .unknown then s
  else match getCtrl s c.ctrl with
    | some t => setCtrl c.ctrl (some { t with kaFrom := s.now }) s
    | none => s

/-- The bytes of a PDU: its header of `n` bytes and its data, with the digests in use (R137). -/
def pduBytes (c : Ctx) (n : Nat) (data : List Byte) : Nat :=
  n + 4 * bnat c.hdgst + data.length + (if data.isEmpty then 0 else 4 * bnat c.ddgst)

/-- CAPSULE_CMD (R136, R138, R139, R153): the capsule is buffered until its intake. In-capsule data of a write is all of its
data: another length does not fit. -/
def execCapsuleCmd (x : Nat) (cap : Capsule) (hdrOk dataOk : Bool) (s : State) : Host.Outcome State Fault Refusal := act s fun s =>
  match getCtx s x with
  | none => s
  | some c =>
    if c.phase = .halfOpen ∨ c.phase = .opened then fatalError x fesSequence s
    else if c.hdgst && !hdrOk then headerDigestError x c s
    else if 8192 < cap.data.length || (c.kind == .io && (isWrite cap.opc || isAppend cap.opc) && !cap.data.isEmpty
        && cap.data.length != capNlb cap * blockBytes s.cmd.fmt cap.nsid) then fatalError x fesInvalidHeader s
    else if max 1 c.sqsize ≤ c.capsules.length then fatalError x fesSequence s
    else
      let s := restartKa c (noteReceived x (pduBytes c 72 cap.data) s)
      if c.ddgst && !dataOk && !cap.data.isEmpty then
        emit (.completion x cap.cid stTransient false 0 0) (incReg (aDdgstErr c.port) s)
      else match getCtx s x with
        | some c => setCtx x (some { c with capsules := c.capsules ++ [cap] }) s
        | none => s

/-- Data of a command arrives in full: a write commits, or with a data digest error it is discarded; an admin command that
waited for its data goes on (R139, R146, R171). -/
def dataComplete (c : Cmd) (s : State) : State :=
  if !c.io then
    if c.digestBad then completeNow c stTransient s
    else putCmd { c with phase := .fresh, cap := { c.cap with data := dataBytes c.data 0 (wantBytes s c) } } s
  else if c.digestBad then progress (discard c (some stTransient) s) else commit c (placeBlocks c s)

/-- H2C_DATA (R138–R140, R171): data for an outstanding R2T of a command; each R2T's data comes in order, and none comes
before the queue is connected. Data for an R2T of a command discarded meanwhile is taken and dropped (log 104). -/
def execH2cData (x cid tag off : Nat) (bytes : List Byte) (hdrOk dataOk : Bool) (s : State) : Host.Outcome State Fault Refusal := act s fun s =>
  match getCtx s x with
  | none => s
  | some k =>
    if s.pwr.phase != .running then s
    else if k.phase != .connected then fatalError x fesSequence s
    else if k.hdgst && !hdrOk then headerDigestError x k s
    else if 131072 < bytes.length then fatalError x fesLimit s
    else match s.cmd.cmds.find? fun c => c.ctx == some x && c.cap.cid == cid && c.r2ts.any (fun r => r.tag == tag) with
      | none => if k.stale.contains tag then noteReceived x (pduBytes k 24 bytes) s else fatalError x fesOutOfRange s
      | some c =>
        match c.r2ts.find? fun r => r.tag == tag with
        | none => s
        | some r =>
          if off < r.off ∨ r.off + r.len < off + bytes.length then fatalError x fesOutOfRange s
          else if off ≠ r.off + r.got then fatalError x fesSequence s
          else
            let bad := k.ddgst && !dataOk
            let s := noteReceived x (pduBytes k 24 bytes) (if bad then incReg (aDdgstErr k.port) s else s)
            let r := { r with got := r.got + bytes.length }
            let rs := if r.len ≤ r.got then c.r2ts.filter (fun y => y.tag != tag) else mapIf (fun y => y.tag == tag) (fun _ => r) c.r2ts
            let c := { c with data := (off, bytes) :: c.data, r2ts := rs, digestBad := c.digestBad || bad }
            let s := putCmd c s
            if wantBytes s c ≤ gotBytes c ∧ rs.isEmpty then issueAll (dataComplete c s) else issueAll s

/-- H2C_TERM_REQ (R138). -/
def execH2cTermReq (x : Nat) (s : State) : Host.Outcome State Fault Refusal := act s (endCtx x)

/-- HOST_DATA_TIMEOUT (R141): an R2T's data has not all arrived within 4 s. -/
def execHostDataTimeout (x tag : Nat) (s : State) : Host.Outcome State Fault Refusal := act s fun s =>
  if s.cmd.cmds.any fun c => c.ctx == some x && c.r2ts.any (fun r => r.tag == tag) then endCtx x s else s

/-- A write of HOST_Pp_ADDRk_CTL: clearing VALID ends every connection on the entry (R152, R158). -/
def writeAddrCtl (p k v : Nat) (s : State) : State :=
  let a := aAddrCtl p k
  let was := regB s a 0
  let listed := (regB s a 0, regB s a 2, regB s a 3)
  let longest := if bit v 1 then 128 else 32
  let s := writeFields a [⟨0, 4, .rw, fun _ => true⟩, ⟨8, 8, .rw, fun x => decide (x ≤ longest)⟩] v s
  let s := if was && !bit v 0 then endCtxs (fun _ c => c.port == p && c.entry == k) s else s
  if listed = (bit v 0, bit v 2, bit v 3) then s else discoveryChanged s

/-- ADDRESS_ENTRY_CLEAR (R152, R158). -/
def execAddressEntryClear (p : Fin 2) (k : Fin 6) (s : State) : Host.Outcome State Fault Refusal := act s fun s =>
  writeAddrCtl p k (setBits (reg s (aAddrCtl p k)) 0 1 0) s

end Sys2Proof.Machine
end

