-- ==== Sys2Proof/Machine/Tandem.lean ====
section
/-! DEFINITION. The Tandem link, the power driver at its far end, and the accelerometers (R314, R329–R332, R339). -/

namespace Sys2Proof.Machine

/-! ### Lanes and spindle frames (R330, R339) -/

/-- A write to TDM_CTL (R339): a lane disabled is in electrical idle; a status receiver switched off loses its alignment. -/
def writeTdmCtl (v : Nat) (s : State) : State :=
  let s := writeFields aTdmCtl [⟨0, 1, .rw, fun _ => true⟩, ⟨1, 1, .rw, fun _ => true⟩, ⟨2, 1, .rw, fun _ => true⟩] v s
  if regB s aTdmCtl 2 then s else { s with tls := { s.tls with at_ := none } }

/-- TANDEM_LANE_ENABLE (R339). -/
def execTandemLaneEnable (tl0 tl1 tls : Bool) (s : State) : Host.Outcome State Fault Refusal :=
  actSev s (writeTdmCtl (bnat tl0 + bnat tl1 * 2 + bnat tls * 4))

/-- SPINDLE_FRAME (R330): every 1.0 ms an island sends BAS_SPIN_CMD in a spindle frame. -/
def execSpindleFrame (x : Fin 2) (s : State) : Host.Outcome State Fault Refusal := act s fun s =>
  if !islOn s x then s
  else sendLane x (leBytes 1 (x.val * 4 + 8) ++ leBytes 2 0 ++ leBytes 2 (regF s (aBasSpinCmd x) 0 13 * 8) ++ leBytes 3 0) s

/-! ### The power driver (R331, R332) -/

def getDrv (s : State) (n : Nat) : Driver := smGet (fun _ => {}) s.tdm.drv n
def setDrv (n : Nat) (v : Driver) (s : State) : State :=
  { s with tdm := { s.tdm with drv := smSet (fun _ => {}) s.tdm.drv n v } }

/-- A valid frame arrived on a lane within the last 100 µs. -/
def laneOk (s : State) (x : Nat) : Bool :=
  match smGet (fun _ => none) s.tdm.lastOn x with
  | none => false
  | some t => decide (s.now - t ≤ 100000)

/-- The driver retracts an actuator or holds it on the ramp: RETRACT of the accepted frame, or no frame for 2.0 ms. -/
def retracting (d : Driver) : Bool := d.held || bit ((d.frame.getD 7 0).toNat) 2

/-- A status frame for an actuator is sent on TLS; MISMATCH is told once (R331, R332). -/
def sendStatus (n : Nat) (m : DrvMeas) (s : State) : State :=
  let d := { getDrv s n with parked := m.parked }
  let bs := leBytes 1 (n + d.lane * 4 + bnat d.mismatch * 8 + bnat (laneOk s 0) * 16 + bnat (laneOk s 1) * 32 +
              bnat (retracting d && !m.parked) * 64 + bnat m.parked * 128) ++
            leBytes 2 (fieldN d.frame 1 2) ++ leBytes 2 m.vcmI.val ++ leBytes 2 m.spin.val ++ leBytes 1 m.flags.val
  let s := setDrv n { d with mismatch := false } s
  { s with tdm := { s.tdm with status := s.tdm.status ++ [bs ++ leBytes 2 (crc16 bs).toNat] } }

/-- Bytes 0–7 of a frame with ISL ignored. -/
def withoutIsl (bs : List Byte) : List Byte :=
  match bs.take 8 with
  | [] => []
  | b :: r => (b &&& 0xFB#8) :: r

/-- A valid actuator frame at the driver (R331). -/
def driverTake (lane : Nat) (bs : List Byte) (m : DrvMeas) (s : State) : State :=
  let n := fieldN bs 0 1 % 4
  let d := { getDrv s n with lastAt := s.now }
  let d := if bit (fieldN bs 7 1) 2 then d else { d with held := false }
  if !d.frame.isEmpty && seg d.frame 1 2 == seg bs 1 2 then
    setDrv n { d with mismatch := d.mismatch || withoutIsl d.frame != withoutIsl bs } s
  else sendStatus n m (setDrv n { d with frame := bs.take 8, lane := lane } s)

/-- DRIVER_FRAME (R331): the next frame of a lane reaches the driver. `good` when its framing and code are correct. -/
def execDriverFrame (lane : Fin 2) (good : Bool) (m : DrvMeas) (s : State) : Host.Outcome State Fault Refusal := act s fun s =>
  match takeFirst (fun e => e.1 == lane.val) s.tdm.wire with
  | none => s
  | some ((_, bs), rest) =>
    let s := { s with tdm := { s.tdm with wire := rest } }
    if !good || fieldN bs 8 2 != (crc16 (bs.take 8)).toNat then s
    else
      let s := { s with tdm := { s.tdm with lastOn := smSet (fun _ => none) s.tdm.lastOn lane (some s.now) } }
      if bit (fieldN bs 0 1) 3 then { s with tdm := { s.tdm with spin := fieldN bs 3 2 } } else driverTake lane bs m s

/-- DRIVER_FRAME_TIMEOUT (R331): no valid frame for an actuator for 2.0 ms; it is retracted and held. -/
def execDriverFrameTimeout (n : Fin 4) (s : State) : Host.Outcome State Fault Refusal := .next (keep s (
  setDrv n { getDrv s n with held := true } s))

/-- DRIVER_STATUS_PERIOD (R331): every 1.0 ms a status frame for each actuator, in ascending order. `m` lists what the
driver measures for them. -/
def execDriverStatusPeriod (m : List DrvMeas) (s : State) : Host.Outcome State Fault Refusal := act s fun s =>
  forTo (fun n t => match m[n]? with | some v => sendStatus n v t | none => t) (actCount s) s

/-! ### Status frames (R332, R339, R404, R414) -/

/-- TDM_STATUS.TLS_LOCK. -/
def tlsLock (s : State) : Bool :=
  regB s aTdmCtl 2 && (match s.tls.at_ with | some t => decide (s.now - t ≤ 2000000) | none => false)

/-- TLx_OK of a status frame: three frames in a row without it make a lane fault (R414). -/
def judgeLane (x : Nat) (ok : Bool) (s : State) : State :=
  let put := fun v (t : State) => { t with red := { t.red with tlBad := smSet (fun _ => 0) t.red.tlBad x v } }
  if ok || !islHealthy s x || !regB s aTdmCtl x then put 0 s
  else
    let k := smGet (fun _ => 0) s.red.tlBad x + 1
    let s := put (Nat.min k 3) s
    if k < 3 || faultPresent s 0x10 x || !redActive s then s else redCount 7 (addFault 0x10 x s)

/-- STATUS_FRAME (R332): the next status frame arrives on TLS. `good` when framing, code and CRC are right. The receiver
lies in island B. -/
def execStatusFrame (good : Bool) (s : State) : Host.Outcome State Fault Refusal := actSev s fun s =>
  match s.tdm.status with
  | [] => s
  | bs :: rest =>
    let s := { s with tdm := { s.tdm with status := rest } }
    if !regB s aTdmCtl 2 || islHeld s 1 then s
    else if !good then incReg aTdmTlsErr s
    else
      let b0 := fieldN bs 0 1
      let b7 := fieldN bs 7 1
      let n := b0 % 4
      let s := incReg aTdmTlsFrames { s with tls := { at_ := some s.now, last7 := b7, spin := fieldN bs 5 2 } }
      let s := if actPresent s n then setReg (aTdmDrv n) (fieldN bs 3 2 + bits b0 2 6 * 65536 + bits b7 3 2 * 4194304) s else s
      let s := if bit b0 3 then orderGolden (incReg aTdmMismatch s) else s
      judgeLane 1 (bit b0 5) (judgeLane 0 (bit b0 4) s)

/-! ### The accelerometers (R314) -/

/-- A raw axis scaled to Q6.10 g. -/
def scaleAxis (scale : Nat) (raw : Int) : Int := satI 16 (roundShift (raw * scale) 15)

/-- Six bytes all 0x00 or all 0xFF. -/
def looksFaulty (r : AccRaw) : Bool := (r.x == 0 && r.y == 0 && r.z == 0) || (r.x == -1 && r.y == -1 && r.z == -1)

/-- One accelerometer read: its axes, and after 8 reads in a row of the other kind its fault (R314). -/
def accRead (k : Nat) (r : AccRaw) (s : State) : State :=
  let s := emit (.spiRead k (regB s aAccCfg 2) (regF s aAccCfg 8 8) (regF s aAccCfg 16 8)) s
  let sc := regF s aAccScale (16 * k) 16
  let v := [r.x, r.y, r.z].map (scaleAxis sc)
  let was := bit s.acc.faulty k
  let run := if looksFaulty r == was then 0 else smGet (fun _ => 0) s.acc.runs k + 1
  let flip := decide (8 ≤ run)
  let bad := if flip then !was else was
  let acc := { s.acc with faulty := setBits s.acc.faulty k 1 (bnat bad), runs := smSet (fun _ => 0) s.acc.runs k (if flip then 0 else run) }
  let s := { s with acc := if k = 0 then { acc with s0 := v } else { acc with s1 := v } }
  let s := if flip && bad then incReg aAccFaults s else s
  let x := fun i => unsgn 16 (v.getD i 0)
  setReg (aAccZ k) (x 2 + bnat bad * 65536) (setReg (aAccXY k) (x 0 + x 1 * 65536) s)

/-- ACCELEROMETER_PERIOD (R314, R296): the enabled accelerometers are read, the set is delivered to both islands and to
the shock write-inhibit; a faulty one is no shock input. -/
def execAccelerometerPeriod (r0 r1 : AccRaw) (s : State) : Host.Outcome State Fault Refusal := actAll s fun s =>
  let en := fun k => regB s aAccCfg k
  if !en 0 && !en 1 then s
  else
    let s := if en 0 then accRead 0 r0 s else s
    let s := if en 1 then accRead 1 r1 s else s
    let s := setReg aAccSeq (reg s aAccSeq + 1) s
    let body := leBytes 4 (reg s aAccSeq) ++ (s.acc.s0 ++ s.acc.s1).flatMap (fun v => leBytes 2 (unsgn 16 v)) ++ leBytes 1 s.acc.faulty
    let s := shockCfg (if capEnabled s 0 then servoItem 2 0 0 {} body s else s)
    let s := if en 0 && !bit s.acc.faulty 0 then shockSample 0 s.acc.s0 s else s
    if en 1 && !bit s.acc.faulty 1 then shockSample 1 s.acc.s1 s else s

end Sys2Proof.Machine
end

