-- ==== Sys2Proof/Machine/Redundancy.lean ====
section
/-! DEFINITION. The redundancy logic's commands: island faults, cross-link comparison, golden checks, declaration and
rejoin, lane faults and decoder retirement (R398–R407, R414, R415). -/

namespace Sys2Proof.Machine

/-- An island's clock runs again: its registers show what they hold (R23). -/
def islClockBack (x : Nat) (s : State) : State := if islClock s x then setCrossed x none s else s

/-- ISLAND_RAIL_FAULT (R52, R414): the monitor of an island's rail trips, or reads good again. -/
def execIslandRailFault (x : Fin 2) (good : Bool) (s : State) : Host.Outcome State Fault Refusal := actSev s fun s =>
  let s := { s with pwr := if x = 0 then { s.pwr with islAOk := good } else { s.pwr with islBOk := good } }
  if good then islClockBack x s else failIsland x 1 (stopIslClock x s)

/-- ISLAND_CLOCK_FAULT (R414): CLK_SPIN of an island has left 400–464 MHz for 1 µs or has stopped, or is in range again. -/
def execIslandClockFault (x : Fin 2) (good stopped : Bool) (s : State) : Host.Outcome State Fault Refusal := actSev s fun s =>
  let s := setIsl x { getIsl s x with clockBad := !good, clockStopped := !good && stopped } s
  if good then islClockBack x s else failIsland x 2 (if stopped then stopIslClock x s else s)

/-- CROSSLINK_FRAME (R404, R405): the peer's latest frame of an actuator reaches island x, which compares it with its own
of the same SEQ; MISSED frames are not compared. A difference orders golden checks, or aborts a rejoin in shadow. -/
def execCrosslinkFrame (x : Fin 2) (n : Fin 4) (s : State) : Host.Outcome State Fault Refusal := actSev s fun s =>
  let k := 4 * (1 - x.val) + n.val
  let f := smGet (fun _ => []) s.red.sent k
  let own := (getAct s x n).frame
  if !s.red.xlinkUp || f.isEmpty || seg f 1 2 != seg own 1 2 then s
  else
    let s := { s with red := { s.red with sent := smSet (fun _ => []) s.red.sent k [] } }
    if bit (fieldN f 0 1) 7 || bit (fieldN own 0 1) 7 || withoutIsl f == withoutIsl own then s
    else if islHealthy s x then orderGolden s
    else if (getIsl s x).st = 4 ∧ (getIsl s x).step = 2 then abortRejoin x s
    else s

/-- GOLDEN_CHECK_DONE (R404). -/
def execGoldenCheckDone (x : Fin 2) (pass : Bool) (s : State) : Host.Outcome State Fault Refusal := actSev s (goldenEnd x pass)

/-- PERIODIC_GOLDEN_CHECK (R415): every 1 s a HEALTHY island runs a golden check. -/
def execPeriodicGoldenCheck (x : Fin 2) (s : State) : Host.Outcome State Fault Refusal := act s fun s =>
  if islHealthy s x then setIsl x { getIsl s x with golden := true } s else s

/-- FAIL_x (R402): refused when the other island is not HEALTHY or the island named is OFF. -/
def declareFail (x v : Nat) (s : State) : State :=
  if (getIsl s x).st = 0 ∨ !islHealthy s (1 - x) then faultEvent 6 x 4 (record srcRed 0x41 [v] s) else failIsland x 6 s

/-- An island leaves FAILED or LOCKED_OUT for RESETTING; its block reset is released (R405). -/
def toResetting (x : Nat) (s : State) : State :=
  if islHeld s x then setIsl x { getIsl s x with st := 3, step := 0 } s else s

/-- A write to RED_ISL_CMD (R402, R405, R419): the bits act and read 0. -/
def writeIslCmd (v : Nat) (s : State) : State :=
  let s := if bit v 0 then declareFail 0 v s else s
  let s := if bit v 1 then declareFail 1 v s else s
  let s := if bit v 2 then toResetting 0 s else s
  if bit v 3 then toResetting 1 s else s

/-- FAIL_ISLAND (R402). -/
def execFailIsland (x : Fin 2) (s : State) : Host.Outcome State Fault Refusal := actSev s (writeIslCmd (2 ^ x.val))

/-- REJOIN_ISLAND (R405). -/
def execRejoinIsland (x : Fin 2) (s : State) : Host.Outcome State Fault Refusal := actSev s (writeIslCmd (4 * 2 ^ x.val))

/-- The cause of an island's fault has gone (R405); a declared island waits for REJOIN_x (R414, DEDUCED, log 43). -/
def causeGone (s : State) (x : Nat) : Bool :=
  match (getIsl s x).code with
  | 1 => railOk s x
  | 2 => !(getIsl s x).clockBad
  | 6 => false
  | _ => true

/-- AUTO_REJOIN (R405): the rail has been good for 10 ms, the clock in range for 1 ms, or the cause is of another kind. -/
def execAutoRejoin (x : Fin 2) (s : State) : Host.Outcome State Fault Refusal := actSev s fun s =>
  if redActive s && (getIsl s x).st == 2 && regB s aRedCfg 12 && causeGone s x then toResetting x s else s

/-- REJOINING (R405, R407): an island in RESETTING whose PLL is locked, with the cross-link up and a HEALTHY peer. -/
def execRejoining (x : Fin 2) (s : State) : Host.Outcome State Fault Refusal := actSev s fun s =>
  let i := getIsl s x
  if redActive s && i.st == 3 && railOk s x && !i.clockBad && s.red.xlinkUp && islHealthy s (1 - x.val) then
    setIsl x { i with st := 4, step := 1 } s
  else s

/-- The peer's registers, coefficient memory and loop states copied into an island (R405). -/
def copyIsland (x : Nat) (s : State) : State :=
  let y := 1 - x
  let s := resetIsland x s
  let own := s.regs.filter fun e => decide (basBase y ≤ e.1) && decide (e.1 < basBase y + 0x8000)
  let s := own.foldl (fun t e => setReg (e.1 - basBase y + basBase x) e.2.toNat t) s
  setBas x { getBas s y with acts := (getBas s y).acts.map fun e => (e.1, { e.2 with late := none }) } s

/-- REJOIN_COPY_DONE (R405): the copies are complete and the shadow begins. -/
def execRejoinCopyDone (x : Fin 2) (s : State) : Host.Outcome State Fault Refusal := act s fun s =>
  let i := getIsl s x
  if i.st = 4 ∧ i.step = 1 then
    let revs := (List.range 4).map fun n => (getAct s (1 - x) n).rev
    copyIsland x (setIsl x { i with step := 2, revs := revs } s)
  else s

/-- Every actuator that the island serves has made REJOIN_REVS revolutions in its shadow (R405). -/
def shadowDone (s : State) (x : Nat) : Bool := (List.range 4).all fun n =>
  !serves s x n || decide ((getIsl s x).revs.getD n 0 + regF s aRedCfg 16 4 ≤ (getAct s x n).rev)

/-- SHADOW_COMPLETE (R405): REJOIN_REVS revolutions without a difference. -/
def execShadowComplete (x : Fin 2) (s : State) : Host.Outcome State Fault Refusal := actSev s fun s =>
  let i := getIsl s x
  if redActive s && i.st == 4 && i.step == 2 && shadowDone s x then redCount 2 (makeHealthy x s) else s

/-- CROSSLINK_DOWN (R407): nothing for 10 µs, while neither island is OFF or held in reset. A rejoin aborts (R405). -/
def execCrosslinkDown (s : State) : Host.Outcome State Fault Refusal := actSev s fun s =>
  if !redActive s || !s.red.xlinkUp || (List.range 2).any (fun x => (getIsl s x).st == 0 || islHeld s x) then s
  else
    let s := redCount 6 (addFault 0x12 0 { s with red := { s.red with xlinkUp := false, sent := [] } })
    abortRejoin 1 (abortRejoin 0 s)

/-- CROSSLINK_FAILBACK (R407): 100 ms of continuous operation. -/
def execCrosslinkFailback (s : State) : Host.Outcome State Fault Refusal := actSev s fun s =>
  clearFault 0x12 0 { s with red := { s.red with xlinkUp := true } }

/-- TANDEM_LANE_FAILBACK (R414): TLx_OK has read 1 in every status frame for 1 s. -/
def execTandemLaneFailback (x : Fin 2) (s : State) : Host.Outcome State Fault Refusal := actSev s fun s =>
  if smGet (fun _ => 0) s.red.tlBad x = 0 then clearFault 0x10 x s else s

/-- STATUS_LANE_FAULT (R414): TLS_LOCK reads 0 while TLS_EN is 1 and island B is HEALTHY. -/
def execStatusLaneFault (s : State) : Host.Outcome State Fault Refusal := actSev s fun s =>
  if redActive s && regB s aTdmCtl 2 && islHealthy s 1 && !tlsLock s then addFault 0x11 2 s else s

/-- STATUS_LANE_FAILBACK (R414): TLS_LOCK has read 1 for 1 s. -/
def execStatusLaneFailback (s : State) : Host.Outcome State Fault Refusal := actSev s fun s =>
  if tlsLock s then clearFault 0x11 2 s else s

/-- DECODER_GOLDEN_DECODE (R415): a free decoder decodes the fixed codeword, while RT_RESERVE + 1 decoders are free; two
failures in a row retire it. -/
def execDecoderGoldenDecode (k : Fin 12) (pass : Bool) (s : State) : Host.Outcome State Fault Refusal := actSev s fun s =>
  if !regB s aRedCfg 13 || !(freeDecs s).contains k.val || (freeDecs s).length < rtReserve s + 1 then s
  else
    let put := fun v (t : State) => { t with red := { t.red with decFails := smSet (fun _ => 0) t.red.decFails k v } }
    if pass then put 0 s
    else
      let f := smGet (fun _ => 0) s.red.decFails k + 1
      let s := redCount 11 (put (f % 2) s)
      if f < 2 || !redActive s then s
      else faultEvent 0x40 k 2 <| faultEvent 0x40 k 1 { s with red := { s.red with decRetired := setBits s.red.decRetired k 1 1 } }

end Sys2Proof.Machine
end

