-- ==== Sys2Proof/Machine/Capture.lean ====
section
/-! DEFINITION. The capture streams' control and freezing, and lane and servo replay (R438–R448). -/

namespace Sys2Proof.Machine

/-! ### Streams (R438, R441, R447) -/

/-- Log 0xC4's GENERATION: raised at each change of what the log shows (DESIGN CHOICE, log 48). -/
def capChanged (s : State) : State := { s with cap := { s.cap with generation := s.cap.generation + 1 } }

/-- The coefficient images of both islands for every actuator captured, as stream 0 starts or runs again (R439). -/
def capImages (k : Nat) (s : State) : State :=
  if k ≠ 0 then s
  else forTo (fun n t => if capAct t 0 n && actPresent t n then cmImage 1 n (cmImage 0 n t) else t) 4 s

/-- A write to CAPk_CTL: EN from 0 to 1 restarts CAPk_WR at 0; REARM ends a freeze (R441, R447). -/
def writeCapCtl (k v : Nat) (s : State) : State :=
  let was := capEnabled s k
  let s := setReg (aCapCtl k) (bits v 0 1 + bits v 4 4 * 16) s
  let s := if was || !bit v 0 then s else capImages k (capChanged (setStream k {} (setWide (aCapWrLo k) 0 s)))
  let st := getStream s k
  if bit v 1 && (st.frozen || st.freezing) then
    capImages k (capChanged (setStream k { st with frozen := false, freezing := false, left := 0, trigger := 0 } s))
  else s

/-- CAPTURE_ENABLE. -/
def execCaptureEnable (k : Fin 4) (acts : Fin 16) (s : State) : Host.Outcome State Fault Refusal := act s fun s =>
  writeCapCtl k (1 + acts * 16) s

/-- REARM. -/
def execRearm (k : Fin 4) (s : State) : Host.Outcome State Fault Refusal := act s fun s =>
  writeCapCtl k (setBits (reg s (aCapCtl k)) 1 1 1) s

/-- A write to CAP_TRIG; FIRE triggers (R441). -/
def writeCapTrig (v : Nat) (s : State) : State :=
  let s := writeFields aCapTrig [{ lo := 0, len := 7 }, { lo := 8, len := 8, legal := fun x => decide (x ≤ 100) }] v s
  if bit v 16 then trigger 7 s else s

/-- FIRE. -/
def execFire (s : State) : Host.Outcome State Fault Refusal := act s fun s =>
  writeCapTrig (setBits (reg s aCapTrig) 16 1 1) s

/-- CAPTURE_FROZEN: the stream's span has run out; the record is made once every enabled stream is frozen (R441). -/
def execCaptureFrozen (k : Fin 4) (s : State) : Host.Outcome State Fault Refusal := act s fun s =>
  let st := getStream s k
  if !(capEnabled s k && st.freezing && decide (st.left = 0)) then s
  else
    let s := capChanged (setStream k { st with frozen := true, freezing := false } s)
    if (List.range 4).all fun j => !capEnabled s j || (getStream s j).frozen then
      record srcStrata 0xC3 [] { s with cap := { s.cap with freezes := satAdd 32 s.cap.freezes 1 } }
    else s

/-- BRANCH_SYNC_ITEM: every sequencer's sync item (R439). -/
def execBranchSyncItem (s : State) : Host.Outcome State Fault Refusal := act s fun s =>
  forTo (fun n t => if actPresent t n then captureItem 2 (leBytes 8 (7 + n * 8 + t.now / 32 * 32)) t else t) 4 s

/-! ### The end of a replay (R447) -/

/-- RPL_STATUS. -/
def rplStatus (s : State) : Nat := s.cap.rplState + s.cap.rplResult * 16 + s.cap.rplDone * 65536

/-- A replay is DONE, with its record. -/
def rplFinish (result : Nat) (s : State) : State :=
  let s := { s with cap := { s.cap with rplState := 2, rplResult := result, rpl := none, rplDue := none, rplStopped := false } }
  record srcStrata 0xC4 [rplStatus s, reg s aRplMismatch] (capChanged s)

/-- The DRAM offset of output item `i`. -/
def rplOutOff (s : State) : Nat := reg s aRplOut * 64 + 32 * s.cap.rplDone

/-- An output item written; one with a MATCH bit 0 is a mismatch (R443, R444, R447). -/
def rplItem (bytes : List Byte) (allMatch : Bool) (s : State) : State :=
  let s := dramWrite (rplOutOff s) (padTo 32 bytes) s
  let s := if allMatch then s else incReg aRplMismatch s
  { s with cap := { s.cap with rplDone := s.cap.rplDone + 1 } }

/-! ### Lane replay (R443) -/

/-- The DRAM offset of the entry that replay takes next. -/
def rplEntryOff (s : State) : Nat := reg s aRplSrc * 64 + 262144 * s.cap.rplDone

/-- A position record of an entry (R440). -/
def readPos (b : List Byte) : PosRec :=
  let w := fieldN b 0 4
  { isl := bits w 24 1, wedge := bits w 0 10, mark := bits w 10 2, trk := bit w 12, pes := bits w 16 8, mode := bits w 13 3,
    wper := fieldN b 4 4, tb := fieldN b 8 8 }

/-- The position records of an entry: those with a time. -/
def readPoss (h : List Byte) : List PosRec :=
  ((List.range 8).map fun i => readPos (seg h (0x180 + 16 * i) 16)).filter fun r => r.tb != 0

/-- Records that follow one another about one wedge. -/
def groupWedges : List PosRec → List (List PosRec)
  | [] => []
  | r :: rs => match groupWedges rs with
    | [] => [[r]]
    | g :: gs => if (g.head?.map (·.wedge)) == some r.wedge then (r :: g) :: gs else [r] :: g :: gs

/-- The samples of an area with its bitmap of erased ones (R265). -/
def readSamples (bs es : List Byte) : List (Option Int) :=
  bs.zipIdx.map fun p => if bit ((es.getD (p.2 / 8) 0).toNat) (p.2 % 8) then none else some (sgn 8 p.1.toNat)

/-- Why an entry cannot be replayed: unreadable, not a SECTOR entry, out of range, or of another revision (R447). -/
def entryBad (s : State) (off : Nat) (h : List Byte) : Bool :=
  decide (dramUsable s < off + 262144) || poisoned s off 4096 || fieldN h 0 1 != 0x10 || fieldN h 0x110 1 == 0
    || decide (3 < fieldN h 0x110 1) || decide (704 < fieldN h 6 2) || fieldN h 0x130 1 != bits (sysId s) 0 8
    || !psetGood (seg h 0x48 192) || (decide (2 ≤ fieldN h 0x110 1) && !wsetGood (seg h 0x48 192) (seg h 0x200 64))

/-- An entry read from DRAM (R265, R440). -/
def readEntry (s : State) (off : Nat) (h : List Byte) : RplEntry :=
  let k := fieldN h 0x110 1
  let ctl := fieldN h 0x124 4
  let wset := seg h 0x200 64
  let ns := 128 * fieldN h 6 2
  let span := (groupWedges (readPoss h)).map (wedgeOf ctl (wsWin wset))
  let cw := dramBytes s (off + 0x32800) 4608
  let sec : Sector :=
    { slot := 0, psn := 0, parity := false, ra := false, group := 0, data := 0, expect := fieldN h 8 8, wedge := 0,
      frags := ((List.range 4).map fun j => (0, fieldN h (0x20 + 2 * j) 2)).filter fun f => f.2 != 0,
      a := readSamples (dramBytes s (off + 0x1000) ns) (dramBytes s (off + 0x2D000) 0x2C00),
      b := readSamples (dramBytes s (off + 0x17000) ns) (dramBytes s (off + 0x2FC00) 0x2C00),
      hasA := bit (fieldN h 0x44 1) 0, hasB := bit (fieldN h 0x44 1) 1, span := span,
      starts := (List.range 4).map fun j => (Config.fragStart h j, Config.fragStart h j),
      front := intsFront (Config.frontOf (seg h 0x140 64)),
      enc := if k = 1 then [] else cw.take 4128 }
  { verify := decide (2 ≤ k), kind := k, capSeq := fieldN h 0x108 8, forced := bit (fieldN h 0x111 1) 0,
    pi := bit (fieldN h 0x111 1) 1, ctl := ctl, iterDef := fieldN h 0x131 1 % 64, pset := seg h 0x48 192, wset := wset, cw := cw,
    liveC := (List.range 3).map fun i => (fieldN h (0x118 + 4 * i) 2, fieldN h (0x11A + 4 * i) 1),
    liveIts := fieldN h 0x112 2, liveErr := fieldN h 0x114 4, pos := span.all (·.inn), sec := sec }

def setRpl (r : Option RplEntry) (s : State) : State := { s with cap := { s.cap with rpl := r } }

/-- The next entry is taken up; a replay whose count is reached, that has been stopped, or whose entry is malformed waits
for its end (R443, R447). -/
def rplNext (s : State) : State :=
  let due := fun (k : Nat) => { s with cap := { s.cap with rpl := none, rplDue := some k } }
  if s.cap.rplStopped then due 5
  else if s.cap.rplCount ≤ s.cap.rplDone then due (if reg s aRplMismatch = 0 then 0 else 1)
  else
    let off := rplEntryOff s
    let h := dramBytes s off 0x240
    let s := noteRead off 262144 s
    if entryBad s off h then due 3 else setRpl (some (readEntry s off h)) s

/-- A request of a replay for a decoder (R258). -/
def rplJob (i limit : Nat) (s : State) : State :=
  addJob { lane := s.cap.rplUnit, cls := 3, target := .replay i, key := i, limit := limit } s

/-- The CRC of a decoded codeword. -/
def cwCrc (info : List Byte) : Nat := (crc64xz (codeword info)).toNat

/-- MATCH bits 0–3 (R443): outcome, iterations, codeword, ERR. For a failed read the live run left no codeword; of a
verify capture the codeword matches with its class (DESIGN CHOICE, log 48). -/
def rplMatch (r : RplEntry) (out its err : Nat) (cands : List Cand) : Nat :=
  let ended := fun (f : Nat × Nat → Cand → Bool) => (List.zip r.liveC cands).all fun p => p.1.2 == 0 || f p.1 p.2
  if r.verify then
    let same := out == r.kind
    bnat (same || r.forced) + bnat (its == r.liveIts || r.forced) * 2 + bnat (same || r.forced) * 4
      + bnat (err == r.liveErr || r.forced) * 8
  else
    let same := if r.forced then ended fun p c => p.2 == c.fin else out == 1
    bnat same + bnat (ended fun p c => p.1 == c.iters) * 2 + bnat same * 4 + 8

/-- An entry's replay has ended: its output item, and the next entry. Outcomes are coded as CKIND is, and 0 for a read
that is confirmed (DESIGN CHOICE, log 48). Its iterations are those of the decodes that ended, which preemption does not change
(R256, R257). -/
def rplEntryDone (r : RplEntry) (out rank err : Nat) (info : List Byte) (s : State) : State :=
  let m := rplMatch r out r.runs err r.sec.cands
  let item := leBytes 8 r.capSeq ++ leBytes 1 out ++ leBytes 1 rank ++ leBytes 2 r.runs ++ leBytes 4 err
    ++ leBytes 8 (if info.isEmpty then 0 else cwCrc info) ++ leBytes 1 m
  rplNext (rplItem item (m == 15) (incWideBy (aGarnetIter 3) r.iters s))

/-- The candidates of a replayed step of R266. -/
def rplCands (r : RplEntry) (step : Nat) : List Cand :=
  let cs := r.sec.cands.map fun c => { offs := c.offs, dist := c.dist, timed := c.timed : Cand }
  match step with
  | 2 => cs
  | 3 => if r.sec.hasA then cs else []
  | 4 => if r.sec.hasB then cs else []
  | _ => []

/-- The next deferred decode of a replay: after both readers and each alone, the new search is awaited; after its
candidates the entry has failed (R266, R443). -/
def rplDefNext (r : RplEntry) (s : State) : State :=
  let go := fun (step : Nat) (c : Cand) (cs : List Cand) =>
    rplJob 0 r.iterDef (setRpl (some { r with step := step, cur := some c, todo := cs }) s)
  match r.todo with
  | c :: cs => go r.step c cs
  | [] =>
    if r.step = 6 then rplEntryDone r 1 0 0 [] s
    else match ([2, 3, 4].filter fun k => decide (r.step < k) && !(rplCands r k).isEmpty) with
      | k :: _ => (match rplCands r k with | c :: cs => go k c cs | [] => s)
      | [] => setRpl (some { r with step := 5, cur := none }) s

/-- The on-the-fly attempt of a replay has failed. -/
def rplOtfFail (r : RplEntry) (s : State) : State :=
  if s.cap.rplDefer then rplDefNext r s else rplEntryDone r 1 0 0 [] s

/-- The sync search of a replay has ended (R246–R249, R266, R443). -/
def rplSync (dists : List (List Nat)) (s : State) : State :=
  match s.cap.rpl with
  | none => s
  | some r =>
    let win := setWin r.pset
    if r.step = 0 then
      if r.verify then
        rplJob 0 (wsItMax r.wset) (setRpl (some { r with step := 1, sec := { r.sec with cands := [verifyCand r.pset dists] } }) s)
      else
        let cs := formCands win (setThr r.pset) (setCand r.pset) (bit r.ctl 2) dists
        let r := { r with step := 1, sec := { r.sec with cands := cs } }
        let s := setRpl (some r) s
        if cs.isEmpty then rplOtfFail r s
        else (List.range cs.length).foldl (fun t i => rplJob i (setIterMax r.pset) t) s
    else if r.step = 5 then
      let cs := formCands 15 (setThr r.pset + 4) 3 true dists
      rplDefNext { r with step := 6, todo := cs } s
    else s

/-- The path of a replayed decode: the verify reader's, or that of its step of R266. -/
def rplPath (r : RplEntry) : EqPath :=
  if r.verify then .verify else match r.step with | 3 => .onlyA | 4 => .onlyB | _ => .both

/-- The sector of a replay as its step takes it: the deferred steps start from the set's seeds (R266, R443). -/
def rplSector (r : RplEntry) : Sector := if r.step ≤ 1 then r.sec else { r.sec with front := seedFront r.pset }

/-- The sync search of a replay on the entry's samples. -/
def rplSearch (s : State) : State :=
  match s.cap.rpl with
  | none => s
  | some r => rplSync (sectorDistances r.pset r.wset (rplPath r) (if r.step = 0 then setWin r.pset else 15) (rplSector r)) s

/-- The values and LLRs of a replayed decode's present pass. -/
def rplLlr (i : Nat) (ext : List Int) (s : State) : List (Option Int) × List Int :=
  match s.cap.rpl with
  | none => ([], [])
  | some r =>
    let offs := if r.step ≤ 1 then (r.sec.cands[i]?.map (·.offs)).getD [] else (r.cur.map (·.offs)).getD []
    let x := rplSector r
    let z := codeValues (rplPath r) r.wset x (valuesOf r.pset r.wset (rplPath r) x) offs
    (z, softBits r.pset z ext)

/-- Where a replayed candidate stands; condition 4 is that of the entry's records. -/
def rplStanding (r : RplEntry) (c : Cand) : Standing :=
  if c.stopped then .out 0
  else if c.fin = 0 then .open_
  else if c.fin = 2 ∨ deaf r.sec then .out 1
  else if infoTag c.info ≠ r.sec.expect then .out 2
  else if !infoGuard r.pi false c.info then .out 3
  else if r.pos then .ok else .out 4

/-- The best-ranked candidate of a replay that meets the conditions, once every better one has ended (R253). -/
def rplJudgeFrom (r : RplEntry) : List Cand → Nat → Judged
  | [], _ => .fail
  | c :: cs, i => match rplStanding r c with
    | .ok => .confirm i
    | .open_ => .pending
    | .out _ => rplJudgeFrom r cs (i + 1)

/-- A decode request of the replay for a candidate that a test picks. -/
def rplMine (p : Nat → Bool) (j : Job) : Bool := match j.target with | .replay i => p i | _ => false

/-- Candidates ranked below one that meets every condition stop (R253). -/
def rplStopWorse (r : RplEntry) (s : State) : RplEntry × State :=
  match r.sec.cands.findIdx? fun c => rplStanding r c == .ok with
  | none => (r, s)
  | some b =>
    let mine := rplMine fun i => decide (b < i)
    let more := (s.chan.jobs.filter mine).foldl (fun k j => k + j.iters) 0
    let cs := r.sec.cands.zipIdx.map fun p => if b < p.2 ∧ p.1.running then { p.1 with stopped := true } else p.1
    ({ r with iters := r.iters + more, sec := { r.sec with cands := cs } }, dropJobs mine s)

/-- The on-the-fly attempt of a replay judged. For an entry whose live outcome was forced by the sample memory every
candidate runs to its end (R443). -/
def rplJudge (r : RplEntry) (s : State) : State :=
  if r.forced && r.sec.cands.any (·.running) then setRpl (some r) s
  else
    let p := rplStopWorse r s
    match rplJudgeFrom p.1 p.1.sec.cands 0 with
    | .pending => setRpl (some p.1) p.2
    | .confirm i => rplEntryDone p.1 0 (i + 1) 0 ((p.1.sec.cands[i]?.map (·.info)).getD []) p.2
    | .fail => rplOtfFail p.1 p.2

/-- A replay's decode has ended (R443): its last run's iterations, and those it spent in runs that were preempted. -/
def rplDecoded (i : Nat) (zero : Bool) (info : List Byte) (its spent err : Nat) (s : State) : State :=
  match s.cap.rpl with
  | none => s
  | some r =>
    let r := { r with iters := r.iters + its + spent, runs := r.runs + its }
    let fin := if zero then 1 else 2
    if r.step = 1 then
      if r.verify then rplEntryDone r (verifyClass r.wset r.sec zero info its err) 0 err (if zero then info else []) s
      else
        let cs := r.sec.cands.zipIdx.map fun p => if p.2 = i then { p.1 with iters := its, fin := fin, info := info } else p.1
        rplJudge { r with sec := { r.sec with cands := cs } } s
    else match r.cur with
      | none => setRpl (some r) s
      | some c =>
        if rplStanding r { c with fin := fin, info := info } == .ok then rplEntryDone r 0 0 0 info s else rplDefNext r s

/-! ### Servo replay (R444) -/

/-- The slot may be replayed: PARKED or not served in both islands, and ACT_EN 0 in the island, which is HEALTHY. -/
def servoIdle (s : State) (x n : Nat) : Bool :=
  islHealthy s x && !regB s (aBasCtl x) (4 + n)
    && [0, 1].all fun y => !serves s y n || (getAct s y n).mode == 0

/-- What a servo replay has in hand: the bytes of the checkpoint it starts from; the slot's state, once its first wedge is reached;
the accelerometer sets by ACC_SEQ; the other actuators' latest VCM demands; and the number of the last wedge. -/
structure ServoRun where
  part : List Byte := []
  a : Option ActSt := none
  sets : SMap (List Byte) := []
  us : SMap Int := []
  prev : Option Nat := none

/-- What a wedge item shows of its wedge, in place of the demodulator (R439, R444). -/
def itemObs (b : List Byte) : WedgeObs :=
  let v := fieldN b 41 1
  let t := fieldN b 32 4
  let w := fieldN b 36 2
  let reader := fun (k : Nat) => ({
    absent := bit v (6 + k), sam := bit v k, wedge := if bit w 10 then none else some (bits w 0 10),
    track := if bit t 23 then none else some (bits t 0 22), rro := if bit v 4 then some (sgn 16 (fieldN b 38 2)) else none,
    enough := bit v (2 + k), n := sgn 32 (fieldN b (16 + 8 * k) 4), q := sgn 32 (fieldN b (20 + 8 * k) 4) } : Reader)
  { a := reader 0, b := reader 1, samTime := fieldN b 8 8 / 10 * 256 + fieldN b 40 1, hsw := bit v 5, inBurst := false }

/-- The demodulated wedge of a wedge item, with the state before it (R305–R307, R444). -/
def itemDemod (h : Nat → Nat) (b : List Byte) (a : ActSt) : Demod :=
  let o := itemObs b
  let v := fieldN b 41 1
  if !bit (fieldN b 42 1) 5 then {}
  else
    let r := obsReader o
    let rro := r.rro.getD 0 * 512
    { found := true, rroBad := r.rro.isNone, fromB := bit (fieldN b 32 4) 22, okA := bit v 2, okB := bit v 3,
      y := headPos h (a.y + a.vh + rro) rro (bit v 2) (bit v 3) r.track o }

/-- The rv input of the accelerometer set that a wedge item names; none where the run does not hold it. -/
def itemRv (s : State) (r : ServoRun) (b : List Byte) (w : Bank) : Option Int :=
  let e := smGet (fun _ => []) r.sets (fieldN b 43 4)
  let axis := fun (i : Nat) => sgn 16 (fieldN e (4 + 2 * i) 2)
  if e.isEmpty then none else rvOf (reg s aAccCfg) (fieldN e 16 1) ((List.range 3).map axis) ((List.range 3).map fun i => axis (3 + i)) w

/-- A wedge of the slot computed from its item (R444). -/
def itemWedge (s : State) (x n : Nat) (r : ServoRun) (b : List Byte) : ActSt :=
  let a := r.a.getD ((checkpointOf r.part).getD {})
  let h := headEntry s x n
  let p := wedgeBegin (basWedges s x) (spinRate s x) (itemObs b) (itemDemod h b a) a
  let i : WedgeIn := { wn := fieldN b 2 2, y := p.2, coast := p.2.isNone, hsw := bit (fieldN b 41 1) 5, rv := itemRv s r b,
                       us := ((List.range 4).filter (· != n)).map fun j => (j, smGet (fun _ => 0) r.us j), bias := biasOf s x n }
  (compute (fun k => bankWord s x n k) i p.1).1

/-- The output item of a wedge: what was computed, and where it agrees with the wedge item (R444). -/
def servoOutput (b : List Byte) (a : ActSt) : List Byte × Nat :=
  let v := unsgn 16 (toQ15 a.uv)
  let m := unsgn 16 (toQ15 a.um)
  let ok := bnat (bits (fieldN b 42 1) 0 3 == a.mode) + bnat (fieldN b 47 2 == v) * 2 + bnat (fieldN b 49 2 == m) * 4
    + bnat (bit (fieldN b 42 1) 4 == decide (0 < a.coast)) * 8
  (leBytes 4 (fieldN b 4 4) ++ leBytes 2 (fieldN b 2 2) ++ leBytes 1 a.mode ++ leBytes 1 ok ++ leBytes 2 v ++ leBytes 2 m, ok)

/-- An item that is no wedge of the slot: a command to be applied at its wedge, a coefficient word, a part of the checkpoint, an
accelerometer set, or another actuator's wedge. -/
def servoTake (x n : Nat) (b : List Byte) (r : ServoRun) (s : State) : ServoRun × State :=
  let unit := fieldN b 1 1
  match fieldN b 0 1 with
  | 1 => if unit % 4 = x then ({ r with us := smSet (fun _ => 0) r.us (unit / 4) (sgn 16 (fieldN b 47 2) * 512) }, s) else (r, s)
  | 2 => ({ r with sets := smSet (fun _ => []) r.sets (fieldN b 16 4) (seg b 16 17) }, s)
  | 3 =>
    if unit ≠ x + n * 4 then (r, s)
    else
      let c : ActCmd := { cmd := fieldN b 16 4, tgt := fieldN b 20 4, ofs := fieldN b 24 4, man := fieldN b 28 4,
                          due := some (fieldN b 32 2), late := false }
      ({ r with a := some { r.a.getD ((checkpointOf r.part).getD {}) with armed := some c } }, s)
  | 4 => if unit = x + n * 4 ∧ r.prev.isNone ∧ r.a.isNone then ({ r with part := r.part ++ seg b 16 48 }, s) else (r, s)
  | 5 => if unit = x + n * 4 then (r, setCm x (fieldN b 16 4) (fieldN b 20 4) s) else (r, s)
  | _ => (r, s)

/-- The wedges of a linear run of SERVO items, from a DRAM offset: each wedge item of the slot gives an output item. Answers the
result that ends the run, if the items do. -/
def servoRun (x n : Nat) : Nat → Nat → Nat → ServoRun → State → Option Nat × State
  | 0, _, _, _, s => (none, s)
  | fuel + 1, off, left, r, s =>
    if left = 0 then (none, s)
    else
      let b := dramBytes s off 64
      let s := noteRead off 64 s
      let ty := fieldN b 0 1
      let w := fieldN b 2 2
      let wedges := basWedges s x
      if dramUsable s < off + 64 ∨ poisoned s off 64 ∨ ty = 0 ∨ 6 < ty then (some 3, s)
      else if ty ≠ 1 ∨ fieldN b 1 1 ≠ x + n * 4 then
        let p := servoTake x n b r s
        servoRun x n fuel (off + 64) left p.1 p.2
      else if r.prev.isSome && r.prev != some ((w + wedges - 1) % max 1 wedges) then (some 4, s)
      else
        let a := itemWedge s x n r b
        let o := servoOutput b a
        servoRun x n fuel (off + 64) (left - 1) { r with a := some a, prev := some w } (rplItem o.1 (o.2 == 15) s)

/-- The replay's input starts with a checkpoint of the island and actuator. -/
def servoInput (s : State) (x n : Nat) : Bool :=
  let off := reg s aRplSrc * 64
  let b := dramBytes s off 64
  decide (off + 64 ≤ dramUsable s) && !poisoned s off 64 && fieldN b 0 1 == 4 && fieldN b 1 1 == x + n * 4

/-! ### RPL_CTL (R447) -/

/-- The fields of RPL_CTL that hold a value. -/
def rplFields : List Fld :=
  [{ lo := 2, len := 2, legal := fun x => x == 1 || x == 2 }, { lo := 4, len := 2 }, { lo := 6, len := 1 }, { lo := 7, len := 1 },
   { lo := 16, len := 16, legal := fun x => x != 0 }]

/-- A replay starts, or is refused with its result. -/
def rplStart (s : State) : State :=
  let v := reg s aRplCtl
  let n := bits v 4 2
  let x := bits v 6 1
  let s := setReg aRplMismatch 0 { s with cap := { s.cap with
    rplState := 1, rplResult := 0, rplDone := 0, rplKind := bits v 2 2, rplUnit := n, rplIsl := x, rplDefer := bit v 7,
    rplCount := bits v 16 16, rpl := none, rplDue := none, rplStopped := false } }
  if bits v 2 2 = 1 then
    if !actPresent s n || regB s (aChlCtl n) 0 || regB s (aWrCtl n) 0 || (getCh s n).busy then rplFinish 2 s
    else
      let t := rplNext s
      if t.cap.rplDue = some 3 then rplFinish 3 t else t
  else if !actPresent s n || !servoIdle s x n then rplFinish 2 s
  else if !servoInput s x n then rplFinish 3 s
  else s

/-- A write to RPL_CTL. -/
def writeRplCtl (v : Nat) (s : State) : State :=
  let s := if bit v 1 && s.cap.rplState == 2 then { s with cap := { s.cap with rplState := 0 } } else s
  let s := writeFields aRplCtl rplFields v s
  if s.cap.rplState ≠ 0 then s
  else if bit v 0 && (regF s aRplCtl 2 2 == 1 || regF s aRplCtl 2 2 == 2) then rplStart s else s

/-- LANE_REPLAY. -/
def execLaneReplay (n : Fin 4) (defer : Bool) (count : Fin 65536) (s : State) : Host.Outcome State Fault Refusal := act s fun s =>
  writeRplCtl (1 + 4 + n * 16 + bnat defer * 128 + count * 65536) s

/-- SERVO_REPLAY. -/
def execServoReplay (x : Fin 2) (n : Fin 4) (count : Fin 65536) (s : State) : Host.Outcome State Fault Refusal := act s fun s =>
  writeRplCtl (1 + 8 + n * 16 + x * 64 + count * 65536) s

/-- The unit of a running replay is taken into service: it stops at the end of the present entry or wedge (R447). -/
def rplTaken (kind unit isl : Nat) (s : State) : State :=
  let c := s.cap
  if c.rplState = 1 ∧ c.rplKind = kind ∧ c.rplUnit = unit ∧ (kind = 1 ∨ c.rplIsl = isl) then
    { s with cap := { c with rplStopped := true } }
  else s

/-- REPLAY_DONE: a servo replay has run its wedges, or `wedges` of them before it was stopped; a lane replay has no entry
left (R443, R444, R447). -/
def execReplayDone (wedges : Nat) (s : State) : Host.Outcome State Fault Refusal := act s fun s =>
  let c := s.cap
  if c.rplState ≠ 1 then s
  else if c.rplKind = 1 then (match c.rplDue with | some k => rplFinish k s | none => s)
  else
    let stop := c.rplStopped || !islHealthy s c.rplIsl
    let k := if stop then Nat.min wedges c.rplCount else c.rplCount
    let r := servoRun c.rplIsl c.rplUnit (dramUsable s / 64) (reg s aRplSrc * 64) k {} s
    rplFinish (match r.1 with | some e => e | none => if stop then 5 else if reg r.2 aRplMismatch = 0 then 0 else 1) r.2

/-- REPLAY_ACK. -/
def execReplayAck (s : State) : Host.Outcome State Fault Refusal := act s fun s =>
  if s.cap.rplState = 2 then { s with cap := { s.cap with rplState := 0 } } else s

end Sys2Proof.Machine
end

