-- ==== Sys2Proof/Machine/ChannelCmds.lean ====
section
/-! DEFINITION. The commands of the channel lanes, the decoder pool, the deferred-decode buffer, the write path and the
sequencers that are events or register writes (R246–R299, R373–R397), and the arrival of position records (R251, R284,
R381). -/

namespace Sys2Proof.Machine

/-! ### Candidates and decoders (R246–R249, R257–R260) -/

/-- The candidates of a read sector formed, from its mark distances; `preamble` says whether one was found (R246–R249). -/
def formRead (n slot : Nat) (dists : List (List Nat)) (preamble : Bool) (s : State) : State :=
  match findSec s n slot with
  | none => s
  | some x =>
    let l := getCh s n
    if l.write || x.formed || x.begun != x.frags.length then s
    else
      let thr := setThr l.pset
      let cs := formCands (setWin l.pset) thr (setCand l.pset) (bit l.ctl 2) dists
      let none_ := dists.all fun d => (qualifying (setWin l.pset) thr d).isEmpty
      requestDecodes n slot (updSec n slot (fun x => { x with cands := cs, formed := true, preMiss := !preamble, noSync := none_ }) s)

/-- The new sync search of a deferred decode (R266, step 3). -/
def formDeferred (e : Nat) (dists : List (List Nat)) (s : State) : State :=
  match getEnt s e with
  | none => s
  | some x =>
    if x.step ≠ 4 ∨ x.st ≠ 2 then s
    else defNext e (setEnt e (some { x with step := 5, todo := formCands 15 (setThr x.psetBytes + 4) 3 true dists }) s)

/-- The sync search of a read sector (R246, R249): its samples of both readers, under the operation's set. -/
def searchRead (n slot : Nat) (s : State) : State :=
  match findSec s n slot with
  | none => s
  | some x =>
    let p := (getCh s n).pset
    formRead n slot (sectorDistances p [] .both (setWin p) x) (preambleAt p x 0) s

/-- The new sync search of an entry: at ±15 bits, on its stored samples (R266). -/
def searchDeferred (e : Nat) (s : State) : State :=
  match getEnt s e with
  | none => s
  | some x => formDeferred e (sectorDistances x.psetBytes [] .both 15 (entrySector s e x)) s

/-- SYNC_WINDOW_END: the mark distances at each offset of each fragment's window, from the samples (R246, R256). -/
def execSyncWindowEnd (f : SyncFor) (s : State) : Host.Outcome State Fault Refusal :=
  actAll s fun s => match f with
    | .read n slot => searchRead n slot s
    | .verify n slot => verifySearch n slot s
    | .deferred e => searchDeferred e s
    | .replay => rplSearch s

/-- DECODER_GRANT (R259). -/
def execDecoderGrant (s : State) : Host.Outcome State Fault Refusal := act s grantDecoder

/-- A decode has ended: what it was for takes the result. -/
def decodeEnd (j : Job) (zero : Bool) (info : List Byte) (s : State) : State :=
  let n := j.lane
  let fin := if zero then 1 else 2
  match j.target with
  | .otf slot i =>
    judgeSector n slot (updSec n slot (fun x => { x with cands := x.cands.zipIdx.map fun p =>
      if p.2 = i then { p.1 with iters := p.1.iters + j.iters, fin := fin, info := info } else p.1 }) s)
  | .reread slot =>
    judgeSector n slot (updSec n slot (fun x => { x with cands := x.cands.zipIdx.map fun p =>
      if p.2 + 1 = x.cands.length then { p.1 with iters := p.1.iters + j.iters, fin := fin, info := info } else p.1 }) s)
  | .verify slot => verifyEnd n slot zero info j.iters j.err s
  | .parity slot => parityEnd n slot zero info j.iters j.ext s
  | .deferred e => (match getEnt s e with
    | none => s
    | some x =>
      entJudge e (setEnt e (some { x with iters := x.iters + j.iters, owed := x.owed + j.iters,
                                          cur := x.cur.map fun c => { c with fin := fin, info := info } }) s))
  | .replay i => rplDecoded i zero info j.run j.spent j.err s

/-- A running DEF or RPL decode is preempted: an RT1 request waits, no decoder is free, and this decode started on its
decoder last (R259). -/
def preempts (s : State) (j : Job) : Bool :=
  decide (2 ≤ j.cls) && (freeDecs s).isEmpty && s.chan.jobs.any (fun x => x.cls == 0 && x.dec.isNone)
    && s.chan.jobs.all fun x => x.dec.isNone || decide (x.cls < 2) || decide (x.grant ≤ j.grant)

/-- The decode of a sector's samples at a candidate's offsets: its equalized values, and the detector's LLRs of this pass. -/
def candLlr (p w : List Byte) (e : EqPath) (x : Sector) (offs : List Int) (ext : List Int) : List (Option Int) × List Int :=
  let z := codeValues e w x (valuesOf p w e x) offs
  (z, softBits p z ext)

/-- The path of a deferred decode's step (R266). -/
def stepPath (step : Nat) : EqPath := match step with | 2 => .onlyA | 3 => .onlyB | _ => .both

/-- The equalized values that a job's detector works on, and the LLRs of its present pass: a candidate's own; in a two-sector round
with the other member's extrinsic added; and in a re-read's first decode the sum of its entry (R262, R266, R268, R286, R443). -/
def passLlr (s : State) (j : Job) : List (Option Int) × List Int :=
  let l := getCh s j.lane
  let at_ := fun (x : Sector) i => (x.cands[i]?.map (·.offs)).getD []
  match j.target with
  | .otf slot i => (match findSec s j.lane slot with
    | some x => candLlr l.pset [] .both x (at_ x i) j.ext
    | none => ([], []))
  | .verify slot => (match findSec s j.lane slot with
    | some x => candLlr l.pset l.wset (if x.rb then .both else .verify) x (at_ x 0) j.ext
    | none => ([], []))
  | .parity slot => (match l.sectors.find? fun x => x.slot == slot && x.res == 2 with
    | some x =>
      let r := candLlr l.pset [] .both x (bestCand x).offs j.ext
      let y := ((l.pars.find? fun p => p.s0 == slot || p.s1 == slot).map (·.x)).getD []
      (r.1, addLlr (-32) 31 r.2 y)
    | none => ([], []))
  | .deferred e => (match getEnt s e with
    | some x => candLlr x.psetBytes [] (stepPath x.step) (entrySector s e x) ((x.cur.map (·.offs)).getD []) j.ext
    | none => ([], []))
  | .reread slot => (match findSec s j.lane slot with
    | some x =>
      match x.entry, x.cands with
      | some e, [_] => ([], bytesLlr (dramBytes s (entryOff s e + 0x32800) 36864))
      | _, _ => candLlr l.pset [] .both x (bestCand x).offs j.ext
    | none => ([], []))
  | .replay i => rplLlr i j.ext s

/-- The codeword that a job's decode is held against: a written sector's (R287). -/
def heldWord (s : State) (j : Job) : Option (List Byte) :=
  match j.target with
  | .verify slot => (findSec s j.lane slot).map fun x => codeword x.enc
  | .replay _ => s.cap.rpl.bind fun r => if r.verify then some r.cw else none
  | _ => none

/-- A global iteration of decoder `k` has ended with a pass's result; `err` counts the hard decisions that differed after the
first pass. The decode ends on syndrome zero or at its limit; else it goes on, or is preempted and later restarts (R257, R259,
R287). -/
def iterationEnd (k : Nat) (j : Job) (r : Pass) (err : Nat) (s : State) : State :=
  let mine := fun (x : Job) => x.dec == some k
  let j := { j with err := if j.run = 1 then err else j.err, ext := r.ext }
  if r.zero || decide (j.limit ≤ j.run) then decodeEnd j r.zero (r.cw.take 4128) (dropJobs mine s)
  else
    let pre := preempts s j
    let j := if pre then { j with dec := none, spent := j.spent + j.run, run := 0, ext := [] } else { j with run := j.run + 1 }
    let s := if pre then incReg aGarnetPreempt s else s
    { s with chan := { s.chan with jobs := s.chan.jobs.map fun x => if mine x then j else x } }

/-- GLOBAL_ITERATION_END: decoder `k` ends an iteration of its job, whose result rests on the LLRs alone (R238, R256, R257). -/
def execGlobalIterationEnd (k : Fin 12) (s : State) : Host.Outcome State Fault Refusal := actAll s fun s =>
  match s.chan.jobs.find? fun j => j.dec == some k.val with
  | none => s
  | some j =>
    let v := passLlr s j
    iterationEnd k j (garnet v.2) (match heldWord s j with | some cw => hardErrors v.1 v.2 cw | none => 0) s

/-- SAMPLE_MEMORY_TIMEOUT (R260). -/
def execSampleMemoryTimeout (n : Fin 4) (slot : Fin 2048) (s : State) : Host.Outcome State Fault Refusal := actAll s fun s =>
  match findSec s n slot with
  | some x => if (getCh s n).write || x.begun == 0 then s else resolveRead n slot none true false s
  | none => s

/-- VERIFY_TIMEOUT (R288). -/
def execVerifyTimeout (n : Fin 4) (slot : Fin 2048) (s : State) : Host.Outcome State Fault Refusal := actAll s (verifyTimeout n slot)

/-! ### The deferred-decode buffer (R264–R268, R272) -/

/-- DEFERRED_DECODE_TIMEOUT (R266). -/
def execDeferredDecodeTimeout (e : Fin 4096) (s : State) : Host.Outcome State Fault Refusal := actAll s fun s =>
  match getEnt s e with
  | some x => if x.st = 2 then defFail e s else s
  | none => s

/-- An entry that CHAN_DDB_RD passes. Where firmware has ended the retry ladder for it, it becomes unrecovered and the
reads that wait for it fail; an entry not final is abandoned, and a block that reads still wait for returns to the scheduler;
it is freed (R40, R264, R268, R269, log 47). -/
def freeEntry (ended : Bool) (e : Nat) (s : State) : State :=
  let s := closeEntJob e s
  match getEnt s e with
  | none => s
  | some x =>
    let s :=
      if entFinal x.st then s
      else if ended && x.st == 3 then
        let s := incReg (aChl x.lane 17) (setEntSt e 5 3 s)
        let s := trigger 2 s
        match x.block with | some b => failBlock b.1 b.2 0x281 s | none => s
      else
        let s := setEntSt e 6 0 s
        match x.block with
        | some b => returnBlock x.lane b.1 b.2 s
        | none => s
    setEnt e none s

/-- The entries from `a` on, `k` of them, freed. -/
def freeEntries (ended : Bool) (a size : Nat) : Nat → State → State
  | 0, s => s
  | k + 1, s => freeEntry ended ((a + k) % max 1 size) (freeEntries ended a size k s)

/-- A write to CHAN_DDB_RD. -/
def writeDdbRd (ended : Bool) (v : Nat) (s : State) : State :=
  let size := ddbEntries s
  let rd := regF s aDdbRd 0 12
  let v := bits v 0 12
  if size ≤ v then noteReserved aDdbRd v s
  else freeEntries ended rd size ((v + size - rd) % max 1 size) (setReg aDdbRd v s)

/-- DDB_RD_ADVANCE; `ended` says that firmware has ended the retry ladder for the entries it passes (log 47). -/
def execDdbRdAdvance (rd : Fin 4096) (ended : Bool) (s : State) : Host.Outcome State Fault Refusal := actAll s fun s =>
  progress (writeDdbRd ended rd s)

/-- A write to CHAN_DDB_BASE or CHAN_DDB_CFG. -/
def writeDdbCfg (a v : Nat) (s : State) : State :=
  if regB s aChanCtl 0 then record (srcChl 0) 0x103 [0, a - 0x13000000, v] s
  else if a = aDdbBase then setReg a (bits v 0 16) s
  else writeFields a [{ lo := 0, len := 12, legal := fun x => x == 0 || decide (16 ≤ x) }, { lo := 16, len := 6, legal := fun x => x != 0 }] v s

/-- DDB_CFG_WRITE: to CHAN_DDB_CFG, or to CHAN_DDB_BASE. -/
def execDdbCfgWrite (base : Bool) (v : BitVec 32) (s : State) : Host.Outcome State Fault Refusal := act s fun s =>
  writeDdbCfg (if base then aDdbBase else aDdbCfg) v.toNat s

/-! ### Shock (R296, R297, R299) -/

/-- ACCEL_INT: input `i` rises or falls (R296). -/
def execAccelInt (i : Fin 2) (high : Bool) (s : State) : Host.Outcome State Fault Refusal := actAll s fun s =>
  let k := s.chan.shock
  let rose := high && !bit k.ints i
  let s := { s with chan := { s.chan with shock := { k with ints := setBits k.ints i 1 (bnat high) } } }
  if rose && bit k.cfg 18 then shockInput (2 + i) s else s

/-- SHOCK_HOLD_END. -/
def execShockHoldEnd (s : State) : Host.Outcome State Fault Refusal := actAll s shockEnd

/-- SHOCK_EN. -/
def execShockEn (n : Fin 4) (on : Bool) (s : State) : Host.Outcome State Fault Refusal := actAll s fun s =>
  if actPresent s n then writeWrCtl n (setBits (reg s (aWrCtl n)) 2 1 (bnat on)) s else s

/-! ### Fragments under the head (R373) -/

/-- A slip: of the operation, of the sequencer, and its latch. -/
def slip (n : Nat) (s : State) : State :=
  latch n 0x19 (incReg (aSeqCount n 4) (setCh n { getCh s n with slips := (getCh s n).slips + 1 } s))

/-- The fragment at the front of the arm queue leaves it. -/
def popArm (n : Nat) (s : State) : State := setCh n { getCh s n with arm := (getCh s n).arm.drop 1 } s

/-- A fragment's first bit reaches the head; of a read sector, it overwrites the samples of all but the last 8 (R260). -/
def fragBegun (n slot j sbr : Nat) (s : State) : State :=
  let s := latch n 0x17 (popArm n s)
  let up := fun (k : Nat) => laneUp s n k
  let w := (getCh s n).last
  let f := (getCh s n).front
  let s := updSec n slot (fun x =>
    let x := { x with begun := x.begun + 1, starts := x.starts ++ [(x.a.length, x.b.length)] }
    if j ≠ 0 then x
    else
      let x := { x with firstBit := s.now, hasA := up 0, hasB := up 1, front := f }
      match w with | some w => joinSpan (wedgesOf s) w x | none => x) s
  match findSec s n slot with
  | some x =>
    if (getCh s n).write then (if x.rb then s else writeBegun n slot j x sbr s)
    else (overwritten s n fun y => decide (0 < y.begun)).foldl (fun t y => resolveRead n y.slot none true false t) s
  | none => s

/-- A fragment armed too late: fragment 0 is placed one revolution later; a later one is missed, and its sector is
abandoned, or not written in this revolution (R373). -/
def fragLate (n slot j : Nat) (s : State) : State :=
  let s := slip n s
  if j = 0 then s
  else
    let s := updSec n slot (fun x => { x with missed := true, begun := x.begun + 1, starts := x.starts ++ [(x.a.length, x.b.length)] })
      (popArm n s)
    if (getCh s n).write then s else resolveRead n slot none false true s

/-- FRAGMENT_BEGUN: the fragment at the front of the arm queue begins, or was armed too late; `sbr` is the servo bit rate
of the head, UQ10.6 Mbit/s. -/
def execFragmentBegun (n : Fin 4) (late : Bool) (sbr : Nat) (s : State) : Host.Outcome State Fault Refusal := actAll s fun s =>
  match (getCh s n).arm.head? with
  | none => s
  | some (slot, j) => if late then fragLate n slot j s else fragBegun n slot j sbr s

/-- SECT_PASSED: the last bit of an armed sector passes the head. -/
def execSectPassed (n : Fin 4) (slot : Fin 2048) (s : State) : Host.Outcome State Fault Refusal := actAll s fun s =>
  match findSec s n slot with
  | none => s
  | some x =>
    if x.passed || x.begun != x.frags.length then s
    else
      let s := latch n 0x18 s
      if (getCh s n).write && !x.rb then
        if x.missed then updSec n slot (fun y => { y with res := 4 }) s else verifyOverwrite n (writePassed n slot x s)
      else
        let s := updSec n slot (fun y => { y with passed := true, lastBit := s.now }) s
        if (getCh s n).write then verifyOverwrite n s
        else
          let l := getCh s n
          requestDecodes n slot (setCh n { l with front := frontAfter l.pset [] .both x } s)

/-! ### Sequencer events and registers (R377, R385, R391, R396) -/

/-- SEQ_TIMER_EXPIRY: a timer that counts µs (R377, R383). -/
def execSeqTimerExpiry (n : Fin 4) (t1 : Bool) (s : State) : Host.Outcome State Fault Refusal := act s fun s =>
  let q := getSq s n
  match if t1 then q.t1 else q.t0 with
  | none => s
  | some t =>
    if t.wedges then s
    else latch n (if t1 then 0x0E else 0x0D) (setSq n (if t1 then { q with t1 := none } else { q with t0 := none }) s)

/-- OP_LIMIT_EXPIRY. -/
def execOpLimitExpiry (n : Fin 4) (s : State) : Host.Outcome State Fault Refusal := actAll s fun s =>
  if (getSq s n).inOp then forcedEnd n 8 s else s

/-- EN goes to 0: an operation ends, and the sequencer is held at reset (R377, R385). -/
def seqHold (n : Nat) (s : State) : State :=
  let s := if (getSq s n).inOp then forcedEnd n 9 s else s
  setSq n { getSq s n with pc := 0, waiting := false, wcond := 0, g := [], z := false, lt := false, stack := [], t0 := none, t1 := none,
                           latch := [], ptr := 0, loaded := none } s

/-- A write to SEQ_CTL. -/
def writeSeqCtl (n v : Nat) (s : State) : State :=
  if !actPresent s n then s
  else
    let was := regB s (aSeqCtl n) 0
    let s := setReg (aSeqCtl n) (bits v 0 1 + bnat (bit v 1 && (getSq s n).inOp) * 2) s
    if was && !bit v 0 then seqHold n s
    else if !was && bit v 0 then setSq n { getSq s n with pc := entryOf s n, waiting := false } s
    else s

/-- SEQ_EN. -/
def execSeqEn (n : Fin 4) (on : Bool) (s : State) : Host.Outcome State Fault Refusal := actAll s fun s =>
  writeSeqCtl n (setBits (reg s (aSeqCtl n)) 0 1 (bnat on)) s

/-- STOP. -/
def execStop (n : Fin 4) (s : State) : Host.Outcome State Fault Refusal := actAll s fun s =>
  writeSeqCtl n (setBits (reg s (aSeqCtl n)) 1 1 1) s

/-- The selection a bank register shows in force. -/
def bankValid (s : State) (n sel : Nat) : Bool := match sel with | 0 => true | k + 1 => regF s (aSeqBankState n k) 0 2 == 2

/-- A write to SEQ_BANK_SEL (R391, R392). -/
def writeBankSel (n v : Nat) (s : State) : State :=
  let sel := bits v 0 2
  let q := getSq s n
  if !actPresent s n then s
  else if sel = 3 then noteReserved (aSeqBankSel n) v s
  else if sel = q.active then s
  else if bankValid s n sel then setReg (aSeqBankSel n) sel (setSq n { q with pend := some sel } s)
  else
    let s := record (srcSeq n) 0x144 [q.pc, sel] (incReg (aSeqCount n 7) s)
    setReg (aSeqBankSel n) q.active (setSq n { q with pend := none } s)

/-- BANK_SWITCH_REQUEST. -/
def execBankSwitchRequest (n : Fin 4) (sel : Fin 4) (s : State) : Host.Outcome State Fault Refusal := act s fun s => writeBankSel n sel s

/-- A switch is held while a fail-over or a firmware activation is in progress (R391). -/
def switchHeld (s : State) : Bool := interrupted s

/-- BANK_SWITCH: at a boundary (R391). -/
def execBankSwitch (n : Fin 4) (s : State) : Host.Outcome State Fault Refusal := act s fun s =>
  let q := getSq s n
  match q.pend with
  | none => s
  | some sel => if q.inOp || switchHeld s || !regB s (aSeqCtl n) 0 then s else switchBank n sel s

/-- The control store word at an address; one of a bank not loaded reads 0 (R388, R396). -/
def csWord (s : State) (n a : Nat) : Nat :=
  let q := getSq s n
  if a < 0x800 then (Config.romWord a).toNat
  else match q.active with
    | 0 => 0
    | k + 1 => (bankWords s n k).getD (a - 0x800) 0

/-- A write to SEQ_CS_ADDR. -/
def writeCsAddr (n v : Nat) (s : State) : State :=
  if !actPresent s n then s
  else
    let w := csWord s n (bits v 0 13)
    setReg (aSeqCsDataHi n) (bits w 32 16) (setReg (aSeqCsDataLo n) (bits w 0 32) (setReg (aSeqCsAddr n) (bits v 0 13) s))

/-- CS_SNAPSHOT. -/
def execCsSnapshot (n : Fin 4) (a : Fin 8192) (s : State) : Host.Outcome State Fault Refusal := act s fun s => writeCsAddr n a s

/-! ### Position records (R251, R284, R310, R346, R377, R381, R401) -/

/-- The islands whose records decide a wedge: HEALTHY and serving the actuator. -/
def deciders (s : State) (n : Nat) : List Nat := [0, 1].filter fun x => islHealthy s x && serves s x n

/-- A timer that counts wedges counts one more. -/
def countTimer (t : Option Timer) : Option Timer × Bool :=
  match t with
  | some t => if !t.wedges then (some t, false) else if t.left ≤ 1 then (none, true) else (some { t with left := t.left - 1 }, false)
  | none => (none, false)

/-- The sequencer takes a decided wedge: its latches and its timers in wedges. -/
def seqWedge (n : Nat) (w : Wedge) (s : State) : State :=
  let q := getSq s n
  let a := countTimer q.t0
  let b := countTimer q.t1
  let s := setSq n { q with t0 := a.1, t1 := b.1 } s
  let s := if a.2 then latch n 0x0D s else s
  let s := if b.2 then latch n 0x0E s else s
  let s := latch n 0x02 s
  clockBoundary n (if w.no = 0 then latch n 0x03 s else s)

/-- A wedge is decided by its records; one whose records are not all there is OUT (R251, log 49). -/
def decideWedge (n : Nat) (rs : List PosRec) (s : State) : State :=
  let l := getCh s n
  let ctl := if l.busy then l.ctl else reg s (aChlCtl n)
  let full := (deciders s n).all fun x => rs.any fun r => r.isl == x
  let w := wedgeOf ctl (wsWin l.wset) rs
  let w := if full then w else { w with inn := false, inw := false }
  let s := seqWedge n w (setCh n { l with last := some w, half := [] } s)
  laneWedge n w (writeWedge n w s)

/-- A record joins those of its wedge; the wedge is decided when every deciding island's has arrived, and an older one
that waits is decided first. -/
def takeRecord_ (n : Nat) (r : PosRec) (s : State) : State :=
  let old := (getCh s n).half
  let s := if old.any (fun x => x.wedge != r.wedge) then decideWedge n old s else s
  let half := (getCh s n).half ++ [r]
  if (deciders s n).all fun x => half.any fun y => y.isl == x then decideWedge n half s
  else setCh n { getCh s n with half := half } s

/-- POSITION_RECORD: the oldest record on its way from an island arrives at the lane and the sequencer; records of an
island that is not HEALTHY are set aside (R251, R401). -/
def execPositionRecord (x : Fin 2) (n : Fin 4) (s : State) : Host.Outcome State Fault Refusal := actAll s fun s =>
  match takeFirst (fun r => r.isl == x.val) (getCh s n).posq with
  | none => s
  | some (r, rest) =>
    let s := setCh n { getCh s n with posq := rest } s
    if !islHealthy s x then s
    else
      let s := setSq n { getSq s n with lastRec := s.now } (setAst n { getAst s n with noRec := false } s)
      takeRecord_ n r s

end Sys2Proof.Machine
end

