-- ==== Sys2Proof/Machine/Logs.lean ====
section
/-! DEFINITION. The log pages, Firmware Image Download and Commit, and NVMe-MI (R144, R146, R157, R186, R192, R363, R418,
R433, R442). -/

namespace Sys2Proof.Machine

/-! ### Log 0xC0 (R418, R419) -/

/-- SCHn_STATE (R198). -/
def schState (s : State) (n : Nat) : Nat :=
  let d := getSched s n
  if !actPresent s n then 0 else if d.st = 2 ∧ isDegraded s n = true then 3 else d.st

/-- FLAGS of log 0xC0 and RED_HEALTH. -/
def redFlags (s : State) : Nat :=
  let down := fun x => (getIsl s x).st != 1
  let acts := (List.range 4).filter (actPresent s)
  let has := fun code => s.red.faults.any fun f => f.1 == code
  let clu := (List.range 8).any fun c => let st := (getClu s c).st; st == 4 || st == 5 || st == 6
  ([down 0, down 1, has 0x12, faultPresent s 0x10 0, faultPresent s 0x10 1, has 0x11, clu, (standbyOf s).isNone,
    (getPort s 0).failed, (getPort s 1).failed, s.red.decRetired != 0, (List.range 8).any fun c => retiredCount s c != 0,
    has 0x42, has 0x43, s.strata.onMirror, acts.any (isDegraded s), acts.any fun n => (getSched s n).st == 5,
    s.pwr.warn, acts.any fun n => (getAct s 0 n).deadline || (getAct s 1 n).deadline, s.red.romFallback != 0].zipIdx.map
      fun (b, i) => bnat b * 2 ^ i).sum

/-- The section of an actuator. -/
def actSection (s : State) (n : Nat) : List Byte :=
  let a := getAct s 0 n; let b := getAct s 1 n
  let loss := reg s (aUpLoss n 0) + reg s (aUpLoss n 1) + reg s (aUpLoss n 2) + reg s (aDnLoss n)
  leBytes 1 (schState s n) ++ leBytes 1 a.mode ++ leBytes 1 b.mode ++ leBytes 1 (bnat a.deadline + bnat b.deadline * 2)
    ++ leBytes 4 (reg s (aBasCount 0 n 0)) ++ leBytes 4 (reg s (aBasCount 1 n 0)) ++ leBytes 4 (reg s (aBasCount 0 n 2))
    ++ leBytes 4 (reg s (aBasCount 1 n 2)) ++ leBytes 4 loss ++ leBytes 4 (reg s (aChl n 17)) ++ leBytes 4 (reg s (aWr n 1))

/-- The section of a port. -/
def portSection (s : State) (p : Nat) : List Byte :=
  let k := getPort s p
  leBytes 1 (if k.failed then 2 else bnat k.up) ++ leBytes 1 k.rate ++ zeros 2 ++ leBytes 4 (reg s (aLinkDown p))
    ++ leBytes 4 (reg s (aFecUncorr p)) ++ leBytes 4 (reg s (aDdgstErr p))

/-- A history entry's 16 bytes. -/
def histBytes (h : Hist) : List Byte := (histWords h).flatMap (leBytes 8)

/-- The thirteen counters of log 0xC0: RED's with TDM_MISMATCH among them. -/
def redCounters (s : State) : List Nat :=
  ((List.range 8).map fun j => reg s (aRedCount j)) ++ [reg s aTdmMismatch] ++ ([8, 9, 10, 11].map fun j => reg s (aRedCount j))

/-- Log 0xC0 from its SEVERITY on, but for TMAX and UPTIME_S, whose changes GENERATION does not follow. -/
def redBody (s : State) : List (Nat × List Byte) :=
  let sumC := fun (f : Nat → Nat) => ((List.range 8).map f).sum
  [(0x18, leBytes 1 1), (0x19, leBytes 1 (severityOf s.red)), (0x1C, leBytes 4 (redFlags s)), (0x20, leBytes 1 (getIsl s 0).st),
   (0x21, leBytes 1 (getIsl s 1).st), (0x22, leBytes 1 ((standbyOf s).getD 0xFF)), (0x23, leBytes 1 (countTo (fun k => !retired s k) 12)),
   (0x24, (redCounters s).flatMap (leBytes 4)), (0x58, leBytes 2 s.red.decRetired), (0x5A, leBytes 2 (regF s aRedCfg 0 10)),
   (0x60, (List.range 4).flatMap fun n => if actPresent s n then actSection s n else zeros 32),
   (0xE0, (List.range 8).flatMap fun c => leBytes 1 (getClu s c).st ++ leBytes 1 (retiredCount s c) ++ zeros 2 ++ leBytes 4 (getClu s c).failCount),
   (0x120, portSection s 0 ++ portSection s 1), (0x140, leBytes 8 (wide s aDramCeLo)), (0x148, leBytes 8 (sumC fun c => wide s (aL2CeLo c))),
   (0x150, leBytes 4 (reg s aDramUe) ++ leBytes 4 (reg s aMramCe) ++ leBytes 4 (reg s aMramUe) ++ leBytes 4 (sumC fun c => reg s (aL2Ue c))),
   (0x160, [1, 2, 3, 4, 5].flatMap fun k => leBytes 4 (reg s (aBreach k))), (0x174, leBytes 4 (deferHeld s)),
   (0x178, leBytes 4 s.red.wdegEntries)]

/-- Log 0xC0's further fields. -/
def redTail (s : State) (live : Bool) : List (Nat × List Byte) :=
  [(0x180, if live then leBytes 2 s.pwr.tmax else zeros 2), (0x182, leBytes 2 s.pwr.tmaxPeak), (0x184, leBytes 2 s.pwr.resetCount),
   (0x186, leBytes 1 s.pwr.cause), (0x188, if live then leBytes 4 (s.now / 1000000000) else zeros 4), (0x200, s.red.hist.flatMap histBytes)]

/-- Log 0xC0. GENERATION has risen since the page was last read when what it follows has changed; by how much beyond one
is left open (log 53). -/
def redPage (s : State) : List Byte × State :=
  let stable := fieldBytes 1024 (redBody s ++ redTail s false)
  let s := if s.red.page = stable then s
    else
      let d := fresh s
      { d.2 with red := { d.2.red with page := stable, generation := (d.2.red.generation + 1 + d.1) % 2 ^ 64 } }
  (fieldBytes 1024 ([(0, leBytes 8 s.red.generation), (8, leBytes 8 s.now), (0x10, leBytes 8 (wallNow s))] ++ redBody s ++ redTail s true), s)

/-! ### Logs 0xC1 and 0xC2 (R192, R363) -/

/-- An entry of log 0xC1. -/
def deferBytes (d : Defer) : List Byte :=
  padTo 64 (leBytes 8 d.seq ++ leBytes 4 d.nsid ++ leBytes 4 d.zone ++ leBytes 8 d.slba ++ leBytes 2 d.nlb ++ leBytes 2 d.failed
    ++ leBytes 1 d.reason ++ leBytes 1 d.status ++ leBytes 2 0 ++ leBytes 8 d.tb ++ leBytes 8 d.wall)

/-- Log 0xC1. -/
def deferPage (s : State) : List Byte :=
  let j := s.jrn
  padTo (64 * 256) (padTo 64 (leBytes 8 j.logGen ++ leBytes 4 j.logTotal ++ leBytes 2 j.log.length ++ leBytes 2 0
    ++ leBytes 4 (deferHeld s) ++ leBytes 4 (deferLimit s) ++ leBytes 4 j.logOverflow) ++ j.log.flatMap deferBytes)

/-- ACT_STATE of an actuator (R124, R126, R363). -/
def actState (s : State) (n : Nat) : Nat :=
  if !actPresent s n || !actExpected s n then 0 else if (getSched s n).st = 5 then 4 else smGet (fun _ => 0) s.boot.acts n

/-- HEAD_STATE of a head slot (R126, R363): a head is listed when zones are laid out on its surface. -/
def headState (s : State) (h : Nat) : Nat :=
  let f := s.cmd.fmt
  let listed := (List.range f.zones.sum).any fun g =>
    let z := nsOfZone f g
    actOfLba f z.1 (z.2 * 65536) == h / 8 && zoneHead f g == h % 8
  match smGet (fun _ => 0) s.boot.heads h with
  | 0 => 0
  | 1 => if listed then 1 else 3
  | _ => 2

/-- An entry of log 0xC2. -/
def calEntry (s : State) (h : Nat) : List Byte :=
  let count := fun k => smGet (fun _ => 0) s.cal.counts (h * 4 + k)
  padTo 64 (leBytes 1 h ++ leBytes 1 (headState s h) ++ leBytes 1 (smGet (fun _ => 0) s.boot.elems h) ++ leBytes 1 (cal8 s false h 1)
    ++ leBytes 1 (cal8 s false h 0) ++ leBytes 1 (cal8 s false h 2) ++ leBytes 1 (cal8 s false h 3) ++ leBytes 1 (smGet (fun _ => 0) s.cal.trips h)
    ++ leBytes 4 (calWord s false h 8) ++ leBytes 2 (cal16 s false h 0xC) ++ zeros 2
    ++ leBytes 4 (calWord s false h 0x10) ++ leBytes 4 (calWord s false h 0x14) ++ leBytes 4 (calWord s false h 0x18) ++ leBytes 4 (calWord s false h 0x1C)
    ++ leBytes 4 (count 0) ++ leBytes 4 (count 1) ++ leBytes 4 (count 2))

/-- Log 0xC2. -/
def calPage (s : State) : List Byte :=
  padTo 64 (leBytes 8 s.cal.generation ++ leBytes 2 (unsgn 16 s.cal.td) ++ leBytes 1 s.cal.tsrc ++ leBytes 1 (regF s aCalCfg 0 8)
    ++ leBytes 4 (reg s aCalPresent) ++ leBytes 4 s.cal.due ++ (List.range 4).flatMap fun n => leBytes 1 (actState s n))
  ++ (List.range 32).flatMap (calEntry s)

/-! ### Log 0xC3 (R432, R433) -/

/-- The mirror window: its first position, and the records that lie in it. -/
def windowFrom (s : State) : Nat := up64k (s.mirror.mhead - 1048576)
def windowRecs (s : State) : List Rec := (s.mirror.ring.filter fun e => decide (windowFrom s ≤ e.1)).map (·.2)

/-- The highest SEQ of a source among records, all ones for none. -/
def topSeq (l : List Rec) (src : Nat) : Nat :=
  match l.filter fun r => r.src == src with
  | [] => 0xFFFFFFFF
  | x :: xs => xs.foldl (fun m r => max m r.seq) x.seq

/-- The page of a new snapshot. -/
def windowPage (s : State) : List Byte :=
  let l := windowRecs s
  padTo 64 (leBytes 8 s.strata.snapId ++ leBytes 4 s.mirror.life ++ zeros 4 ++ leBytes 8 (windowFrom s) ++ leBytes 8 s.mirror.mhead)
    ++ ((List.range 64).flatMap fun k => leBytes 4 (topSeq l k)) ++ l.flatMap recBytes

/-- The window that a controller reads: offset 0 takes a new snapshot, another offset goes on with the last. -/
def windowRead (ctrl off : Nat) (s : State) : List Byte × State :=
  if off = 0 then
    let s := { s with strata := { s.strata with snapId := s.strata.snapId + 1 } }
    let p := windowPage s
    (p, { s with strata := { s.strata with snaps := smSet (fun _ => []) s.strata.snaps ctrl p } })
  else (smGet (fun _ => []) s.strata.snaps ctrl, s)

/-! ### Log 0xC4 (R442) -/

/-- The size of a stream's items. -/
def itemSize (k : Nat) : Nat := match k with | 0 => 64 | 1 => 64 | 2 => 8 | _ => 262144

/-- The positions of a stream's oldest and newest items. -/
def oldestPos (s : State) (k : Nat) : Nat := wide s (aCapWrLo k) - capSize s k
def newestPos (s : State) (k : Nat) : Nat := wide s (aCapWrLo k) - itemSize k

/-- Bytes of a stream's ring from a position. -/
def ringBytes (s : State) (k pos n : Nat) : List Byte :=
  (List.range n).map fun i =>
    memByte s (dramBase + regF s (aCapBase k) 0 18 * 65536 + (if capSize s k = 0 then 0 else (pos + i) % capSize s k))

/-- The timebase of a stream's oldest item: as noted while the ring has not come round, else as the item tells it; a BRANCH
item tells part of it, completed to the latest time before the last item's (log 48). -/
def oldestTb (s : State) (k : Nat) : Nat :=
  let st := getStream s k
  if oldestPos s k = 0 then st.firstTb
  else
    let b := ringBytes s k (oldestPos s k) 32
    match k with
    | 0 => fieldN b 8 8
    | 1 => fieldN b 0 8
    | 2 => let v := fieldN b 0 8
           if v % 8 = 7 then v / 32 * 32 else st.lastTb - (st.lastTb - v / 2 ^ 37 * 8 % 2 ^ 30) % 2 ^ 30
    | _ => fieldN b 0x10 8

/-- A stream's descriptor. -/
def streamDesc (s : State) (k : Nat) : List Byte :=
  let st := getStream s k
  padTo 64 (leBytes 1 k ++ leBytes 1 (bnat st.frozen) ++ leBytes 1 st.trigger ++ zeros 1 ++ leBytes 4 (itemSize k) ++ leBytes 8 (capSize s k)
    ++ leBytes 8 (oldestPos s k) ++ leBytes 8 (newestPos s k) ++ leBytes 4 (reg s (aCapDropped k)) ++ leBytes 8 (oldestTb s k) ++ leBytes 8 st.lastTb)

/-- The capture index. -/
def capIndex (s : State) : List Byte :=
  let c := s.cap
  padTo 64 (leBytes 8 c.generation ++ leBytes 4 s.mirror.life ++ leBytes 1 (bits (sysId s) 0 8) ++ zeros 3 ++ leBytes 4 c.freezes
    ++ leBytes 1 c.rplKind ++ leBytes 1 c.rplResult ++ leBytes 2 c.rplCount ++ leBytes 4 (reg s aRplMismatch))
  ++ (List.range 4).flatMap (streamDesc s)

/-- The items of a stream that a Get Log Page asks for, beyond which it reads 0. -/
def streamSlice (s : State) (k : Nat) (c : Capsule) : List Byte :=
  let len := wide s (aCapWrLo k) - oldestPos s k
  padTo (pageLen c) (ringBytes s k (oldestPos s k + pageOff c) (min (pageLen c) (len - pageOff c)))

/-- The output items of the last replay that a Get Log Page asks for. -/
def replaySlice (s : State) (c : Capsule) : List Byte :=
  let len := 32 * s.cap.rplDone
  padTo (pageLen c) (dramBytes s (reg s aRplOut * 64 + pageOff c) (min (pageLen c) (len - pageOff c)))

/-! ### The pages of the NVM Express specifications (R144, R151, R196, R417) -/

/-- Composite temperature, K. -/
def compositeTemp (s : State) : Nat := (sgn 12 s.pwr.tmax / 4 + 273).toNat

/-- The Critical Warning field: bit 1 over the controller's threshold, bit 2 while EXPOSED (R417). -/
def criticalWarning (s : State) (t : Ctrl) : Nat :=
  let hi := tempThreshold t 0
  let lo := tempThreshold t 1
  bnat ((hi != 0 && decide (hi ≤ compositeTemp s)) || (lo != 0 && decide (compositeTemp s ≤ lo))) * 2 + bnat (severityOf s.red == 2) * 4

/-- Log 02h: what the spec does not say of it is left open (log 53). -/
def smartPage (s : State) (t : Ctrl) : List Byte × State :=
  let f := freeBytes 509 s
  (leBytes 1 (criticalWarning s t) ++ leBytes 2 (compositeTemp s) ++ f.1, f.2)

/-- A slot's firmware revision. -/
def slotRev (s : State) (k : Nat) : List Byte := match slotGen s k with | some _ => seg (manifest s k) 0x18 8 | none => zeros 8

/-- Log 01h: the controller's 64 error entries, newest first; no entry names a parameter, and the transport is TCP. -/
def errorPage (t : Ctrl) : List Byte :=
  padTo 4096 (t.errors.flatMap fun e => fieldBytes 64 [(0, leBytes 8 e.count), (8, leBytes 2 e.sqid), (10, leBytes 2 e.cid), (12, leBytes 2 (e.status * 2)),
    (14, leBytes 2 0xFFFF), (16, leBytes 8 e.lba), (24, leBytes 4 e.nsid), (29, leBytes 1 3)])

/-- Log 03h (R146). -/
def fwPage (s : State) : List Byte :=
  let next := match s.host.trial with | some k => k + 1 | none => 0
  fieldBytes 512 [(0, leBytes 1 (s.host.running + 1 + next * 16)), (8, slotRev s 0 ++ slotRev s 1)]

/-- Log 05h: CSUPP for the commands of R143, and LBCC for those that change blocks. -/
def effectsPage : List Byte :=
  let e := fun (o : Nat) (v : Nat) => (o, leBytes 4 v)
  fieldBytes 4096 (([0x02, 0x06, 0x08, 0x09, 0x0A, 0x0C, 0x10, 0x11, 0x14, 0x18].map fun o => e (4 * o) 1)
    ++ [e (4 * 0x80) 3] ++ ([0x81, 0x82].map fun o => e (4 * o) 1)
    ++ [e 1024 1, e (1024 + 4 * 0x01) 3, e (1024 + 4 * 0x02) 1, e (1024 + 4 * 0x08) 3, e (1024 + 4 * 0x0C) 1,
        e (1024 + 4 * 0x79) 3, e (1024 + 4 * 0x7A) 1, e (1024 + 4 * 0x7D) 3])

/-- Log 06h: no operation in progress, and up to 20 results, newest first. -/
def selfTestPage (s : State) : List Byte :=
  let r := (List.range 20).flatMap fun i => leBytes 1 (s.host.dstResults.getD i 0xF) ++ zeros 27
  zeros 4 ++ r

/-- Log 0Ch: with RGO set, groups without their namespaces. -/
def anaPage (s : State) (rgo : Bool) : List Byte :=
  let f := s.cmd.fmt
  let g := anaGroups f
  let desc := fun x =>
    let ns := if rgo then [] else (List.range 9).filter fun n => nsExists f n && groupOf f n == x
    padTo 32 (leBytes 4 x ++ leBytes 4 ns.length ++ leBytes 8 s.host.anaCount ++ leBytes 1 (anaState s x)) ++ ns.flatMap (leBytes 4)
  padTo 16 (leBytes 8 s.host.anaCount ++ leBytes 2 g.length) ++ g.flatMap desc

/-- Log BFh: the changed zones of a namespace. -/
def zonesPage (t : Ctrl) (nsid : Nat) : List Byte :=
  let l := (t.changedZones.filter fun e => e.1 == nsid).map fun e => leBytes 8 (e.2 * 65536)
  if 511 < l.length then padTo 4096 (leBytes 2 0xFFFF) else padTo 4096 (leBytes 2 l.length ++ zeros 6 ++ l.flatten)

/-! ### Get Log Page (R144) -/

/-- LID and LSP of a Get Log Page. -/
def pageId (c : Capsule) : Nat := bits c.cdw10 0 8
def pageLsp (c : Capsule) : Nat := bits c.cdw10 8 7

/-- What a Get Log Page answers on a controller that is not a discovery controller: its status and data. -/
def logData (i : Nat) (t : Ctrl) (c : Capsule) (s : State) : (Nat × List Byte) × State :=
  let page := fun (p : List Byte) => ((stOk, pageSlice c p), s)
  let page' := fun (p : List Byte × State) => ((stOk, pageSlice c p.1), p.2)
  match pageId c with
  | 0x01 => page (errorPage t)
  | 0x02 => page' (smartPage s t)
  | 0x03 => page (fwPage s)
  | 0x04 =>
    let r := page (padTo 4096 (t.changedNs.flatMap (leBytes 4)))
    if bit c.cdw10 15 then r else (r.1, setCtrl i ((getCtrl s i).map fun u => { u with changedNs := [] }) s)
  | 0x05 => page effectsPage
  | 0x06 => page (selfTestPage s)
  | 0x0C => page (anaPage s (bit (pageLsp c) 0))
  | 0xBF =>
    let r := page (zonesPage t c.nsid)
    if bit c.cdw10 15 then r
    else (r.1, setCtrl i ((getCtrl s i).map fun u => { u with changedZones := u.changedZones.filter fun e => e.1 != c.nsid }) s)
  | 0xC0 => page' (redPage s)
  | 0xC1 => page (deferPage s)
  | 0xC2 => page (calPage s)
  | 0xC3 => page' (windowRead i (pageOff c) s)
  | 0xC4 =>
    match pageLsp c with
    | 0 => page (capIndex s)
    | 5 => ((stOk, replaySlice s c), s)
    | k + 1 => if k < 4 ∧ (getStream s k).frozen then ((stOk, streamSlice s k c), s) else ((stInvalidField, []), s)
  | _ => ((stLogPage, []), s)

/-- A fresh Get Log Page that a test picks, answered. -/
def getLog (p : Capsule → Bool) (s : State) : State :=
  withFresh (fun c => isAdmin 0x02 c && p c.cap) (fun c => withCtrl c fun t s =>
    if t.discovery then completeNow c stLogPage s
    else
      let r := logData c.ctrl t c.cap s
      answer c r.1 r.2) s

/-- GET_LOG_PAGE: every page but those with rows of their own. -/
def execGetLogPage (s : State) : Host.Outcome State Fault Refusal := act s
  (getLog fun c => !([0x70, 0xC3, 0xC4].contains (pageId c)))

/-- STRATA_WINDOW_LOG. -/
def execStrataWindowLog (s : State) : Host.Outcome State Fault Refusal := act s (getLog fun c => pageId c == 0xC3)

/-- CAPTURE_INDEX_LOG; an LSP that R442 does not list is an invalid field. -/
def execCaptureIndexLog (s : State) : Host.Outcome State Fault Refusal := act s
  (getLog fun c => pageId c == 0xC4 && (pageLsp c == 0 || decide (5 < pageLsp c)))

/-- CAPTURE_STREAM_LOG. -/
def execCaptureStreamLog (s : State) : Host.Outcome State Fault Refusal := act s
  (getLog fun c => pageId c == 0xC4 && decide (1 ≤ pageLsp c) && decide (pageLsp c ≤ 4))

/-- REPLAY_OUTPUT_LOG. -/
def execReplayOutputLog (s : State) : Host.Outcome State Fault Refusal := act s (getLog fun c => pageId c == 0xC4 && pageLsp c == 5)

/-! ### Firmware images (R146, R186) -/

/-- FIRMWARE_IMAGE_DOWNLOAD: image data, in the capsule or asked for by R2Ts, go into the slot that is not running (R146). -/
def execFirmwareImageDownload (s : State) : Host.Outcome State Fault Refusal := act s fun s =>
  withFresh (isAdmin 0x11) (fun c s =>
    let n := (c.cap.cdw10 + 1) * 4
    let off := c.cap.cdw11 * 4
    if slotSize s < off + n ∨ c.cap.data.length < n then completeNow c stInvalidField s
    else completeNow c stOk (flashPut (slotBase s (1 - s.host.running) + off) (c.cap.data.take n) s)) s

/-- The flash slot a Firmware Commit names; slot 0 leaves the choice to the device, which takes the one not running. -/
def commitSlot (s : State) (c : Capsule) : Option Nat :=
  match bits c.cdw10 0 3 with | 0 => some (1 - s.host.running) | 1 => some 0 | 2 => some 1 | _ => none

/-- An image verified as VERIFY_SLOT does (R118). -/
def verifyImage (k : Nat) (s : State) : Bool × State := let r := secVerifySlot k s; (r.result == 0, r.s)

/-- A fresh Firmware Commit of an action, on a slot whose image passes every check. -/
def fwCommit (ca : Nat) (runningOk : Bool) (f : Cmd → Nat → State → State) (s : State) : State :=
  withFresh (fun c => isAdmin 0x10 c && bits c.cap.cdw10 3 3 == ca) (fun c s =>
    match commitSlot s c.cap with
    | none => completeNow c stFwSlot s
    | some k =>
      if k = s.host.running ∧ runningOk = false then completeNow c stFwSlot s
      else
        let v := verifyImage k s
        if v.1 then f c k v.2 else completeNow c stFwImage v.2) s

/-- A slot named for trial at the next reset, ACTIVE unchanged; three attempts are allowed (log 53). -/
def nameTrial (k : Nat) (s : State) : State :=
  let s := writeBootRec (activeSlot s) k 3 s
  { s with host := { s.host with trial := some k } }

/-- FW_COMMIT_STORE; an action that R146 does not list is an invalid field. -/
def execFwCommitStore (s : State) : Host.Outcome State Fault Refusal := act s fun s =>
  withFresh (fun c => isAdmin 0x10 c && decide (3 < bits c.cap.cdw10 3 3)) (completeNow · stInvalidField)
    (fwCommit 0 false (fun c _ s => completeNow c stOk s) s)

/-- FW_COMMIT_STORE_TRIAL. -/
def execFwCommitStoreTrial (s : State) : Host.Outcome State Fault Refusal := act s
  (fwCommit 1 false fun c k s => completeNow c stOk (nameTrial k s))

/-- FW_COMMIT_TRIAL. -/
def execFwCommitTrial (s : State) : Host.Outcome State Fault Refusal := act s
  (fwCommit 2 true fun c k s => completeNow c stOk (nameTrial k s))

/-- FW_COMMIT_ACTIVATE: the activation begins, or is held while a fail-over or another one is in progress (R38, R186). -/
def execFwCommitActivate (s : State) : Host.Outcome State Fault Refusal := act s
  (fwCommit 3 true fun c k s =>
    startHeld (dropCmd c.seq { s with host := { s.host with heldActivations := s.host.heldActivations ++ [(c.ctx, c.cap.cid, k)] } }))

/-! ### NVMe-MI (R157) -/

/-- An answer on SMBus. -/
def miAnswer (code : Nat) (bytes : List Byte) (s : State) : State := emit (.smbus code bytes) s

/-- Invalid Command Opcode of NVMe-MI (PRESUMED, log 53). -/
abbrev miInvalidOpcode : Nat := 3

/-- Free bytes as an answer: what NVMe-MI leaves to the device and the spec does not say (log 53). -/
def miFree (n : Nat) (s : State) : State := let f := freeBytes n s; miAnswer 0 f.1 f.2

/-- The controller that a message addresses, as far as it matters to an answer. -/
def miCtrl (s : State) (i : Nat) : Ctrl := (getCtrl s i).getD { port := 0, hostNqn := 0, hostId := 0, kato := 0 }

/-- An MCTP control message: Set and Get Endpoint ID, version and message type support. -/
def miControl (m : MiMessage) (s : State) : State :=
  match m.opcode with
  | 1 => let e := bits m.dword0 0 8
         miAnswer 0 (leBytes 1 e) { s with host := { s.host with mctpEid := e } }
  | 2 => miAnswer 0 (leBytes 1 s.host.mctpEid) s
  | 4 => miFree 5 s
  | 5 => miAnswer 0 [1, 0x04] s
  | _ => miAnswer miInvalidOpcode [] s

/-- Configuration Set: SMBus frequency (1: 100 kHz, 2: 400 kHz), health status change, MCTP transmission unit. -/
def miConfigSet (m : MiMessage) (s : State) : State :=
  let h := s.host
  let v := bits m.dword0 8 24
  match bits m.dword0 0 8 with
  | 1 => if v = 1 ∨ v = 2 then miAnswer 0 [] { s with host := { h with smbusFreq := v } } else miAnswer 4 [] s
  | 2 => miAnswer 0 [] { s with host := { h with miHealth := 0 } }
  | 3 => if 64 ≤ m.dword1 ∧ m.dword1 ≤ 256 then miAnswer 0 [] { s with host := { h with mctpUnit := m.dword1 } } else miAnswer 4 [] s
  | _ => miAnswer 4 [] s

/-- The I/O controllers, by identifier. -/
def ioCtrls (s : State) : List Nat := (s.host.ctrls.filter fun e => match e.2 with | some t => !t.discovery | none => false).map (·.1)

/-- Read NVMe-MI Data Structure, by type: the subsystem with its one port and version 1.2; that port, on SMBus, at 400 kHz
and the device's address; the controllers; one controller, not a PCI function; other types are left open (log 53). -/
def miStructure (kind ctrl : Nat) (s : State) : State :=
  match kind with
  | 0 => miAnswer 0 (fieldBytes 32 [(1, [1, 2])]) s
  | 1 => miAnswer 0 (fieldBytes 32 [(0, [2]), (2, leBytes 2 256), (10, [0x3A, 2])]) s
  | 2 => let l := (ioCtrls s).filter fun i => decide (ctrl ≤ i)
         miAnswer 0 (leBytes 2 l.length ++ l.flatMap (leBytes 2)) s
  | 3 => miAnswer 0 (zeros 32) s
  | _ => miFree 32 s

/-- Composite temperature as NVMe-MI codes it in a byte: °C, from −60 to 127. -/
def miTemp (s : State) : Nat := unsgn 8 (max (-60) (min 127 (sgn 12 s.pwr.tmax / 4)))

/-- NVM Subsystem Health Status Poll: status (functional unless EXPOSED, no reset required), smart warnings inverted,
temperature; the life used and the composite controller status are left open (log 53). -/
def miSubsystemHealth (i : Nat) (s : State) : State :=
  let f := freeBytes 3 s
  miAnswer 0 (leBytes 1 (bnat (severityOf s.red != 2) * 32 + 16) ++ leBytes 1 (255 - criticalWarning s (miCtrl s i)) ++ leBytes 1 (miTemp s)
    ++ f.1 ++ zeros 2) f.2

/-- Controller Health Status Poll of one controller: its identifier, status (ready and shutdown), temperature in K, critical
warnings; life used and spare are left open (log 53). -/
def miControllerHealth (i : Nat) (s : State) : State :=
  let t := miCtrl s i
  let f := freeBytes 2 s
  miAnswer 0 (leBytes 2 i ++ leBytes 2 (bits t.cc 0 1 + t.shst * 4) ++ leBytes 2 (compositeTemp s) ++ f.1
    ++ leBytes 1 (criticalWarning s t) ++ zeros 7) f.2

/-- An NVMe-MI command. -/
def miCommand (m : MiMessage) (s : State) : State :=
  match m.opcode with
  | 0 => miStructure (bits m.dword0 24 8) (bits m.dword0 0 16) s
  | 1 => miSubsystemHealth m.ctrl s
  | 2 => miControllerHealth m.ctrl s
  | 3 => miConfigSet m s
  | 4 =>
    match bits m.dword0 0 8 with
    | 1 => miAnswer 0 (leBytes 1 s.host.smbusFreq) s
    | 2 => miAnswer 0 (leBytes 1 s.host.miHealth) s
    | 3 => miAnswer 0 (leBytes 2 s.host.mctpUnit) s
    | _ => miAnswer 4 [] s
  | 5 => miFree (bits m.dword1 0 16) s
  | _ => miAnswer miInvalidOpcode [] s

/-- A tunnelled Security Receive: reports carry NONCE 0 (R463). -/
def miReceive (c : Capsule) (s : State) : State :=
  match bits c.cdw10 24 8 * 65536 + bits c.cdw10 8 16 with
  | 0 => miAnswer 0 ((zeros 6 ++ [0, 2, 0x00, 0xF0]).take c.cdw11) s
  | 0xF00001 =>
    if 16 ≤ reportsWaiting s then miAnswer stInterrupted [] s
    else { s with sec := { s.sec with waiting := s.sec.waiting ++ [{ cmd := none, al := c.cdw11, nonce := zeros 32 }] } }
  | 0xF00002 =>
    let cert := flashBytes s 0x20000 30400
    miAnswer 0 ((if fieldN cert 0 4 = 0x4349515A then cert else []).take c.cdw11) s
  | 0xF00004 => miAnswer 0 (s.sec.challenge.take c.cdw11) s
  | _ => miAnswer stInvalidField [] s

/-- A tunnelled admin command: Identify, Get Log Page, Get Features, Security Receive. -/
def miAdmin (m : MiMessage) (c : Capsule) (s : State) : State :=
  let t := miCtrl s m.ctrl
  match c.opc with
  | 0x06 => let r := identifyData s t m.ctrl c; miAnswer r.1 r.2 s
  | 0x02 => let r := logData m.ctrl t c s; miAnswer r.1.1 r.1.2 r.2
  | 0x0A =>
    match featureValue s t (bits c.cdw10 0 8) c.cdw11 with
    | some v => miAnswer 0 (leBytes 4 v ++ (if bits c.cdw10 0 8 = 0x0C then padTo 256 t.apstTable else [])) s
    | none =>
      if bits c.cdw10 0 8 = 0x0E then miAnswer 0 (leBytes 6 (wallNow s) ++ leBytes 2 (if s.wall.valid then 2 else 0)) s else miAnswer stInvalidField [] s
  | 0x82 => miReceive c s
  | _ => miAnswer miInvalidOpcode [] s

/-- NVME_MI_MESSAGE: a message to the device's address, with a good PEC and of at most 4,224 bytes, is answered; another is
dropped (R157, log 53). -/
def execNvmeMiMessage (m : MiMessage) (s : State) : Host.Outcome State Fault Refusal := act s fun s =>
  if m.addr ≠ 0x1D ∨ m.pecOk = false ∨ 4224 < m.size then s
  else match m.kind with
    | 0 => miControl m s
    | 1 => miCommand m s
    | 2 => match m.admin with | some c => miAdmin m c s | none => miAnswer miInvalidOpcode [] s
    | _ => miAnswer miInvalidOpcode [] s

end Sys2Proof.Machine
end

