-- ==== Sys2Proof/Machine/RegRead.lean ====
section
/-! DEFINITION. What a read of a register returns: the levels and fields that are not words of the register file, the
64-bit counters with their holding registers, and the interrupt sources (R20, R72, R94, R97, R98 and the register tables of
every chapter). -/

namespace Sys2Proof.Machine

/-! ### SYS (R66, R103, R127, R419) -/

/-- The wedge rate that an actuator last measured lies within 5 % of nominal (R309). -/
def rateNear (s : State) (x n : Nat) : Bool :=
  let k := regF s (aBasCfg x) 11 13 * basWedges s x * (getAct s x n).wper
  decide (19 * k ≤ 20 * 15360000000000) && decide (20 * 15360000000000 ≤ 21 * k)

/-- The reference actuator that an island's PLL is locked to: the lowest-numbered one whose demodulator is LOCKED; none
while the measured wedge rate is too far off (R309). -/
def refAct (s : State) (x : Nat) : Option Nat :=
  match findFrom (fun n => serves s x n && (getAct s x n).locked) 0 4 with
  | some n => if rateNear s x n then some n else none
  | none => none

/-- SYS_CLK_STATUS. -/
def clkStatus (s : State) : Nat :=
  let p := s.pwr
  let b := [p.pllLocked, (getPort s 0).up, (getPort s 1).up, clkSrc s 0 != 3, clkSrc s 1 != 3, clkSrc s 2 != 3, clkSrc s 3 != 3,
    islClock s 0 && (refAct s 0).isSome, islClock s 1 && (refAct s 1).isSome, p.pllLocked && regB s aDramCfg 7, p.pllLocked, true, p.refOk]
  (b.zipIdx.map fun e => bnat e.1 * 2 ^ e.2).sum

/-- SYS_PWR_STATUS. -/
def pwrStatus (s : State) : Nat :=
  let p := s.pwr
  bnat p.coreOk + bnat p.islAOk * 2 + bnat p.islBOk * 4 + bnat p.mramOk * 8 + bnat p.ioOk * 16 + bnat p.refOk * 32
    + bnat p.xtalOk * 64 + bnat p.pwrFailHigh * 128

/-- RED_ISL_STATUS. -/
def redIslStatus (s : State) : Nat :=
  (getIsl s 0).st + (getIsl s 1).st * 8 + bnat (!s.red.xlinkUp) * 64 + bnat (faultPresent s 0x10 0) * 128
    + bnat (faultPresent s 0x10 1) * 256 + bnat (s.red.faults.any fun f => f.1 == 0x11) * 512

/-- RED_CLU_STATE. -/
def redCluState (s : State) : Nat := ((List.range 8).map fun c => (getClu s c).st * 8 ^ c).sum

/-- CLU_STATUS of a cluster. -/
def cluStatus (s : State) (c : Nat) : Nat :=
  ((List.range 8).map fun k => bnat (getHart s (8 * c + k)).isSome * 2 ^ k).sum + bnat (isolated s c) * 256

/-! ### HSL, CHAN (R232, R272, R299) -/

/-- A lane delivers a stream: it is UP and its frames carry samples (R206, R211). -/
def streaming (s : State) (n l : Nat) : Bool :=
  let x := getLane (getHsl s n) l
  x.st == 3 && decide (x.ptype ≤ 1)

/-- CHAN_STATUS. -/
def chanStatus (s : State) : Nat := ((List.range 12).map fun k => bnat (decBusy s k) * 2 ^ k).sum + bnat (ddbFull s) * 4096

/-- CHLn_STATUS. -/
def chlStatus (s : State) (n : Nat) : Nat :=
  let l := getCh s n
  bnat l.busy + bnat (streaming s n 0) * 2 + bnat (streaming s n 1) * 4
    + bnat (s.cap.rplState == 1 && s.cap.rplKind == 1 && s.cap.rplUnit == n) * 8 + Nat.min 12 (held s n) * 16
    + Nat.min 8 (l.sectors.filter fun x => x.res == 0 && x.passed).length * 256

/-- WRn_STATUS. -/
def wrStatus (s : State) (n : Nat) : Nat :=
  let l := getCh s n
  bnat (l.busy && l.write) + bnat (wrInhibit s n) * 2 + bnat (streaming s n 2) * 4 + bits l.revs 0 5 * 256 + bits (openSlots l) 0 12 * 65536

/-- WR_SHOCK_STATUS. -/
def shockStatus (s : State) : Nat := let k := s.chan.shock; bnat k.active + bits k.above 0 2 * 2 + bnat k.intHeld * 8

/-! ### SEQ, BAS, TANDEM (R338, R339, R396) -/

/-- SEQ_STATUS. -/
def seqStatus (s : State) (n : Nat) : Nat :=
  let q := getSq s n
  bits q.pc 0 13 + bnat q.waiting * 2 ^ 13 + bits q.wcond 0 6 * 2 ^ 14 + bnat q.inOp * 2 ^ 20 + bits q.active 0 2 * 2 ^ 21
    + bnat q.pend.isSome * 2 ^ 23 + bnat (q.pend.isSome && switchHeld s) * 2 ^ 24 + bnat q.clkB * 2 ^ 25 + bits q.stack.length 0 3 * 2 ^ 26

/-- BAS_STATUS. -/
def basStatus (s : State) (x : Nat) : Nat :=
  match refAct s x with
  | some n => 1 + n * 2 + bnat s.red.xlinkUp * 8
  | none => bnat s.red.xlinkUp * 8

/-- BAS_ACTn_STATE. -/
def basActState (s : State) (x n : Nat) : Nat :=
  let a := getAct s x n
  bits a.mode 0 3 + bits a.bank 0 1 * 8 + bnat a.locked * 16 + bnat a.armed.isSome * 32 + Nat.min 16 a.coast * 64 + bnat a.rvOn * 2048
    + bnat a.safeParked * 4096 + bnat a.deadline * 8192

/-- TDM_STATUS. -/
def tdmStatus (s : State) : Nat := bnat (tlsLock s) + bits s.tls.last7 0 3 * 2 + bits s.tls.spin 0 16 * 65536

/-! ### ASSIST, CAL (R365) -/

/-- ASSIST_ACTn_STATUS. -/
def astStatus (s : State) (n : Nat) : Nat :=
  let a := getAst s n
  let t := smGet (fun _ => 0) s.cal.trips (8 * n + a.head)
  bits a.head 0 3 + bits a.band 0 5 * 8 + bnat a.ast.en * 256 + bnat a.htr.en * 512 + bnat (bit t 0) * 1024 + bnat (bit t 1) * 2048
    + bnat (decide (a.stale < 16)) * 4096 + bnat (a.ast.d != 0 || a.htr.d != 0) * 8192

/-- CAL_TEMP. -/
def calTemp (s : State) : Nat :=
  unsgn 16 s.cal.td + bits s.cal.tsrc 0 2 * 2 ^ 16 + ((List.range 4).map fun k => bnat (smGet (fun _ => {}) s.cal.sens k : Sensor).valid * 2 ^ (18 + k)).sum

/-! ### HOST, CMD (R158, R198) -/

/-- HOST_Pp_STATUS. -/
def portStatus (s : State) (p : Nat) : Nat :=
  let k := getPort s p
  bnat k.up + bits (if k.up then k.rate else 3) 0 2 * 2 + bits k.fec 0 2 * 8 + bnat k.failed * 32 + bnat k.paused * 64

/-- CMD_STATE. -/
def cmdState (s : State) : Nat := bnat s.cmd.recovered + bnat (!intakeOpen s) * 2 + bits s.cmd.ps 0 3 * 16 + bnat s.cmd.moving * 128

/-- SCHn_STATUS. -/
def schStatus (s : State) (n : Nat) : Nat :=
  let d := getSched s n
  let reads := (d.window.filter fun e => e.kind == 0).length
  let writes := (d.window.filter fun e => e.kind == 1).length
  let oldest := (d.window ++ d.queue).foldl (fun m e => Nat.max m ((s.now - e.since) / 1000000)) 0
  Nat.min 192 reads + Nat.min 192 writes * 256 + Nat.min 65535 oldest * 65536

/-! ### STRATA, SEC (R447, R465) -/

/-- CAPk_STATUS. -/
def capStatus (s : State) (k : Nat) : Nat :=
  let t := getStream s k
  bnat t.frozen + bnat t.freezing * 2 + bits t.trigger 0 8 * 256

/-- A word of the window on the SRAM ring (R436, R447). -/
def windowWord (s : State) (o : Nat) : Nat :=
  if s.strata.onMirror then 0
  else leNat ((List.range 4).map fun i => ringByte s.strata.ring sramSize (regF s aStrataCtl 8 3 * 524288 + o + i))

/-! ### Interrupt sources (R72, R233, R273, R300, R340, R366, R397, R420, R448, R466) -/

/-- Something of an island asks for attention: SAFE_PARKED or DEADLINE. -/
def islAlarm (s : State) (x : Nat) : Bool := (List.range 4).any fun n => let a := getAct s x n; a.safeParked || a.deadline

/-- A group's lanes that should be UP are not. -/
def lanesDown (s : State) (n : Nat) : Bool :=
  ([0, 1, 2].any fun l => regB s (aHslCtl n) (8 + l) && !laneUp s n l) || (regB s (aHslCtl n) 0 && !downUp s n)

/-- An interrupt source is asserted. -/
def asserted (s : State) (src : Nat) : Bool :=
  if 32 ≤ src ∧ src < 48 then
    let n := (src - 32) / 4
    match src % 4 with
    | 0 => lanesDown s n
    | i => bit (hslStatus s n) (if i = 1 then 12 else if i = 2 then 13 else 15)
  else if 72 ≤ src ∧ src < 76 then regF s (aSeqCplIdx (src - 72)) 16 8 != regF s (aSeqCplIdx (src - 72)) 0 8
  else match src with
    | 48 => reg s aDdbEvents != reg s aDdbSeen
    | 49 => ddbFull s
    | 50 => s.chan.shock.active
    | 56 => islAlarm s 0
    | 57 => islAlarm s 1
    | 58 => (regB s aTdmCtl 2 && !tlsLock s) || (List.range 4).any fun n => regB s (aTdmDrv n) 22 || regB s (aTdmDrv n) 23
    | 64 => s.cal.due != 0
    | 65 => ((List.range 32).any fun h => regB s aCalPresent h && smGet (fun _ => 0) s.cal.trips h != 0) ||
        (List.range 4).any fun n => decide (16 ≤ (getAst s n).stale) && ((getAst s n).ast.en || (getAst s n).htr.en)
    | 80 => takingOver s
    | 81 => reg s aRedEvents != reg s aRedSeen
    | 88 => s.strata.onMirror
    | 89 => (List.range 4).any fun k => capEnabled s k && (getStream s k).frozen
    | 90 => s.cap.rplState == 2
    | 96 => s.sec.done
    | _ => false

/-- SYS_IRQ_PENDh.w: the asserted sources routed to a hart and enabled (R72). -/
def irqPend (s : State) (h w : Nat) : Nat :=
  ((List.range 32).map fun i =>
    let src := 32 * w + i
    bnat (regF s (aIrqRoute src) 0 6 == h && regB s (aIrqRoute src) 6 && asserted s src) * 2 ^ i).sum

/-! ### The 64-bit counters (R22, R98) -/

/-- The designated 64-bit counter whose low word stands at an address. -/
def counter64 (s : State) (a : Nat) : Option Nat :=
  let o := a % 0x10000
  if a = aTimebaseLo then some s.now
  else if a = aIntakeSeqLo then some s.cmd.nextSeq
  else if a = aStrataHeadLo then some s.strata.head
  else if a = aStrataMheadLo then some s.mirror.mhead
  else if a = aWallNowLo then some (wallNow s)
  else if a = aDramCeLo ∨ a = aFecCorrLo 0 ∨ a = aFecCorrLo 1 ∨ a = aTdmFramesLo 0 ∨ a = aTdmFramesLo 1
      ∨ (List.range 8).any (fun c => a == aL2CeLo c)
      ∨ (0x12000000 ≤ a ∧ a < 0x12040000 ∧ o = 0x160)
      ∨ (List.range 4).any (fun k => a == aGarnetIter k || a == aCapWrLo k)
      ∨ (List.range (actCount s)).any (fun n => a == aChlConf n || a == aChlIter n || a == aWrWritten n || a == aWrPass n)
      ∨ (List.range 32).any (fun h => a == aCalLastTbLo h || a == aCalLastWallLo h) then some (wide s a)
  else if 0x12000000 ≤ a ∧ a < 0x12040000 ∧ 0x100 ≤ o ∧ o < 0x160 ∧ (o % 0x20 = 0 ∨ o % 0x20 = 8) then
    some (wide (upView s (a / 0x10000 % 4)) a)
  else none

/-! ### One register -/

/-- Registers of actuators a BF does not have read 0 (R198, R272, R299, R338, R365). -/
def absentReg (s : State) (a : Nat) : Bool :=
  let gone := fun (lo step : Nat) => decide (lo + actCount s * step ≤ a) && decide (a < lo + 4 * step)
  gone (aChlCtl 0) 0x100 || gone (aWrCtl 0) 0x100 || gone (aSchCfg 0) 0x20 || gone (aBasCmd 0 0) 0x40 || gone (aBasCmd 1 0) 0x40
    || gone (aAstCtl 0) 0x100

/-- A register of the SYS block and the indirect pairs. -/
def readSys (s : State) (a : Nat) : Nat :=
  if a = aSysId then sysId s
  else if a = aClkStatus then clkStatus s
  else if a = aRstcause then s.pwr.cause + s.pwr.resetCount * 65536
  else if a = aThermStatus then thermStatus s
  else if a = aPwrStatus then pwrStatus s
  else if a = aOspiCmd then reg s a + bnat s.boot.busy * 2 ^ 31
  else if a = aOspiStatus then bnat s.boot.busy + s.boot.fifo.length * 256
  else if a = aRedIslStatus then redIslStatus s
  else if a = aRedCluState then redCluState s
  else if a = aRedHealth then redFlags s + severityOf s.red * 2 ^ 20
  else if a = aRedDecRetired then bits s.red.decRetired 0 12
  else if 0x10001000 ≤ a ∧ a < 0x10001800 ∧ a % 0x100 = 4 then cluStatus s (a / 0x100 % 8)
  else if 0x10003000 ≤ a ∧ a < 0x10003800 then irqPend s ((a - 0x10003000) / 0x20) (a / 4 % 8)
  else if 0x10010000 ≤ a ∧ a < 0x10010800 ∧ a % 0x100 = 0xC then reg s a + bnat (getInd s (a / 0x100 % 8)).busy.isSome * 2
  else reg s a

/-- A register of a sequencer or HSL group. -/
def readActBlock (s : State) (a : Nat) : Nat :=
  let n := a / 0x10000 % 0x100
  let o := a % 0x10000
  if 0x12000000 ≤ a then (if o = 4 then hslStatus s n else if fromUp n a then reg (upView s n) a else reg s a)
  else if o = 4 then seqStatus s n
  else if o = 0x10 then (getSq s n).pend.getD (getSq s n).active
  else if o = 0x18 then reg s a % 2 ^ 31 + bnat (getSq s n).loading.isSome * 2 ^ 31
  else if 0x80 ≤ o ∧ o < 0xC0 then getG s n ((o - 0x80) / 4)
  else reg s a

/-- A register of the CHAN block. -/
def readChan (s : State) (a : Nat) : Nat :=
  let n := a / 0x100 % 0x10
  if a = 0x13000004 then chanStatus s
  else if a = aShockStatus then shockStatus s
  else if a = aChlStatus n then chlStatus s n
  else if a = aWrStatus n then wrStatus s n
  else if 0x13004000 ≤ a ∧ a < 0x13004000 + 4 * 1080 then
    (Config.ldpcH ((a - 0x13004000) / 2)).toNat + (Config.ldpcH ((a - 0x13004000) / 2 + 1)).toNat * 65536
  else reg s a

/-- The state as a read meets it in a domain whose clock has stopped: what last crossed (R23). -/
def lastCrossed (s : State) (d : Nat) : State :=
  match getCrossed s d with
  | none => s
  | some c =>
    let s := { s with regs := c.regs, wide := c.wide }
    if d < 2 then setBas d c.isl s else s

/-- A register of an island, or of the ASSIST and CAL block. -/
def readServo (s : State) (a : Nat) : Nat :=
  if a < 0x15000000 then
    let x := a / 0x8000 % 2
    let o := a % 0x8000
    let s := lastCrossed s x
    if o = 4 then basStatus s x
    else if 0x100 ≤ o ∧ o < 0x200 ∧ o % 0x40 = 0x10 then basActState s x (o / 0x40 % 4)
    else reg s a
  else if a = aCalTemp then calTemp s
  else if a = aCalDue then s.cal.due
  else if a = aCalPending then s.cal.pending
  else if 0x15001000 ≤ a ∧ a < 0x15001400 ∧ a % 0x100 = 0xC then astStatus s (a / 0x100 % 4)
  else reg s a

/-- A register of the HOST or the CMD block. -/
def readHost (s : State) (a : Nat) : Nat :=
  if a = aCtxStatus then setBits (reg s a) 0 11 (ctxUsed s)
  else if a = aPortStatus 0 then portStatus s 0
  else if a = aPortStatus 1 then portStatus s 1
  else if a = aCmdState then cmdState s
  else if a = aPoolStatus then poolUsed s 0 + poolUsed s 1 * 65536
  else if a = aZoneOpenStatus then openCount s + activeCount s * 65536
  else if a = aJrnSlots then jrnSlots s
  else if a = aJrnFree then (if s.cmd.recovered then jrnFree s else 0)
  else if a = aJrnRecordsFree then (if s.cmd.recovered then jrnRecordsFree s else 0)
  else if a = aJrnDeferHeld then (if s.cmd.recovered then deferHeld s else 0)
  else if 0x17000200 ≤ a ∧ a < 0x17000280 ∧ a % 0x20 = 4 then schStatus s (a / 0x20 % 4)
  else if 0x17000200 ≤ a ∧ a < 0x17000280 ∧ a % 0x20 = 0xC then schState s (a / 0x20 % 4)
  else reg s a

/-- A register of the STRATA, SEC or TANDEM block. -/
def readRec (s : State) (a : Nat) : Nat :=
  if a = aStrataCtl then reg s a + bnat s.strata.retest * 4
  else if a = aStrataStatus then bnat s.strata.onMirror + bnat s.strata.mirrorRun * 2
  else if a = aStrataLife then (if s.strata.mirrorRun then s.mirror.life else 0)
  else if a = aWallStatus then s.wall.epoch % 256 + bnat s.wall.valid * 256
  else if 0x18000200 ≤ a ∧ a < 0x18000280 ∧ a % 0x20 = 0x14 then capStatus s (a / 0x20 % 4)
  else if a = aRplCtl then setBits (reg s a) 0 1 (bnat (s.cap.rplState == 1))
  else if a = aRplStatus then rplStatus s
  else if 0x18010000 ≤ a ∧ a < 0x18014000 then 0
  else if strataWindow ≤ a ∧ a < 0x18100000 then windowWord s (a - strataWindow)
  else if a = aSecState then secState s
  else if a = aSecSvn then secSvnReg s
  else if a = aSecCmd then reg s a % 2 ^ 31 + bnat s.sec.cmd.isSome * 2 ^ 31
  else if a = aSecCmdStatus then setBits (reg s a) 0 1 (bnat s.sec.done)
  else if aSecDeviceId 0 ≤ a ∧ a < aSecDeviceId 8 then fieldN (deviceId s) (a - aSecDeviceId 0) 4
  else if a = aTdmStatus then tdmStatus s
  else reg s a

/-- What a register shows, without the effects a read may have. A register that no table lists reads 0 (log 54). -/
def viewReg (s : State) (a : Nat) : Nat :=
  if absentReg s a then 0
  else if a < 0x11000000 then readSys s a
  else if a < 0x13000000 then readActBlock s a
  else if a < 0x14000000 then readChan s a
  else if a < 0x16000000 then readServo s a
  else if a < 0x18000000 then readHost s a
  else readRec s a

/-- An aligned 32-bit read of a register, with its effects: a counter's low word latches its high word, and the flash FIFO
gives up 4 bytes (R97, R98, R127). -/
def readReg (a : Nat) (s : State) : Nat × State :=
  match counter64 s a with
  | some v => (v % 2 ^ 32, setReg (a + 4) (v / 2 ^ 32) s)
  | none => if a = aOspiData then readOspiData s else (viewReg s a % 2 ^ 32, s)

end Sys2Proof.Machine
end

