-- ==== Sys2Proof/Machine/Strata.lean ====
section
/-! DEFINITION. The Strata event recorder's own commands: taking and copying records, firmware's records, snapshots,
the wall clock, and the failure of the recorder's memory (R424–R437, R447). -/

namespace Sys2Proof.Machine

/-- RECORDER_TAKE (R424). -/
def execRecorderTake (s : State) : Host.Outcome State Fault Refusal := act s takeRecord


/-- SUPPRESSED (R427): a bucket of a source and code with suppressed events holds a token again. -/
def execSuppressed (src : Fin 64) (code : Fin 4096) (s : State) : Host.Outcome State Fault Refusal := act s fun s =>
  if oneToken ≤ bucketTokens s src.val code.val ∨ rateOf s code.val = 0 then makeSuppressed src.val code.val s else s

/-- The payload words that a hart's FWh_DATA registers hold. -/
def fwArgs (s : State) (h words : Nat) : List Nat :=
  (List.range (words / 2)).map fun i => reg s (aFwData h (2 * i)) + reg s (aFwData h (2 * i + 1)) * 2 ^ 32

/-- A write to FWh_CMD (R425). -/
def writeFwCmd (h v : Nat) (s : State) : State :=
  let code := bits v 0 12
  let words := bits v 16 6
  if code < 0x800 ∨ words % 2 = 1 ∨ 60 < words then incReg (aStrataCount 5) s
  else record (srcClu (h / 8)) code (fwArgs s h words) s

/-- FW_RECORD (R425). -/
def execFwRecord (h : Fin 64) (v : Nat) (s : State) : Host.Outcome State Fault Refusal := act s (writeFwCmd h.val v)

/-! ### STRATA_CTL (R432, R434, R437) -/

/-- A snapshot of the ring's head and of every source's last SEQ (R432). -/
def takeSnap (s : State) : State :=
  let s := setReg aSnapHeadLo s.strata.head (setReg aSnapHeadHi (s.strata.head / 2 ^ 32) s)
  forTo (fun k t => setReg (aSnapSeq k) (if nextSeq t k = 0 then 2 ^ 32 - 1 else nextSeq t k - 1) t) 64 s

/-- The wall clock set to a value in ms, in a new epoch, with its WALL_SET record (R434, R435). -/
def setWall (new : Nat) (s : State) : State :=
  let old := wallNow s
  let s := openEpoch 1 new s
  record srcSys 3 [old, new, s.wall.epoch, bnat (decide (new < old))] s

/-- A record numbered and put before every record that waits: the first the recorder writes next (R436, R437). -/
def enqueueFirst (src code : Nat) (args : List Nat) (s : State) : State :=
  let q := nextSeq s src
  let r : Rec := { src, code, epoch := s.wall.epoch, seq := q % 2 ^ 32, tb := s.now, args := args.map (· % 2 ^ 64) }
  { s with strata := { s.strata with seqs := smSet (fun _ => 0) s.strata.seqs src (q + 1), queue := r :: s.strata.queue } }

/-- The records of the SRAM ring not yet in the mirror. -/
def uncopied (s : State) : Nat := (s.strata.ring.filter fun e => decide (s.strata.copied ≤ e.1)).length

/-- An uncorrectable error of the SRAM ring: mirror mode, and nothing more for one met in mirror mode (R436, R437).
The records not copied by then are lost to the mirror (DESIGN CHOICE, log 25). -/
def sramFault (off : Nat) (s : State) : State :=
  if s.strata.onMirror then s
  else
    let s := addFault 0x44 0 (incReg (aStrataCount 4) { s with strata := { s.strata with onMirror := true } })
    enqueueFirst srcStrata 0xC1 [off, uncopied s] s


/-- MIRROR_COPY (R429, R430): the oldest record not yet copied goes to the mirror; `err` is what its read from the SRAM ring meets
(R436). -/
def execMirrorCopy (err : MemErr) (s : State) : Host.Outcome State Fault Refusal := actSev s fun s =>
  if s.strata.mirrorRun && !s.strata.onMirror && !s.strata.stopped then
    match nextUncopied s, err with
    | none, _ => s
    | some _, .good => copyOne s
    | some _, .corrected => copyOne (incReg (aStrataCount 3) s)
    | some e, .uncorrectable => sramFault (e.1 % sramSize) s
  else s

/-- SRAM_SCRUB (R428, R436): the scrubber's pass, with the errors it met. -/
def execSramScrub (corrected : Nat) (bad : Option (Fin 4194304)) (s : State) : Host.Outcome State Fault Refusal :=
  actSev s fun s =>
    if s.strata.onMirror then s
    else
      let s := incRegBy (aStrataCount 3) corrected s
      match bad with
      | none => s
      | some off => sramFault off.val s

/-- A write to STRATA_CTL. -/
def writeStrataCtl (v : Nat) (s : State) : State :=
  let s := writeFields aStrataCtl [⟨8, 3, .rw, fun _ => true⟩] v s
  let s := if bit v 0 then takeSnap s else s
  let s := if bit v 1 then setWall (reg s aWallNewLo + reg s aWallNewHi * 2 ^ 32) s else s
  if bit v 2 && s.strata.onMirror then { s with strata := { s.strata with retest := true } } else s

/-- What STRATA_CTL holds: the fields that are no commands (R447). -/
def strataCtl (s : State) : Nat := regF s aStrataCtl 8 3 * 256

/-- SNAP (R432). -/
def execSnap (s : State) : Host.Outcome State Fault Refusal := act s fun s => writeStrataCtl (strataCtl s + 1) s

/-- WSET (R434). -/
def execWset (s : State) : Host.Outcome State Fault Refusal := act s fun s => writeStrataCtl (strataCtl s + 2) s

/-- RETEST_STRATA (R437). -/
def execRetestStrata (s : State) : Host.Outcome State Fault Refusal := act s fun s =>
  writeStrataCtl (strataCtl s + 4) s

/-- RETEST_STRATA_DONE (R437). -/
def execRetestStrataDone (pass : Bool) (s : State) : Host.Outcome State Fault Refusal := actSev s fun s =>
  if !s.strata.retest then s
  else
    let s := { s with strata := { s.strata with retest := false } }
    if !pass then s
    else
      let h := up64k s.mirror.mhead
      let s := clearFault 0x44 0
        { s with strata := { s.strata with onMirror := false, head := h, ring := [], copied := h, mbase := 0 } }
      enqueueFirst srcStrata 0xC2 [] s

/-! ### The timestamp feature (R434) -/

/-- SET_TIMESTAMP (R434): 48 bits of milliseconds in the command's data. -/
def execSetTimestamp (s : State) : Host.Outcome State Fault Refusal := act s fun s =>
  withFresh (isSetFeature (· == 0x0E)) (fun c s => completeNow c stOk (setWall (leNat (c.cap.data.take 6)) s)) s

/-- GET_TIMESTAMP (R434): WALL_NOW, with Timestamp Origin 001b while the clock is valid. -/
def execGetTimestamp (s : State) : Host.Outcome State Fault Refusal := act s fun s =>
  withFresh (fun c => isAdmin 0x0A c && bits c.cap.cdw10 0 8 == 0x0E)
    (fun c s => returnData c (leBytes 6 (wallNow s) ++ leBytes 2 (if s.wall.valid then 2 else 0)) s) s

end Sys2Proof.Machine
end

