-- ==== Sys2Proof/Machine/Bus.lean ====
section
/-! DEFINITION. The register bus: every write and read an engine or the JTAG debug module makes, routed to the register's
own behaviour or performed under the access types, and their error responses (R10, R11, R86, R92–R102, R454). -/

namespace Sys2Proof.Machine

/-! ### Fields of plain registers -/

/-- One field over the whole register. -/
def whole : List Fld := [{ lo := 0, len := 32 }]

/-- One field. -/
def one (lo len : Nat) : List Fld := [{ lo, len }]

/-- A range of legal encodings. -/
def within (lo hi v : Nat) : Bool := decide (lo ≤ v) && decide (v ≤ hi)

/-- A temperature threshold's legal encodings: up to +135.0 °C (R66, log 54). -/
def thermLegal (v : Nat) : Bool := decide (sgn 12 v ≤ 0x21C)

/-- A write to SYS_THERM_CFG: WARN and CRIT are judged by the thresholds that stand now (R59, R66). -/
def writeThermCfg (v : Nat) (s : State) : State :=
  judgeTherm (writeFields aThermCfg [{ lo := 0, len := 12, legal := thermLegal }, { lo := 16, len := 12, legal := thermLegal }] v s)

/-- Plain registers of the SYS block and of the indirect pairs (R103, R127, R419). -/
def sysFields (a : Nat) : List Fld :=
  if a = aDramScrub then [{ lo := 0, len := 8, legal := within 1 168 }]
  else if a = aBootStatus then [{ lo := 0, len := 2, acc := .rw1 }, { lo := 2, len := 2, acc := .rw1 }, { lo := 4, len := 4, acc := .rw1 },
    { lo := 8, len := 4, acc := .rw1 }, { lo := 12, len := 4, acc := .rw1 }, { lo := 16, len := 2, acc := .rw1 }]
  else if a = aBootGen ∨ a = aBootTime then [{ lo := 0, len := 32, acc := .rw1 }]
  else if a = aOspiAddr ∨ a = aRedSeen then whole
  else if a = aRedCfg then [{ lo := 0, len := 10, legal := within 50 500 }, { lo := 12, len := 1 }, { lo := 13, len := 1 },
    { lo := 16, len := 4, legal := fun v => v != 0 }]
  else if a = aRedTestWin then one 0 14
  else if 0x10001000 ≤ a ∧ a < 0x10001800 ∧ 0x40 ≤ a % 0x100 ∧ a % 0x100 < 0x80 then one 0 16
  else if 0x10002000 ≤ a ∧ a < 0x10002400 then [{ lo := 0, len := 6 }, { lo := 6, len := 1 }]
  else if 0x10004000 ≤ a ∧ a < 0x10004200 ∧ a % 8 = 0 then whole
  else if 0x10004200 ≤ a ∧ a < 0x10004300 then one 2 30
  else if 0x10010000 ≤ a ∧ a < 0x10010800 ∧ a % 0x100 = 8 then one 0 1
  else []

/-- Plain registers of a sequencer (R396). -/
def seqFields (s : State) (a : Nat) : List Fld :=
  let n := a / 0x10000 % 0x100
  let o := a % 0x10000
  if o = 0x14 then whole
  else if o = 0x48 ∨ o = 0x50 then [{ lo := 0, len := 8, legal := fun v => decide (v < 2 ^ regF s (aSeqOpqCfg n) 0 4) }]
  else if o = 0x54 then [{ lo := 0, len := 10, legal := within 10 1000 }]
  else []

/-- Plain registers of the CHAN block (R245, R272, R281, R299). -/
def chanFields (a : Nat) : List Fld :=
  if a = aDdbSeen ∨ 0x13080000 ≤ a then whole
  else if a = aShockCfg then [{ lo := 0, len := 8, legal := within 8 255 }, { lo := 8, len := 8, legal := within 1 200 },
    { lo := 16, len := 1 }, { lo := 17, len := 1 }, { lo := 18, len := 1 }]
  else if 0x13001000 ≤ a ∧ a < 0x13001400 ∧ a % 0x100 = 0 then
    [{ lo := 0, len := 1 }, { lo := 1, len := 1 }, { lo := 2, len := 1 }, { lo := 3, len := 1 }, { lo := 8, len := 8 },
     { lo := 16, len := 8, legal := within 1 0x40 }]
  else []

/-- Plain registers of the islands and the TANDEM block (R338, R339). -/
def servoFields (a : Nat) : List Fld :=
  if a = aAccScale then whole
  else if 0x15000000 ≤ a then []
  else
    let o := a % 0x8000
    if o = 0x10 then [{ lo := 0, len := 13, legal := fun v => v == 0 || within 1800 7200 v }]
    else if 0x100 ≤ o ∧ o < 0x200 then
      (match o % 0x40 with | 4 => one 0 22 | 8 => one 0 16 | 0xC => whole | _ => [])
    else []

/-- Plain registers of the ASSIST and CAL block (R365). -/
def calFields (a : Nat) : List Fld :=
  if a = aCalCfg then [{ lo := 0, len := 8, legal := within 8 0xA0 }, { lo := 8, len := 1 }]
  else if a = aCalTempOvr then one 0 16
  else if a = aCalPresent then whole
  else if 0x15000040 ≤ a ∧ a < 0x15000060 ∧ a % 8 = 0 then
    [{ lo := 0, len := 1 }, { lo := 1, len := 7 }, { lo := 8, len := 7, legal := fun v => v != 0 && v != 0x7E }, { lo := 16, len := 8 },
     { lo := 24, len := 4, legal := within 0 8 }]
  else if 0x15001000 ≤ a ∧ a < 0x15001400 then
    (match a % 0x100 with | 0 => [{ lo := 0, len := 1 }, { lo := 1, len := 1 }, { lo := 2, len := 1 }] | 4 => whole | 8 => whole | _ => [])
  else []

/-- Plain registers of the HOST and CMD blocks (R158, R198). -/
def hostFields (s : State) (a : Nat) : List Fld :=
  if a = aSlowRxBase ∨ a = aSlowTxBase then whole
  else if a = aSlowCfg then [{ lo := 0, len := 4, legal := within 4 10 }, { lo := 4, len := 4, legal := within 4 10 }, { lo := 8, len := 1 }]
  else if a = aSlowRxIdx then one 16 10
  else if a = aPortCfg 0 ∨ a = aPortCfg 1 then
    [{ lo := 0, len := 14, legal := within 1500 9000 }, { lo := 14, len := 1 }, { lo := 16, len := 3 },
     { lo := 19, len := 12, legal := within 1 4094 }]
  else if a = aPortMacLo 0 ∨ a = aPortMacLo 1 then whole
  else if a = aPortMacHi 0 ∨ a = aPortMacHi 1 then one 0 16
  else if 0x16000400 ≤ a ∧ a < 0x16000600 ∧ a % 0x100 < 0xC0 ∧ 4 ≤ a % 0x20 ∧ a % 0x20 < 0x14 then whole
  else if a = aJrnDeferLimit then [{ lo := 0, len := 18, legal := fun v => decide (v ≤ jrnSlots s / 2) }]
  else if 0x17000200 ≤ a ∧ a < 0x17000280 ∧ a % 0x20 = 0 then
    [{ lo := 0, len := 11, legal := within 50 1000 }, { lo := 16, len := 7, legal := within 5 75 }]
  else if a = aPatrolCfg then
    [{ lo := 0, len := 1 }, { lo := 8, len := 9, legal := within 1 365 }, { lo := 24, len := 8, legal := fun v => v != 0 }]
  else []

/-- Plain registers of the STRATA and SEC blocks (R447, R465). -/
def recFields (a : Nat) : List Fld :=
  if a = aWallNewLo ∨ a = aWallNewHi ∨ a = aRplSrc ∨ a = aRplOut ∨ a = aSecCmdIn ∨ a = aSecCmdOut then whole
  else if 0x18010000 ≤ a ∧ a < 0x18014000 ∧ a % 0x100 < 0xF0 then whole
  else if 0x18020000 ≤ a ∧ a < 0x18024000 then [{ lo := 0, len := 16 }, { lo := 16, len := 8, legal := fun v => v != 0 }]
  else []

/-- The fields that a plain write to a register meets: none where every field is read-only or the register is none of
any table. -/
def plainFields (s : State) (a : Nat) : List Fld :=
  if absentReg s a then []
  else if a < 0x11000000 then sysFields a
  else if a < 0x12000000 then seqFields s a
  else if a < 0x13000000 then []
  else if a < 0x14000000 then chanFields a
  else if a < 0x15000000 ∨ 0x1A000000 ≤ a then servoFields a
  else if a < 0x16000000 then calFields a
  else if a < 0x18000000 then hostFields s a
  else recFields a

/-- A write to a register with no behaviour of its own (R94, R97). -/
def writePlain (a v : Nat) (s : State) : State :=
  match plainFields s a with
  | [] => s
  | fs => writeFields a fs v s

/-! ### Registers whose write is more than its fields -/

/-- A write to HOST_LISTEN: DISC_PORT is judged with the IO_PORT that stands after the same write (R158, log 54). -/
def writeListen (v : Nat) (s : State) : State :=
  let io := if bits v 0 16 = 0 then regF s aHostListen 0 16 else bits v 0 16
  writeFields aHostListen [{ lo := 0, len := 16, legal := fun x => x != 0 }, { lo := 16, len := 16, legal := fun x => x != 0 && x != io }] v s

/-- A write to CHAN_CTL: DDB_EN may be set only with a ring of 16 entries or more (R272). -/
def writeChanCtl (v : Nat) (s : State) : State :=
  writeFields aChanCtl [{ lo := 0, len := 1, legal := fun x => x == 0 || decide (16 ≤ ddbEntries s) }, { lo := 4, len := 3, legal := fun x => x != 7 }] v s

/-- A write to ACC_CFG: SCLK_DIV and PERIOD must leave room for both reads (R314, R339). -/
def writeAccCfg (v : Nat) (s : State) : State :=
  let div := if within 24 255 (bits v 8 8) then bits v 8 8 else regF s aAccCfg 8 8
  let per := if within 8 100 (bits v 24 8) then bits v 24 8 else regF s aAccCfg 24 8
  let room := decide (2 * (112 * (div + 1) + 100) ≤ per * 1000)
  writeFields aAccCfg [{ lo := 0, len := 1 }, { lo := 1, len := 1 }, { lo := 2, len := 1 }, { lo := 16, len := 8 },
    { lo := 8, len := 8, legal := fun x => within 24 255 x && room }, { lo := 24, len := 8, legal := fun x => within 8 100 x && room }] v s

/-- A write to CAPk_BASE or CAPk_SIZE: no effect while the stream is enabled, and the ring must lie in the usable DRAM
(R447). -/
def writeCapRing (k : Nat) (size : Bool) (v : Nat) (s : State) : State :=
  if capEnabled s k then s
  else
    let fits := fun (base len : Nat) => decide ((base + len) * 65536 ≤ dramUsable s)
    let okSize := fun (x : Nat) => decide (16 ≤ x) && (k != 3 || x % 4 == 0) && fits (regF s (aCapBase k) 0 18) x
    if size then writeFields (aCapSize k) [{ lo := 0, len := 18, legal := okSize }] v s
    else writeFields (aCapBase k) [{ lo := 0, len := 18, legal := fun x => fits x (regF s (aCapSize k) 0 18) }] v s

/-- A write to SEQ_OPQ_BASE, SEQ_OPQ_CFG or SEQ_CPL_BASE: while EN is 1 it makes a record and changes nothing (R396). -/
def writeSeqRing (n a v : Nat) (s : State) : State :=
  if regB s (aSeqCtl n) 0 then record (srcSeq n) 0x147 [a % 0x10000] s
  else if a = aSeqOpqCfg n then writeFields a [{ lo := 0, len := 4, legal := fun x => x == 0 || within 2 8 x }] v s
  else writeFields a whole v s

/-- A write to CHLn_CTL: setting EN takes the lane from a replay (R272, R447). -/
def writeChlCtl (n v : Nat) (s : State) : State :=
  let s := writePlain (aChlCtl n) v s
  if bit v 0 && actPresent s n then rplTaken 1 n 0 s else s

/-- A write to WRn_CTL (R299, R447). -/
def writeWr (n v : Nat) (s : State) : State :=
  if !actPresent s n then s
  else
    let s := writeWrCtl n v s
    if bit v 0 then rplTaken 1 n 0 s else s

/-- A write to BAS_CTL: an actuator served is taken from a servo replay (R338, R447). -/
def writeBas (x v : Nat) (s : State) : State :=
  let s := writeBasCtl x v s
  forTo (fun n t => if bit v (4 + n) then rplTaken 2 n x t else t) 4 s

/-! ### One register written -/

/-- A write of a register of the SYS block or an indirect pair, by a requester. -/
def writeSys (source a v : Nat) (s : State) : State :=
  let c := a / 0x100 % 8
  if a = aRstctl then writeRstctl v s
  else if a = aThermCfg then writeThermCfg v s
  else if a = aWdogCfg then writeWdogCfg v s
  else if a = aWdogKick then writeWdogKick v s
  else if a = aDramCfg then writeDramCfg v s
  else if a = aMramRegion then writeMramRegion v s
  else if a = aOspiCmd then writeOspiCmd v s
  else if a = aOspiData then writeOspiData v s
  else if a = aRedIslCmd then writeIslCmd v s
  else if a = aRedCluCmd then writeCluCmd source v s
  else if aRedHb 0 ≤ a ∧ a < aRedHb 8 then heartbeat ((a - aRedHb 0) / 4) s
  else if 0x10001000 ≤ a ∧ a < 0x10001800 ∧ a % 0x100 = 0 then writeCluCtl c v s
  else if 0x10001000 ≤ a ∧ a < 0x10001800 ∧ a % 0x100 = 8 then writeL2Ctl c v s
  else if 0x10004000 ≤ a ∧ a < 0x10004200 ∧ a % 8 = 4 then writeCmpHigh ((a - 0x10004000) / 8) v s
  else if 0x10010000 ≤ a ∧ a < 0x10010800 ∧ a % 0x100 = 0 then indArrive c (.addr source v) s
  else if 0x10010000 ≤ a ∧ a < 0x10010800 ∧ a % 0x100 = 4 then indArrive c (.write source v) s
  else writePlain a v s

/-- A write of a register of a sequencer or HSL group. -/
def writeActBlock (a v : Nat) (s : State) : State :=
  let n := a / 0x10000 % 0x100
  let o := a % 0x10000
  if 0x12000000 ≤ a then (if o = 0 then setHslCtl n v s else s)
  else match o with
    | 0x00 => writeSeqCtl n v s
    | 0x10 => writeBankSel n v s
    | 0x18 => writePload n v s
    | 0x40 => writeSeqRing n a v s
    | 0x44 => writeSeqRing n a v s
    | 0x4C => writeSeqRing n a v s
    | 0x58 => writeMasked a 0xFF v s
    | 0x60 => writeCsAddr n v s
    | _ => writePlain a v s

/-- A write of a register of the CHAN block. Whether a deferred decode in progress had ended is left open (log 47). -/
def writeChan (a v : Nat) (s : State) : State :=
  let n := a / 0x100 % 0x10
  if a = aChanCtl then writeChanCtl v s
  else if a = aDdbBase ∨ a = aDdbCfg then writeDdbCfg a v s
  else if a = aDdbRd then
    let d := fresh s
    writeDdbRd (d.1 % 2 == 1) v d.2
  else if a = aChlCtl n ∧ n < 4 then writeChlCtl n v s
  else if a = aWrCtl n ∧ n < 4 then writeWr n v s
  else writePlain a v s

/-- A write of a register of an island; one in block reset takes none (R61, log 44). -/
def writeIsland (a v : Nat) (s : State) : State :=
  let x := a / 0x8000 % 2
  let o := a % 0x8000
  if islHeld s x then s
  else if o = 0 then writeBas x v s
  else if o = 8 then writeBasCfg x v s
  else if 0x100 ≤ o ∧ o < 0x200 ∧ o % 0x40 = 0 then
    (if actPresent s (o / 0x40 % 4) then writeBasCmd x (o / 0x40 % 4) v s else s)
  else writePlain a v s

/-- A write of a register of the ASSIST and CAL block, the HOST block or the CMD block. -/
def writeMiddle (a v : Nat) (s : State) : State :=
  if a = aCalCommit then writeCalCommit v s
  else if a = aCalTripClr then writeTripClr v s
  else if a = aI3cCtl then writeI3cCtl v s
  else if a = aCalCfg ∨ a = aCalPresent then noteDue (writePlain a v s)
  else if a = aHostCtl then writeHostCtl v s
  else if a = aHostListen then writeListen v s
  else if a = aSlowTxIdx then writeSlowTx v s
  else if a = aSlowCfg then slowTransmit 1024 (writePlain a v s)
  else if 0x16000400 ≤ a ∧ a < 0x16000600 ∧ a % 0x100 < 0xC0 ∧ a % 0x20 = 0 then writeAddrCtl (a / 0x100 % 2) (a / 0x20 % 8) v s
  else if a = aCmdCtl then writePause (bit v 0) s
  else if a = aJrnDeferLimit then endDegraded (writePlain a v s)
  else writePlain a v s

/-- A write of a register of the STRATA, SEC or TANDEM block. Whether the OTP reads back right after a command of the SEC
block is left open (log 51). -/
def writeRec (a v : Nat) (s : State) : State :=
  let k := a / 0x20 % 4
  if a = aStrataCtl then writeStrataCtl v s
  else if a = aCapBase k then writeCapRing k false v s
  else if a = aCapSize k then writeCapRing k true v s
  else if a = aCapCtl k then writeCapCtl k v s
  else if a = aCapTrig then writeCapTrig v s
  else if a = aRplCtl then writeRplCtl v s
  else if 0x18010000 ≤ a ∧ a < 0x18014000 ∧ a % 0x100 = 0xF8 then writeFwCmd ((a - 0x18010000) / 0x100) v s
  else if a = aSecCmd then
    let d := fresh s
    writeSecCmd (d.1 % 2 == 1) v d.2
  else if a = aTdmCtl then writeTdmCtl v s
  else if a = aAccCfg then writeAccCfg v s
  else writePlain a v s

/-- An aligned 32-bit write of a register. -/
def writeReg (source a v : Nat) (s : State) : State :=
  if a < 0x11000000 then writeSys source a v s
  else if a < 0x13000000 then writeActBlock a v s
  else if a < 0x14000000 then writeChan a v s
  else if a < 0x15000000 then writeIsland a v s
  else if a < 0x18000000 then writeMiddle a v s
  else writeRec a v s

/-! ### Accesses -/

/-- An address is a pair's IND_DATA. -/
def isIndData (a : Nat) : Bool := decide (0x10010000 ≤ a) && decide (a < 0x10010800) && a % 0x100 == 4

/-- A register read of 2^size bytes, at most 4, aligned: the addressed bytes of one 32-bit read (R97). A read of IND_DATA is
answered when its pair has served it (R101). -/
def readIo (source a size : Nat) (s : State) : State :=
  let w := a / 4 * 4
  if isIndData w then indArrive (a / 0x100 % 8) (.read source (2 ^ size) (a % 4)) s
  else
    let r := readReg w s
    emit (.readData source (bits r.1 (8 * (a % 4)) (8 * 2 ^ size))) r.2

/-- A register write of 2^size bytes, at most 4, aligned (R97). -/
def writeIo (source a size v : Nat) (s : State) : State :=
  if size < 2 then accError source a errNarrow size true s else writeReg source a (v % 2 ^ 32) s

/-- What a fence has for the halves of a 64-bit register access, the lower first (R97, R412). -/
def halfRefused (s : State) (source a : Nat) : Option Nat := if fenced s source a then some errIsolated else none

/-- An aligned 64-bit read of registers: two 32-bit reads, lower address first, each under its own rules (R97). -/
def readPair (source a : Nat) (s : State) : State :=
  match halfRefused s source a, halfRefused s source (a + 4) with
  | some k, some _ => accError source a k 3 false s
  | some k, none => accError source a k 3 false (readReg (a + 4) s).2
  | none, some k => accError source a k 3 false (readReg a s).2
  | none, none =>
    let r := readReg a s
    if isIndData (a + 4) then indArrive (a / 0x100 % 8) (.read source 8 r.1) r.2
    else
      let q := readReg (a + 4) r.2
      emit (.readData source (r.1 + q.1 * 2 ^ 32)) q.2

/-- An aligned 64-bit write of registers (R97). -/
def writePair (source a v : Nat) (s : State) : State :=
  let e := (halfRefused s source a, halfRefused s source (a + 4))
  let s := if e.1.isSome then s else writeReg source a (v % 2 ^ 32) s
  let s := if e.2.isSome then s else writeReg source (a + 4) (v / 2 ^ 32 % 2 ^ 32) s
  match e.1.or e.2 with
  | some k => accError source a k 3 true s
  | none => s

/-- A write of memory: an engine's store goes through its cluster's caches (R78). -/
def writeMem (source a size v : Nat) (s : State) : State :=
  let bs := leBytes (2 ^ size) v
  if source < 64 then engineStore (source / 8) (source % 8) a bs s
  else breakRes 64 (homeAddr s a / 64) (memWrite (homeAddr s a) bs s)

/-- What an access meets before it reaches a block: a fence, a hole, a fused-off block, a region it may not write, or its
own misalignment (R2, R71, R86, R90, R97). Each half of a 64-bit register access meets the fence for itself. A misaligned access
to memory is answered as one to a register (DESIGN CHOICE, log 84). -/
def accessRefused (s : State) (source a size : Nat) (write : Bool) : Option Nat :=
  if fenced s source a && !(size == 3 && regionOf s a == .io) then some errIsolated
  else match regionOf s a with
    | .unmapped => some errUnmapped
    | .fused => some errFused
    | r =>
      if write && (r == .rom || r == .flash || r == .journal || r == .mirror) then some errReadOnly
      else if a % 2 ^ size ≠ 0 then some errUnaligned
      else none

/-- An access of 2^size bytes by a hart (0–0x3F) or the JTAG debug module (0x40): a read, or a write of `v`; `e` is what a read
of memory finds there. A PMP fault stays in the core (R93). -/
def busAccess (source a size : Nat) (v : Option Nat) (e : MemErr) (s : State) : State :=
  if decide (source < 64) && pmpFault s source a (2 ^ size) (if v.isSome then pmpW else pmpR) then s
  else match accessRefused s source a size v.isSome with
    | some k => accError source a k size v.isSome s
    | none =>
      match regionOf s a, v with
      | .io, some v => if size = 3 then writePair source a v s else writeIo source a size v s
      | .io, none => if size = 3 then readPair source a s else readIo source a size s
      | _, some v => writeMem source a size v s
      | _, none => readMem source a size e s

/-! ### Commands -/

/-- REGISTER_WRITE (R10, R11, R86, R92–R97): a store by a hart, of 1, 2, 4 or 8 bytes. -/
def execRegisterWrite (source : Fin 64) (a : BitVec 40) (size : Fin 4) (v : BitVec 64) (s : State) : Host.Outcome State Fault Refusal :=
  actAll s (busAccess source a.toNat size (some v.toNat) .good)

/-- COUNTER_LOW_READ (R22, R98): a load by a hart, of 4 or 8 bytes, from the low word of a designated 64-bit counter. -/
def execCounterLowRead (source : Fin 64) (a : BitVec 40) (wide : Bool) (s : State) : Host.Outcome State Fault Refusal :=
  act s fun s =>
    if (counter64 s a.toNat).isSome then busAccess source a.toNat (if wide then 3 else 2) none .good s else s

/-- BUS_TIMEOUT (R102): an access outside the IND bridge that nothing answers. -/
def execBusTimeout (source : Fin 65) (a : BitVec 40) (size : Fin 4) (write : Bool) (s : State) : Host.Outcome State Fault Refusal :=
  act s fun s =>
    if (accessRefused s source a.toNat size write).isSome || (decide (indBase ≤ a.toNat) && decide (a.toNat < indBase + 0x10000)) then s
    else accError source a.toNat errTimeout size write s

/-- DEBUG_MODULE_ACCESS (R454): performed, or no bus access while the debug module is locked or the TAP is in reset. -/
def execDebugModuleAccess (a : BitVec 40) (size : Fin 4) (v : Option (BitVec 64)) (e : MemErr) (s : State) :
    Host.Outcome State Fault Refusal := actAll s fun s =>
  if debugReachable s && !s.pwr.tapReset then busAccess 0x40 a.toNat size (v.map (·.toNat)) e s else s

/-! ### Interrupts (R71–R73) -/

/-- A hart's machine external interrupt is pending: an enabled source routed to it is asserted (R72). -/
def externalPending (s : State) (h : Nat) : Bool := (List.range 8).any fun w => irqPend s h w != 0

/-- A hart takes interrupts: it runs, and no fence keeps them from it (R71, R72). -/
def takesInterrupts (s : State) (h : Nat) : Bool := (getHart s h).isSome && !isolated s (h / 8)

/-- MACHINE_TIMER_INTERRUPT (R71–R73): a hart that runs behind no fence takes the machine interrupts that are pending, its
external one first, in machine mode (log 86); a hart that does not leaves them pending. -/
def execMachineTimerInterrupt (h : Fin 64) (s : State) : Host.Outcome State Fault Refusal := act s fun s =>
  if !takesInterrupts s h then s
  else
    let ext := externalPending s h
    let tim := timerPending s h
    let s := if ext || tim then setHartRegs h { getHartRegs s h with user := false } s else s
    let s := if ext then emit (.external h) s else s
    if tim then emit (.timer h) s else s

end Sys2Proof.Machine
end

