-- ==== Sys2Proof/Machine/Downlink.lean ====
section
/-! DEFINITION. What the controller sends to a preamplifier every 20 ns: header, write symbols with their gate and
precompensation, demand block and AUX unit (R212, R213, R215, R218, R276–R285, R343). -/

namespace Sys2Proof.Machine

/-! ### Channel bits (R239, R276) -/


/-- The repeating sequence 1, 1, 0, 0 of preamble and pad. -/
def twoT (k : Nat) : Bool := decide (k % 4 < 2)

/-- Bit `i` of bytes, least significant first. -/
def byteBit (bs : List Byte) (i : Nat) : Bool := bit ((bs.getD (i / 8) 0).toNat) (i % 8)

/-- Channel bit `k` of fragment `j` of a sector whose codeword is `cw`; `at` is the fragment's first codeword bit and `len`
its data bits (R276). -/
def fieldBit (cw : List Byte) (j at_ len k : Nat) : Bool :=
  let pre := if j = 0 then 192 else 96
  if k < pre then twoT k
  else if k < pre + 40 then bit (if j = 0 then sm0 else sm1) (39 - (k - pre))
  else if k < pre + 40 + len then byteBit cw (at_ + (k - pre - 40))
  else twoT (k - pre - 40 - len)

/-- The information bytes of an armed sector as they are, or will be, encoded (R274, R277). -/
def secInfo (s : State) (n : Nat) (x : Sector) : Option (List Byte) :=
  if !x.enc.isEmpty then some x.enc
  else if x.parity then groupParity s n x.group else encodeData s n (getCh s n).dsc x

/-- A fragment's data bits before it, and its own. -/
def fragSpan (x : Sector) (j : Nat) : Nat × Nat :=
  (64 * ((x.frags.take j).map (·.2)).sum, 64 * ((x.frags[j]?.map (·.2)).getD 0))

/-! ### Cells (R215, R278, R282–R284, R297) -/

/-- Cells may be gated in this frame (R279, R284, R296). -/
def mayWrite (s : State) (n : Nat) : Bool :=
  let l := getCh s n
  l.busy && l.write && mayGate s n

/-- A sector's fragment is to be written: its slot is PENDING or FAIL, nothing of it is missed, cut or in a keep-out. -/
def cellGate (s : State) (n sbr : Nat) (x : Sector) (j : Nat) : Bool :=
  let l := getCh s n
  mayWrite s n && (getW l x.slot).isOpen && !(getW l x.slot).recopy && !x.missed && !x.cut && !x.rb
    && !inKeepout s l.pset l.wset sbr x j && (secInfo s n x).isSome

/-- LEVEL and GATE of a cell. -/
def cellOf (s : State) (n sbr : Nat) : WCell → Bool × Bool
  | .gap v => (v, false)
  | .bit slot j k =>
    match findSec s n slot with
    | none => (false, false)
    | some x =>
      if cellGate s n sbr x j then
        let p := fragSpan x j
        (fieldBit (codeword ((secInfo s n x).getD [])) j p.1 p.2 k, true)
      else (false, false)

/-- PRECOMP of a cell, from PC_TAB: `a` is its level, `b`, `c`, `d` those of the three cells before it, and `e` that of the
next (R278). -/
def precomp (pc : Nat) (a b c d e : Bool) : Nat :=
  if a == b then 0
  else bits pc (4 * (bnat (b != c) + 2 * bnat (c != d) + 4 * bnat (e != a))) 3

/-- The symbols of cells in order; `prev` holds the levels before them, the latest first, and `next` the level that
follows the last (R215, R278). -/
def symbolsOf (pc : Nat) (next : Bool) : List Bool → List (Bool × Bool) → List Nat
  | _, [] => []
  | prev, (a, g) :: rest =>
    let e := (rest.head?.map (·.1)).getD next
    (bnat a + 2 * bnat g + 4 * precomp pc a (prev.getD 0 false) (prev.getD 1 false) (prev.getD 2 false) e)
      :: symbolsOf pc next (a :: prev.take 2) rest

/-! ### The demand block (R213, R280, R285, R343) -/

/-- WFREQ, UQ3.21 GHz, at most 6.0 GHz: the channel bit rate, scaled by the nominal wedge period over the measured one, in
the preamplifier's clock frame; `ratio` is CLK_HSLn over its nominal frequency, UQ8.24 (R280). -/
def wfreqOf (s : State) (n ratio : Nat) : Nat :=
  let p := (getCh s n).pset
  let meas : Nat := match (getCh s n).last with | some w => (w.recs.head?.map (·.wper)).getD 0 | none => 0
  let nom := wedgeNs s * 256
  let f := setRatio p * rateMs (setRate p) * 2 ^ 21 * 2 ^ 24 * (if meas = 0 then 1 else nom)
  Nat.min 0xC00000 (f / (32768 * 100 * max 1 ratio * (if meas = 0 then 1 else meas)))

/-- The loops' part of the demand block: the demand codes of the last tick with their EN bits. ASSIST_EN is 0 during the
shock inhibit, after a wedge that is not IN_W and in the power-fail sequence (R63, R285, R296). -/
def loopDemand (s : State) (n : Nat) : Nat :=
  let a := getAst s n
  let w := (getCh s n).busy && (getCh s n).write && (getCh s n).inw && !inhibited s n && s.pwr.phase == .running
  regF s (aAstDem n) 0 10 + bnat (a.ast.en && w) * 2 ^ 10 + regF s (aAstDem n) 16 10 * 2 ^ 12 + bnat a.htr.en * 2 ^ 22

/-! ### The frame -/

/-- The header (R212). Readers A and B are enabled while HSLn.D is UP, and the verify reader during a write operation
(DESIGN CHOICE, log 50). -/
def downHeader (s : State) (n dtype nsym : Nat) (wstart : Bool) : Nat :=
  let h := getHsl s n
  h.dFseq % 256 + dtype * 2 ^ 8 + h.head % 8 * 2 ^ 10 + nsym * 2 ^ 13 + bnat wstart * 2 ^ 20
    + (bnat (laneUp s n 0) + 2 * bnat (laneUp s n 1) + 4 * bnat (laneUp s n 2)) * 2 ^ 21
    + bnat h.abEn * 2 ^ 24 + bnat h.vEn * 2 ^ 25 + h.rate % 4 * 2 ^ 26

/-- What the header selects for the operation in hand. -/
def selectNow (n : Nat) (s : State) : State :=
  let h := getHsl s n
  let l := getCh s n
  setHsl n { h with abEn := true, vEn := l.busy && l.write, rate := if l.busy then setRate l.pset % 4 else h.rate } s

/-- The PAM4 level of a symbol: its earlier line bit is the least significant (R201). -/
def pamLevel (v : Nat) : Int :=
  match v % 4 with
  | 0 => -3
  | 1 => -1
  | 3 => 1
  | _ => 3

/-- The levels of `k` symbols of line bits, the earliest first (R201). -/
def pamLevels : Nat → Nat → List Int
  | 0, _ => []
  | k + 1, line => pamLevel line :: pamLevels k (line / 4)

/-- A frame sent, with its CRC, through the scrambler, and counted (R201–R204, R213, R232). -/
def sendLine (n header : Nat) (syms : List Nat) (demand aux : Nat) (s : State) : State :=
  let p := padTo 122 (syms.map (BitVec.ofNat 8)) ++ leBytes 6 demand
  let f : LinkFrame := { header, payload := p, aux, marker := downMarker,
                         crc := (crc32c (leBytes 4 header ++ p ++ leBytes 2 aux)).toNat }
  let h := getHsl s n
  let line := scramble h.scr (lineBits f)
  let levels := pamLevels 560 (line + aux % 2 ^ 16 * 2 ^ 1088 + downMarker * 2 ^ 1104)
  emit (.downFrame n header syms demand aux line levels)
    (incWideBy (aDnFramesLo n) 1 (setHsl n { h with scr := lineTail line } s))

/-- An idle or write frame. -/
def sendNormal (n : Nat) (cells : List WCell) (next : Bool) (sbr ratio : Nat) (s : State) : State :=
  let s := selectNow n s
  let h := getHsl s n
  let l := getCh s n
  let writing := l.busy && l.write
  let start := writing && h.wstart
  let cs := if writing then (cells.take 122).map (cellOf s n sbr) else []
  let prev := if start then [] else h.levels
  let syms := symbolsOf (fieldN l.wset 4 4) next prev cs
  let gated := cs.any (·.2)
  let en := writing && l.inw && !inhibited s n && s.pwr.phase == .running && (h.writeEn || gated)
  let wf := if writing then wfreqOf s n ratio else h.wfreq
  let demand := loopDemand s n + bnat en * 2 ^ 11 + wf * 2 ^ 24
  let header := downHeader s n (if writing then 1 else 0) cs.length start
  let s := setHsl n { h with dFseq := (h.dFseq + 1) % 256, wstart := h.wstart && !start, writeEn := en, wfreq := wf,
                             auxOut := h.auxOut.drop 1, levels := (cs.reverse.map (·.1) ++ prev).take 3 } s
  sendLine n header syms demand (h.auxOut.headD 0) s

/-- A training frame: a zero payload (R213, R222). -/
def sendTraining (n : Nat) (s : State) : State :=
  let h := getHsl s n
  sendLine n (downHeader s n 3 0 false) [] 0 0 (setHsl n { h with dFseq := (h.dFseq + 1) % 256 } s)

/-- DOWNSTREAM_FRAME: `cells` are the write cells the lane places in this frame, `next` the level of the cell after them,
`sbr` the head's servo bit rate and `ratio` the measured clock ratio. A lane that is OFF or FAILED sends nothing. -/
def execDownstreamFrame (n : Fin 4) (cells : List WCell) (next : Bool) (sbr ratio : Nat) (s : State) :
    Host.Outcome State Fault Refusal := act s fun s =>
  let d := (getHsl s n).dSt
  if d = 3 then sendNormal n cells next sbr ratio s
  else if d = 2 ∨ d = 4 then sendTraining n s
  else s

end Sys2Proof.Machine
end

