-- ==== Sys2Proof/Machine/PowerState.lean ====
section
/-! DEFINITION. The NVMe power states: how an entry idles the actuators, and at its safe points unloads heads, slows the
spindle and takes links and clusters down; how an exit puts them back (R57, R144, R187–R189). -/

namespace Sys2Proof.Machine

/-! ### The decision to enter (R144, R187) -/

/-- The state that Autonomous Power State Transition asks for: with no I/O command in flight, the entry of an enabled
controller's table for the present state names another once ITPT ms have gone by since the last one completed. -/
def apstDue (s : State) : Option Nat :=
  if s.cmd.moving || s.cmd.cmds.any (·.io) then none
  else (s.host.ctrls.filterMap fun e => e.2.bind fun (t : Ctrl) =>
    let v := fieldN t.apstTable (8 * s.cmd.ps) 4
    let p := bits v 3 5
    if !t.discovery && bit t.cc 0 && t.apst == 1 && decide (s.cmd.ps < p) && decide (p ≤ 4) && bits v 8 24 != 0
        && decide (bits v 8 24 * 1000000 ≤ s.now - s.cmd.idleFrom) then some p else none).head?

/-- A move into a state begins if one is due by itself. -/
def startApst (s : State) : State :=
  match apstDue s with
  | some p => { s with cmd := { s.cmd with moving := true, entering := true, target := p, abandon := false } }
  | none => s

/-- POWER_STATE_ENTRY (R187): at the decision, no new track operation starts on the idled actuators and STOP is set in
their sequencers. `active` names the two actuators that PS1 leaves transferring. The decision is the host's, by Power
Management, or the device's own, by Autonomous Power State Transition. -/
def execPowerStateEntry (active : List (Fin 4)) (s : State) : Host.Outcome State Fault Refusal := act s fun s =>
  let s := startApst s
  if s.cmd.moving && s.cmd.entering then
    let a := active.map (·.val)
    let s := { s with cmd := { s.cmd with active := (List.range (actCount s)).filter fun n => !(idled s s.cmd.target a).contains n } }
    (idled s s.cmd.target a).foldl (fun t n => setRegF (seqBase n) 1 1 1 t) s
  else s

/-! ### Safe points (R57, R187) -/

/-- The speed that BAS_SPIN_CMD of an island commands, rpm. -/
def spinCmd (s : State) (x : Nat) : Nat := regF s (aBasSpinCmd x) 0 13

/-- The reduced spindle speed of PS3: DESIGN CHOICE (log 109), the lowest that BAS_SPIN_CMD may command. -/
abbrev slowRpm : Nat := 1800

/-- Speeds commanded in both islands; the speeds found first are put aside. -/
def setSpin (f : Nat → Nat) (s : State) : State :=
  let s := if s.cmd.saved.spin.isEmpty then { s with cmd := { s.cmd with saved := { s.cmd.saved with spin := [spinCmd s 0, spinCmd s 1] } } } else s
  forTo (fun x t => setRegF (aBasSpinCmd x) 0 13 (f (spinCmd t x)) t) 2 s


/-- Every HSL group idles; the HSL_CTL found are put aside. -/
def idleLinks (s : State) : State :=
  let acts := (List.range 4).filter (actPresent s)
  let s := if s.cmd.saved.hsl.isEmpty then
      { s with cmd := { s.cmd with saved := { s.cmd.saved with hsl := acts.map fun n => (n, reg s (aHslCtl n)) } } } else s
  acts.foldl (fun t n => setHslCtl n (setBits (reg t (aHslCtl n)) 0 1 0) t) s

/-- The Tandem lanes go to electrical idle. -/
def idleTandem (s : State) : State :=
  let s := if s.cmd.saved.tdm.isNone then { s with cmd := { s.cmd with saved := { s.cmd.saved with tdm := some (reg s aTdmCtl) } } } else s
  writeTdmCtl 0 s

/-- Cluster `c` is powered off: OFF first, its state and CLU_CTL put aside (R408). -/
def clusterOff (c : Nat) (s : State) : State :=
  let k := getClu s c
  let s := { s with cmd := { s.cmd with saved := { s.cmd.saved with clus := s.cmd.saved.clus ++ [(c, k.st, reg s (aCluCtl c))] } } }
  resetCluster c (setClu c { k with st := 0 } s)

/-- What an entry does next (R57, R187). -/
inductive PsStep where
  /-- An idled actuator still has a track operation in hand, or its heads are on their way: no safe point yet. -/
  | wait
  | park (n : Nat)
  | slow
  | cluster (c : Nat)
  | done
  deriving DecidableEq, Repr

/-- The idled actuators of an entry. -/
def entryIdles (s : State) : List Nat := (List.range (actCount s)).filter fun n => !s.cmd.active.contains n

/-- An idled actuator's heads are on their way to the ramp: a PARKED command is armed in an island that serves it. -/
def unloading (s : State) (n : Nat) : Bool :=
  (getSched s n).st == 2 && [0, 1].any fun x => serves s x n && (match (getAct s x n).armed with | some c => c.mode == mParked | none => false)

/-- The next step of an entry into a state. -/
def nextStep (s : State) : PsStep :=
  let ns := entryIdles s
  if ns.any fun n => (getSq s n).inOp then .wait
  else if s.cmd.target ≤ 2 then .done
  else if ns.any (unloading s) then .wait
  else match ns.find? fun n => (getSched s n).st == 2 with
    | some n => .park n
    | none =>
      if slowRpm < spinCmd s 0 ∨ slowRpm < spinCmd s 1 then .slow
      else if s.cmd.target = 3 then .done
      else if 0 < spinCmd s 0 ∨ 0 < spinCmd s 1 then .slow
      else match (List.range 4).find? fun c => (getClu s c).st == 1 || (getClu s c).st == 2 with
        | some c => .cluster c
        | none => .done

/-- The heads of an actuator are to be unloaded: a PARKED command in each island that serves it; where none does, the actuator
is parked already. -/
def unloadHeads (n : Nat) (s : State) : State :=
  let xs := [0, 1].filter fun x => serves s x n
  if xs.isEmpty then noteParked n mParked s
  else xs.foldl (fun t x => writeBasCmd x n (bits (reg t (aBasCmd x n)) 3 1 * 8 + 16) t) s

/-- A slower step of the spindle: 600 rpm, down to the reduced speed, and for PS4 from there to rest. -/
def slower (v : Nat) : Nat := if v ≤ slowRpm then 0 else max slowRpm (v - 600)

/-- What was put aside for a state deeper than `p` is put back: clusters 0–3 and the Tandem lanes on leaving PS4, the spindle
and the HSL groups on leaving PS3. -/
def restoreTo (p : Nat) (s : State) : State :=
  let k := s.cmd.saved
  let s := if 4 ≤ p then s
    else
      let s := k.clus.foldl (fun t e =>
        writeCluCtl e.1 (0x1FF * 65536 + e.2.2) (setClu e.1 (watched t (getClu t e.1) e.2.1) t)) s
      let s := match k.tdm with | some v => writeTdmCtl v s | none => s
      { s with cmd := { s.cmd with saved := { s.cmd.saved with clus := [], tdm := none } } }
  if 3 < p then s
  else if p = 3 then (if k.spin.isEmpty then s else forTo (fun x t => setRegF (aBasSpinCmd x) 0 13 slowRpm t) 2 s)
  else
    let s := forTo (fun x t => match k.spin[x]? with | some v => setRegF (aBasSpinCmd x) 0 13 v t | none => t) 2 s
    let s := k.hsl.foldl (fun t e => setHslCtl e.1 e.2 t) s
    { s with cmd := { s.cmd with saved := { s.cmd.saved with spin := [], hsl := [] } } }

/-- The entry is complete: in PS3 and PS4 the links idle, and in PS4 the Tandem lanes too (R57). -/
def entered (s : State) : State :=
  let p := s.cmd.target
  let s := if 3 ≤ p then idleLinks s else restoreTo p s
  let s := if p = 4 then idleTandem s else s
  let c := s.cmd
  noteAna { s with cmd := { c with ps := p, moving := false, entering := false, lastOp := if p ≤ 2 then p else c.lastOp } }

/-- SAFE_POINT (R187, R188): the entry is abandoned here if a command asked for it, and then returns along its exit path;
otherwise its next step is taken, and with none left it is complete. While an idled actuator's track operation runs, or its
heads are on their way, no safe point is reached. -/
def execSafePoint (s : State) : Host.Outcome State Fault Refusal := actAll s fun s =>
  let c := s.cmd
  if !(c.moving && c.entering) || nextStep s == .wait then s
  else if c.abandon then { s with cmd := { c with entering := false, abandon := false, target := c.lastOp } }
  else match nextStep s with
    | .wait => s
    | .park n => unloadHeads n s
    | .slow => setSpin slower s
    | .cluster k => clusterOff k s
    | .done => entered s

/-! ### The way back (R57, R188) -/

/-- POWER_STATE_EXIT (R188): what the entry took down is put back, and once every actuator that it parked is back in service,
or UNAVAILABLE, the device rests in the state it returned to. -/
def execPowerStateExit (s : State) : Host.Outcome State Fault Refusal := actAll s fun s =>
  if !(s.cmd.moving && !s.cmd.entering) then s
  else
    let s := restoreTo s.cmd.target s
    let c := s.cmd
    if c.target < 3 ∧ c.saved.parked.any (fun n => (getSched s n).st == 4) = true then s
    else
      noteAna { s with cmd := { c with ps := c.target, moving := false, abandon := false, lastOp := if c.target ≤ 2 then c.target else c.lastOp,
                                       saved := if c.target < 3 then { c.saved with parked := [] } else c.saved } }

end Sys2Proof.Machine
end

