-- ==== Sys2Proof/Machine/Dispatch.lean ====
section
/-! DEFINITION. One arm for each command: the one place where a command meets its meaning. -/

namespace Sys2Proof.Machine

def exec (i : Instr) (s : State) : Host.Outcome State Fault Refusal :=
  match i with
  | .corePowerUp torn old levels => Sys2Proof.Machine.execCorePowerUp torn old levels s
  | .supplyMonitorTrip rail => Sys2Proof.Machine.execSupplyMonitorTrip rail s
  | .pwrFailNLow low recognized => Sys2Proof.Machine.execPwrFailNLow low recognized s
  | .resetEntered => Sys2Proof.Machine.execResetEntered s
  | .restart => Sys2Proof.Machine.execRestart s
  | .referenceLoss => Sys2Proof.Machine.execReferenceLoss s
  | .referenceReturn => Sys2Proof.Machine.execReferenceReturn s
  | .aonXtalTimeout => Sys2Proof.Machine.execAonXtalTimeout s
  | .crystalStart => Sys2Proof.Machine.execCrystalStart s
  | .thermalSample temps => Sys2Proof.Machine.execThermalSample temps s
  | .thermalTripRelease => Sys2Proof.Machine.execThermalTripRelease s
  | .watchdogTimeout => Sys2Proof.Machine.execWatchdogTimeout s
  | .wdogKick value => Sys2Proof.Machine.execWdogKick value s
  | .wdogCfgWrite value => Sys2Proof.Machine.execWdogCfgWrite value s
  | .softRst value => Sys2Proof.Machine.execSoftRst value s
  | .rstNLow => Sys2Proof.Machine.execRstNLow s
  | .rstNRelease => Sys2Proof.Machine.execRstNRelease s
  | .pllsLocked => Sys2Proof.Machine.execPllsLocked s
  | .jtagTrst low => Sys2Proof.Machine.execJtagTrst low s
  | .coreRun cluster core run => Sys2Proof.Machine.execCoreRun cluster core run s
  | .isolate cluster on => Sys2Proof.Machine.execIsolate cluster on s
  | .mtimecmpWrite hart high => Sys2Proof.Machine.execMtimecmpWrite hart high s
  | .machineTimerInterrupt hart => Sys2Proof.Machine.execMachineTimerInterrupt hart s
  | .l2ReadMiss cluster req addr size l1Parity tag err => Sys2Proof.Machine.execL2ReadMiss cluster req addr size l1Parity tag err s
  | .l2FillReturn cluster addr pick l1Way err => Sys2Proof.Machine.execL2FillReturn cluster addr pick l1Way err s
  | .l2Store cluster core addr bytes err => Sys2Proof.Machine.execL2Store cluster core addr bytes err s
  | .l2Hit cluster req addr size l1Parity err mem l1Way => Sys2Proof.Machine.execL2Hit cluster req addr size l1Parity err mem l1Way s
  | .l2Disable cluster => Sys2Proof.Machine.execL2Disable cluster s
  | .l2Enable cluster => Sys2Proof.Machine.execL2Enable cluster s
  | .cboInval cluster addr => Sys2Proof.Machine.execCboInval cluster addr s
  | .cboClean hart addr op => Sys2Proof.Machine.execCboClean hart addr op s
  | .atomicOperation hart op wide addr value err => Sys2Proof.Machine.execAtomicOperation hart op wide addr value err s
  | .registerWrite source a size v => Sys2Proof.Machine.execRegisterWrite source a size v s
  | .counterLowRead source a wide => Sys2Proof.Machine.execCounterLowRead source a wide s
  | .indAddrWrite c source v => Sys2Proof.Machine.execIndAddrWrite c source v s
  | .indDataRead c source => Sys2Proof.Machine.execIndDataRead c source s
  | .indDataWrite c source v => Sys2Proof.Machine.execIndDataWrite c source v s
  | .indTimeout c => Sys2Proof.Machine.execIndTimeout c s
  | .busTimeout source a size write => Sys2Proof.Machine.execBusTimeout source a size write s
  | .dramScrub corrected bad => Sys2Proof.Machine.execDramScrub corrected bad s
  | .mramScrub corrected bad => Sys2Proof.Machine.execMramScrub corrected bad s
  | .dramCfgLock value => Sys2Proof.Machine.execDramCfgLock value s
  | .mramRegionLock value => Sys2Proof.Machine.execMramRegionLock value s
  | .bootSequence trains copies time => Sys2Proof.Machine.execBootSequence trains copies time s
  | .flashTimeout slot => Sys2Proof.Machine.execFlashTimeout slot s
  | .bootRetry => Sys2Proof.Machine.execBootRetry s
  | .ospiCommand value => Sys2Proof.Machine.execOspiCommand value s
  | .ospiDataRead source => Sys2Proof.Machine.execOspiDataRead source s
  | .ospiDataWrite value => Sys2Proof.Machine.execOspiDataWrite value s
  | .headDiscovery n step head => Sys2Proof.Machine.execHeadDiscovery n step head s
  | .linkUp port partner rs528 baseR => Sys2Proof.Machine.execLinkUp port partner rs528 baseR s
  | .linkDown port => Sys2Proof.Machine.execLinkDown port s
  | .portFailed port => Sys2Proof.Machine.execPortFailed port s
  | .frameReceive port frame => Sys2Proof.Machine.execFrameReceive port frame s
  | .slowPathTransmit fwIdx => Sys2Proof.Machine.execSlowPathTransmit fwIdx s
  | .syn port entry disc mac ip peerPort isn opts => Sys2Proof.Machine.execSyn port entry disc mac ip peerPort isn opts s
  | .tcpAck ctx seg => Sys2Proof.Machine.execTcpAck ctx seg s
  | .retransmissionTimeout ctx => Sys2Proof.Machine.execRetransmissionTimeout ctx s
  | .userTimeout ctx => Sys2Proof.Machine.execUserTimeout ctx s
  | .delayedAck ctx => Sys2Proof.Machine.execDelayedAck ctx s
  | .tcpFinRst ctx rst => Sys2Proof.Machine.execTcpFinRst ctx rst s
  | .icreq ctx pfv hpda maxR2t hdgst ddgst => Sys2Proof.Machine.execIcreq ctx pfv hpda maxR2t hdgst ddgst s
  | .icreqTimeout ctx => Sys2Proof.Machine.execIcreqTimeout ctx s
  | .connect => Sys2Proof.Machine.execConnect s
  | .capsuleCmd ctx capsule hdrOk dataOk => Sys2Proof.Machine.execCapsuleCmd ctx capsule hdrOk dataOk s
  | .h2cData ctx cid tag off bytes hdrOk dataOk => Sys2Proof.Machine.execH2cData ctx cid tag off bytes hdrOk dataOk s
  | .h2cTermReq ctx => Sys2Proof.Machine.execH2cTermReq ctx s
  | .hostDataTimeout ctx tag => Sys2Proof.Machine.execHostDataTimeout ctx tag s
  | .keepAliveExpiry ctrl => Sys2Proof.Machine.execKeepAliveExpiry ctrl s
  | .discoveryIdleClose ctx => Sys2Proof.Machine.execDiscoveryIdleClose ctx s
  | .cdcRegistration cdc task => Sys2Proof.Machine.execCdcRegistration cdc task s
  | .cdcRetry cdc succeeds => Sys2Proof.Machine.execCdcRetry cdc succeeds s
  | .nvmeMiMessage m => Sys2Proof.Machine.execNvmeMiMessage m s
  | .portEnable port => Sys2Proof.Machine.execPortEnable port s
  | .portDisable port => Sys2Proof.Machine.execPortDisable port s
  | .addressEntryClear port entry => Sys2Proof.Machine.execAddressEntryClear port entry s
  | .anattExpiry group => Sys2Proof.Machine.execAnattExpiry group s
  | .propertyGet => Sys2Proof.Machine.execPropertyGet s
  | .propertySet => Sys2Proof.Machine.execPropertySet s
  | .controllerReset => Sys2Proof.Machine.execControllerReset s
  | .shutdown => Sys2Proof.Machine.execShutdown s
  | .shutdownComplete ctrl => Sys2Proof.Machine.execShutdownComplete ctrl s
  | .disconnect => Sys2Proof.Machine.execDisconnect s
  | .identify => Sys2Proof.Machine.execIdentify s
  | .getLogPage => Sys2Proof.Machine.execGetLogPage s
  | .discoveryLog => Sys2Proof.Machine.execDiscoveryLog s
  | .strataWindowLog => Sys2Proof.Machine.execStrataWindowLog s
  | .captureIndexLog => Sys2Proof.Machine.execCaptureIndexLog s
  | .captureStreamLog => Sys2Proof.Machine.execCaptureStreamLog s
  | .replayOutputLog => Sys2Proof.Machine.execReplayOutputLog s
  | .setFeatures => Sys2Proof.Machine.execSetFeatures s
  | .powerManagement => Sys2Proof.Machine.execPowerManagement s
  | .keepAliveTimer => Sys2Proof.Machine.execKeepAliveTimer s
  | .setTimestamp => Sys2Proof.Machine.execSetTimestamp s
  | .getFeatures => Sys2Proof.Machine.execGetFeatures s
  | .getTimestamp => Sys2Proof.Machine.execGetTimestamp s
  | .keepAlive => Sys2Proof.Machine.execKeepAlive s
  | .asynchronousEventRequest => Sys2Proof.Machine.execAsynchronousEventRequest s
  | .abort => Sys2Proof.Machine.execAbort s
  | .firmwareImageDownload => Sys2Proof.Machine.execFirmwareImageDownload s
  | .fwCommitStore => Sys2Proof.Machine.execFwCommitStore s
  | .fwCommitStoreTrial => Sys2Proof.Machine.execFwCommitStoreTrial s
  | .fwCommitTrial => Sys2Proof.Machine.execFwCommitTrial s
  | .fwCommitActivate => Sys2Proof.Machine.execFwCommitActivate s
  | .secSendNonce => Sys2Proof.Machine.execSecSendNonce s
  | .secSendKeyMgmt => Sys2Proof.Machine.execSecSendKeyMgmt s
  | .secSendToken => Sys2Proof.Machine.execSecSendToken s
  | .secRecvProtocols => Sys2Proof.Machine.execSecRecvProtocols s
  | .secRecvReport => Sys2Proof.Machine.execSecRecvReport s
  | .secRecvCertificate => Sys2Proof.Machine.execSecRecvCertificate s
  | .secRecvChallenge => Sys2Proof.Machine.execSecRecvChallenge s
  | .deviceSelfTest result => Sys2Proof.Machine.execDeviceSelfTest result s
  | .formatNvm => Sys2Proof.Machine.execFormatNvm s
  | .formatTakesEffect seq => Sys2Proof.Machine.execFormatTakesEffect seq s
  | .read => Sys2Proof.Machine.execRead s
  | .write => Sys2Proof.Machine.execWrite s
  | .flush => Sys2Proof.Machine.execFlush s
  | .flushComplete seq => Sys2Proof.Machine.execFlushComplete seq s
  | .writeZeroes => Sys2Proof.Machine.execWriteZeroes s
  | .verify => Sys2Proof.Machine.execVerify s
  | .zoneAppend => Sys2Proof.Machine.execZoneAppend s
  | .zoneClose => Sys2Proof.Machine.execZoneClose s
  | .zoneFinish => Sys2Proof.Machine.execZoneFinish s
  | .zoneOpen => Sys2Proof.Machine.execZoneOpen s
  | .zoneReset => Sys2Proof.Machine.execZoneReset s
  | .zoneOffline => Sys2Proof.Machine.execZoneOffline s
  | .setZoneDescriptorExt => Sys2Proof.Machine.execSetZoneDescriptorExt s
  | .zoneManagementReceive => Sys2Proof.Machine.execZoneManagementReceive s
  | .intake ctx => Sys2Proof.Machine.execIntake ctx s
  | .journalReservation => Sys2Proof.Machine.execJournalReservation s
  | .readSourceChoice seq => Sys2Proof.Machine.execReadSourceChoice seq s
  | .recoveryComplete fmt allowed => Sys2Proof.Machine.execRecoveryComplete fmt allowed s
  | .pause on => Sys2Proof.Machine.execPause on s
  | .pauseExpiry => Sys2Proof.Machine.execPauseExpiry s
  | .powerStateEntry active => Sys2Proof.Machine.execPowerStateEntry active s
  | .safePoint => Sys2Proof.Machine.execSafePoint s
  | .powerStateExit => Sys2Proof.Machine.execPowerStateExit s
  | .schedulerDispatch n pick => Sys2Proof.Machine.execSchedulerDispatch n pick s
  | .ageBoundExceeded seq => Sys2Proof.Machine.execAgeBoundExceeded seq s
  | .patrolPass n => Sys2Proof.Machine.execPatrolPass n s
  | .upstreamFrame n lane frame dropped dropA dropB => Sys2Proof.Machine.execUpstreamFrame n lane frame dropped dropA dropB s
  | .downstreamFrame n cells next sbr ratio => Sys2Proof.Machine.execDownstreamFrame n cells next sbr ratio s
  | .paDownstreamFrame n frame emitted settled => Sys2Proof.Machine.execPaDownstreamFrame n frame emitted settled s
  | .paRequest n => Sys2Proof.Machine.execPaRequest n s
  | .controlRequest n => Sys2Proof.Machine.execControlRequest n s
  | .controlReply n => Sys2Proof.Machine.execControlReply n s
  | .controlResend n => Sys2Proof.Machine.execControlResend n s
  | .controlGiveUp n => Sys2Proof.Machine.execControlGiveUp n s
  | .paStatus n => Sys2Proof.Machine.execPaStatus n s
  | .paSense n => Sys2Proof.Machine.execPaSense n s
  | .laneAcquired n lane => Sys2Proof.Machine.execLaneAcquired n lane s
  | .laneUp n lane => Sys2Proof.Machine.execLaneUp n lane s
  | .laneLost n lane => Sys2Proof.Machine.execLaneLost n lane s
  | .laneFailed n lane => Sys2Proof.Machine.execLaneFailed n lane s
  | .hslEn n on => Sys2Proof.Machine.execHslEn n on s
  | .paRun n on => Sys2Proof.Machine.execPaRun n on s
  | .mgtSafe n on => Sys2Proof.Machine.execMgtSafe n on s
  | .rxEn n lane on => Sys2Proof.Machine.execRxEn n lane on s
  | .paFaultN n faults => Sys2Proof.Machine.execPaFaultN n faults s
  | .syncWindowEnd f => Sys2Proof.Machine.execSyncWindowEnd f s
  | .decoderGrant => Sys2Proof.Machine.execDecoderGrant s
  | .globalIterationEnd k => Sys2Proof.Machine.execGlobalIterationEnd k s
  | .positionRecord x n => Sys2Proof.Machine.execPositionRecord x n s
  | .sampleMemoryTimeout n slot => Sys2Proof.Machine.execSampleMemoryTimeout n slot s
  | .verifyTimeout n slot => Sys2Proof.Machine.execVerifyTimeout n slot s
  | .deferredDecodeTimeout e => Sys2Proof.Machine.execDeferredDecodeTimeout e s
  | .ddbRdAdvance rd ended => Sys2Proof.Machine.execDdbRdAdvance rd ended s
  | .ddbCfgWrite base v => Sys2Proof.Machine.execDdbCfgWrite base v s
  | .accelerometerPeriod r0 r1 => Sys2Proof.Machine.execAccelerometerPeriod r0 r1 s
  | .accelInt input high => Sys2Proof.Machine.execAccelInt input high s
  | .shockHoldEnd => Sys2Proof.Machine.execShockHoldEnd s
  | .shockEn n on => Sys2Proof.Machine.execShockEn n on s
  | .wedgeComputation x n samTime late err => Sys2Proof.Machine.execWedgeComputation x n samTime late err s
  | .deadlineCutoff x n => Sys2Proof.Machine.execDeadlineCutoff x n s
  | .parkedCommand x n bank now apply => Sys2Proof.Machine.execParkedCommand x n bank now apply s
  | .manualCommand x n bank now apply => Sys2Proof.Machine.execManualCommand x n bank now apply s
  | .seekCommand x n bank now apply => Sys2Proof.Machine.execSeekCommand x n bank now apply s
  | .spindleFrame x => Sys2Proof.Machine.execSpindleFrame x s
  | .freeRunningFrame x n => Sys2Proof.Machine.execFreeRunningFrame x n s
  | .statusFrame good => Sys2Proof.Machine.execStatusFrame good s
  | .driverFrame lane good m => Sys2Proof.Machine.execDriverFrame lane good m s
  | .driverFrameTimeout n => Sys2Proof.Machine.execDriverFrameTimeout n s
  | .driverStatusPeriod m => Sys2Proof.Machine.execDriverStatusPeriod m s
  | .basCfgLock x wedges rpm => Sys2Proof.Machine.execBasCfgLock x wedges rpm s
  | .loopTick ins => Sys2Proof.Machine.execLoopTick ins s
  | .heaterRecordTimeout n => Sys2Proof.Machine.execHeaterRecordTimeout n s
  | .tDUpdate => Sys2Proof.Machine.execTDUpdate s
  | .i3cSensorRead k raw => Sys2Proof.Machine.execI3cSensorRead k raw s
  | .i3cEn on scl => Sys2Proof.Machine.execI3cEn on scl s
  | .calCommit h restore => Sys2Proof.Machine.execCalCommit h restore s
  | .commitCheckDone => Sys2Proof.Machine.execCommitCheckDone s
  | .calExchange h field => Sys2Proof.Machine.execCalExchange h field s
  | .calTripClr h ast htr => Sys2Proof.Machine.execCalTripClr h ast htr s
  | .mwNop n w => Sys2Proof.Machine.execMwNop n w s
  | .mwLdi n w => Sys2Proof.Machine.execMwLdi n w s
  | .mwLdhi n w => Sys2Proof.Machine.execMwLdhi n w s
  | .mwMov n w => Sys2Proof.Machine.execMwMov n w s
  | .mwAddi n w => Sys2Proof.Machine.execMwAddi n w s
  | .mwAdd n w => Sys2Proof.Machine.execMwAdd n w s
  | .mwSub n w => Sys2Proof.Machine.execMwSub n w s
  | .mwAnd n w => Sys2Proof.Machine.execMwAnd n w s
  | .mwOr n w => Sys2Proof.Machine.execMwOr n w s
  | .mwCmp n w => Sys2Proof.Machine.execMwCmp n w s
  | .mwCmpi n w => Sys2Proof.Machine.execMwCmpi n w s
  | .mwBrt n w => Sys2Proof.Machine.execMwBrt n w s
  | .mwBrf n w => Sys2Proof.Machine.execMwBrf n w s
  | .mwCall n w => Sys2Proof.Machine.execMwCall n w s
  | .mwRet n w => Sys2Proof.Machine.execMwRet n w s
  | .mwLdf n w => Sys2Proof.Machine.execMwLdf n w s
  | .mwTmr n w => Sys2Proof.Machine.execMwTmr n w s
  | .mwClr n w => Sys2Proof.Machine.execMwClr n w s
  | .mwSelhd n w => Sys2Proof.Machine.execMwSelhd n w s
  | .mwLdsect n w => Sys2Proof.Machine.execMwLdsect n w s
  | .mwArmf n w => Sys2Proof.Machine.execMwArmf n w s
  | .mwPopres n w => Sys2Proof.Machine.execMwPopres n w s
  | .mwRev n w => Sys2Proof.Machine.execMwRev n w s
  | .mwRdback n w => Sys2Proof.Machine.execMwRdback n w s
  | .mwSlot n w => Sys2Proof.Machine.execMwSlot n w s
  | .mwSetsect n w => Sys2Proof.Machine.execMwSetsect n w s
  | .mwSignal n w => Sys2Proof.Machine.execMwSignal n w s
  | .mwDone n w => Sys2Proof.Machine.execMwDone n w s
  | .mwFetch n w => Sys2Proof.Machine.execMwFetch n w s
  | .seqTimerExpiry n t1 => Sys2Proof.Machine.execSeqTimerExpiry n t1 s
  | .fragmentBegun n late sbr => Sys2Proof.Machine.execFragmentBegun n late sbr s
  | .sectPassed n slot => Sys2Proof.Machine.execSectPassed n slot s
  | .opLimitExpiry n => Sys2Proof.Machine.execOpLimitExpiry n s
  | .seqEn n on => Sys2Proof.Machine.execSeqEn n on s
  | .stop n => Sys2Proof.Machine.execStop n s
  | .patchLoad n bank => Sys2Proof.Machine.execPatchLoad n bank s
  | .patchLoadComplete n => Sys2Proof.Machine.execPatchLoadComplete n s
  | .bankSwitchRequest n sel => Sys2Proof.Machine.execBankSwitchRequest n sel s
  | .bankSwitch n => Sys2Proof.Machine.execBankSwitch n s
  | .csSnapshot n a => Sys2Proof.Machine.execCsSnapshot n a s
  | .islandRailFault x good => Sys2Proof.Machine.execIslandRailFault x good s
  | .islandClockFault x good stopped => Sys2Proof.Machine.execIslandClockFault x good stopped s
  | .crosslinkFrame x n => Sys2Proof.Machine.execCrosslinkFrame x n s
  | .goldenCheckDone x pass => Sys2Proof.Machine.execGoldenCheckDone x pass s
  | .periodicGoldenCheck x => Sys2Proof.Machine.execPeriodicGoldenCheck x s
  | .failIsland x => Sys2Proof.Machine.execFailIsland x s
  | .rejoinIsland x => Sys2Proof.Machine.execRejoinIsland x s
  | .autoRejoin x => Sys2Proof.Machine.execAutoRejoin x s
  | .rejoining x => Sys2Proof.Machine.execRejoining x s
  | .rejoinCopyDone x => Sys2Proof.Machine.execRejoinCopyDone x s
  | .shadowComplete x => Sys2Proof.Machine.execShadowComplete x s
  | .crosslinkDown => Sys2Proof.Machine.execCrosslinkDown s
  | .crosslinkFailback => Sys2Proof.Machine.execCrosslinkFailback s
  | .heartbeat cluster => Sys2Proof.Machine.execHeartbeat cluster s
  | .heartbeatTimeout cluster => Sys2Proof.Machine.execHeartbeatTimeout cluster s
  | .service source cluster => Sys2Proof.Machine.execService source cluster s
  | .standby source cluster => Sys2Proof.Machine.execStandby source cluster s
  | .off source cluster => Sys2Proof.Machine.execOff source cluster s
  | .clusterFail source cluster => Sys2Proof.Machine.execClusterFail source cluster s
  | .retest source cluster => Sys2Proof.Machine.execRetest source cluster s
  | .selfTestTimeout cluster => Sys2Proof.Machine.execSelfTestTimeout cluster s
  | .tandemLaneFailback x => Sys2Proof.Machine.execTandemLaneFailback x s
  | .statusLaneFault => Sys2Proof.Machine.execStatusLaneFault s
  | .decoderGoldenDecode k pass => Sys2Proof.Machine.execDecoderGoldenDecode k pass s
  | .recorderTake => Sys2Proof.Machine.execRecorderTake s
  | .mirrorCopy err => Sys2Proof.Machine.execMirrorCopy err s
  | .suppressed src code => Sys2Proof.Machine.execSuppressed src code s
  | .fwRecord h v => Sys2Proof.Machine.execFwRecord h v s
  | .snap => Sys2Proof.Machine.execSnap s
  | .wset => Sys2Proof.Machine.execWset s
  | .sramScrub corrected bad => Sys2Proof.Machine.execSramScrub corrected bad s
  | .retestStrata => Sys2Proof.Machine.execRetestStrata s
  | .retestStrataDone pass => Sys2Proof.Machine.execRetestStrataDone pass s
  | .captureEnable k acts => Sys2Proof.Machine.execCaptureEnable k acts s
  | .fire => Sys2Proof.Machine.execFire s
  | .captureFrozen k => Sys2Proof.Machine.execCaptureFrozen k s
  | .rearm k => Sys2Proof.Machine.execRearm k s
  | .branchSyncItem => Sys2Proof.Machine.execBranchSyncItem s
  | .laneReplay n defer count => Sys2Proof.Machine.execLaneReplay n defer count s
  | .servoReplay x n count => Sys2Proof.Machine.execServoReplay x n count s
  | .replayDone wedges => Sys2Proof.Machine.execReplayDone wedges s
  | .replayAck => Sys2Proof.Machine.execReplayAck s
  | .verifySlot slot => Sys2Proof.Machine.execVerifySlot slot s
  | .activated slot => Sys2Proof.Machine.execActivated slot s
  | .signReport => Sys2Proof.Machine.execSignReport s
  | .keyMgmt otpOk => Sys2Proof.Machine.execKeyMgmt otpOk s
  | .svnRaise image mc otpOk => Sys2Proof.Machine.execSvnRaise image mc otpOk s
  | .lcAdvance target otpOk => Sys2Proof.Machine.execLcAdvance target otpOk s
  | .debugUnlock => Sys2Proof.Machine.execDebugUnlock s
  | .genIdentity otpOk => Sys2Proof.Machine.execGenIdentity otpOk s
  | .challenge => Sys2Proof.Machine.execChallenge s
  | .secCommandDone => Sys2Proof.Machine.execSecCommandDone s
  | .identityDerivation => Sys2Proof.Machine.execIdentityDerivation s
  | .debugModuleAccess a size v err => Sys2Proof.Machine.execDebugModuleAccess a size v err s
  | .statusLaneFailback => Sys2Proof.Machine.execStatusLaneFailback s
  | .coefficientMemoryScrub x corrected uncorrectable => Sys2Proof.Machine.execCoefficientMemoryScrub x corrected uncorrectable s
  | .ospiCommandEnd bytes effect => Sys2Proof.Machine.execOspiCommandEnd bytes effect s
  | .receivedPauseExpiry port => Sys2Proof.Machine.execReceivedPauseExpiry port s
  | .correctableRateFailback mram => Sys2Proof.Machine.execCorrectableRateFailback mram s
  | .elementCheckComplete n head elems => Sys2Proof.Machine.execElementCheckComplete n head elems s
  | .basCtlEn x en acts => Sys2Proof.Machine.execBasCtlEn x en acts s
  | .tandemLaneEnable tl0 tl1 tls => Sys2Proof.Machine.execTandemLaneEnable tl0 tl1 tls s

end Sys2Proof.Machine
end

