-- ==== Sys2Proof/Machine/Step.lean ====
section
/-! DEFINITION. One step of the block: the command at the front of the queue takes effect. The host's two entry points
for a command given by a word stand here and in `Decode`. -/

namespace Sys2Proof.Machine

/-- What the block does when no command waits: one cycle of CLK_REF passes, 10 ns of the monotonic timebase, or one
cycle of CLK_AON while the reference is lost (R24, R54, log 1). -/
def idle (s : State) : State := { s with now := s.now + if s.pwr.refOk then 10 else 30518 }

/-- One step: the command at the front of the queue is taken off and has its effect; on an empty queue the block idles. -/
def step (s : State) : Host.Outcome State Fault Refusal :=
  match s.pending with
  | [] => .next (idle s)
  | c :: rest => exec c { s with pending := rest }

/-- A command given by a word of the table put at the front of the queue. The table gives its rows no bits, so no word
spells one. -/
def State.withFetchWord (s : State) (nbits w : Nat) : State :=
  match decodeTableWord nbits w with
  | some c => { s with pending := c :: s.pending }
  | none => s

end Sys2Proof.Machine
end

