-- ==== Sys2Proof/Safety.lean ====
section
/-! DEFINITION. The words the statements are made of: a device out of reset, memory in its canonical form, and what a
command leaves as it was. -/

namespace Sys2Proof

open Sys2Proof.Machine

/-- The device is out of reset and no power-fail sequence is in progress: ordinary commands act (R63, R64). -/
abbrev Awake (s : State) : Prop := s.pwr.phase = .running

/-- Memory is in its canonical form. -/
abbrev MemInv (s : State) : Prop := Memory.wf s.mem = true

/-- Memory and the calibration tables are in their canonical form. -/
abbrev FormsInv (s : State) : Prop := MemInv s ∧ smWf (fun _ => (0 : Word)) s.cal.tab = true

/-- Every byte of memory reads as before. -/
def MemKept (s t : State) : Prop := ∀ a, memByte t a = memByte s a

/-- Every byte of memory outside `n` bytes from `lo` reads as before. -/
def MemKeptBut (lo n : Nat) (s t : State) : Prop := ∀ a, ¬(lo ≤ a ∧ a < lo + n) → memByte t a = memByte s a

/-- Every register but those listed reads as before. -/
def RegsKept (but : List Nat) (s t : State) : Prop := ∀ a, a ∉ but → reg t a = reg s a

/-- Every designated 64-bit counter but those listed reads as before. -/
def WidesKept (but : List Nat) (s t : State) : Prop := ∀ a, a ∉ but → wide t a = wide s a

/-- No unit has a cause pending to end the track operation in hand: between commands none ever stands (R385). -/
abbrev Quiet (s : State) : Prop := ∀ n, n < 4 → (getCh s n).stop = none

/-- The recorder's own counts of records dropped and events suppressed, which any record may raise (R424, R426). -/
abbrev recordCounts : List Nat := [aStrataCount 0, aStrataCount 1]

end Sys2Proof
end

