-- ==== Sys2Proof/Certificates/Slice0/Obligations.lean ====
section
/-! DEFINITION. The statements for the provers, from the spec's numbered rules. -/

open Sys2Proof Sys2Proof.Machine

/-! ### The queue, the timebase, reset and identity -/

/-- A step takes the command at the front of the queue and is its effect on the state with the queue's rest; on an empty
queue one cycle of the block's reference passes (the queue and the idle cycle are the model's own: log 1). -/
def Obligations.StepRunsTheFrontCommand : Prop :=
  (∀ (c : Instr) (rest : List Instr) (s : State), s.pending = c :: rest → step s = exec c { s with pending := rest }) ∧
  (∀ s : State, s.pending = [] → step s = .next { s with now := s.now + if s.pwr.refOk then 10 else 30518 })

/-- What reset leaves: an empty queue, every register at its reset value and every counter at 0 (R9, R96), memory with
nothing listed, hart 0 alone running, from the boot ROM's first byte (R70), cluster 0 IN_SERVICE and every other OFF
(R408), no connection, no command in progress, no fault, and the START record waiting (R430). -/
def Obligations.ResetValues : Prop :=
  State.reset.pending = [] ∧ (∀ a, reg State.reset a = (regReset a).toNat) ∧ (∀ a, wide State.reset a = 0) ∧
  FormsInv State.reset ∧ (∀ a, memByte State.reset a = memDefault a) ∧
  getHart State.reset 0 = some 0 ∧ (∀ h, 1 ≤ h → getHart State.reset h = none) ∧
  (getClu State.reset 0).st = 1 ∧ (∀ c, 1 ≤ c → (getClu State.reset c).st = 0) ∧
  (∀ x, getCtx State.reset x = none) ∧ State.reset.cmd.cmds = [] ∧ State.reset.red.faults = [] ∧
  severityOf State.reset.red = 0 ∧ State.reset.now = 0 ∧ State.reset.pwr.phase = .running ∧
  State.reset.strata.queue.map (fun r => (r.src, r.code, r.args)) = [(srcSys, 1, [0, 2 ^ cPor, 0])]

/-- Every command ends in a next state: nothing a sender commands stops the block. The queue, the variant (R1) and,
but for a core power-up, the timebase are as they were. -/
def Obligations.EveryCommandCompletes : Prop :=
  ∀ (c : Instr) (s : State), ∃ t, exec c s = .next t ∧ t.pending = s.pending ∧ t.variant = s.variant ∧
    (t.now = s.now ∨ (t.now = 0 ∧ ∃ torn old levels, c = .corePowerUp torn old levels))

/-- The commands of a list given one after the other, each with the later ones waiting behind it. -/
def runQueue : List Instr → State → Host.Outcome State Fault Refusal
  | [], s => .next { s with pending := [] }
  | c :: cs, s =>
    match exec c { s with pending := cs } with
    | .next t => runQueue cs t
    | .fault r => .fault r
    | .refused r => .refused r

/-- A queue of commands runs first in, first out, each command once and to its end: as many steps as commands wait
leave the queue empty, in the state that the commands make one after the other. -/
def Obligations.QueueRunsInOrderToItsEnd : Prop :=
  ∀ (cs : List Instr) (s : State), ∃ t, runQueue cs s = .next t ∧
    Host.Core.run core cs.length { s with pending := cs } = .next t ∧ t.pending = [] ∧ t.variant = s.variant

/-- The commands that act on a device in reset: those of the supplies, the always-on domain with its temperature sensors and the
pins, and the power driver's bus time-out, whose effects begin outside the device (R60–R64). -/
def actsInReset : Instr → Bool
  | .corePowerUp .. | .supplyMonitorTrip _ | .pwrFailNLow .. | .resetEntered | .restart | .referenceLoss | .referenceReturn
  | .aonXtalTimeout | .crystalStart | .thermalSample _ | .thermalTripRelease | .rstNLow | .rstNRelease | .jtagTrst _
  | .driverFrameTimeout _ => true
  | _ => false

/-- In reset nothing else has any effect: no host, no hart and no unit of the device changes any of its state until
reset is released (R63, R64). In the power-fail sequence no command writes the MRAM: the journal is sealed, and the mirror and
the firmware region stay as they are; a core power-up alone shows what the collapse of power left of writes that nothing had
acknowledged (R63, R91). -/
def Obligations.ResetHoldsEveryOtherCommand : Prop :=
  ∀ (c : Instr) (s : State),
    (s.pwr.phase = .reset → actsInReset c = false → exec c s = .next s) ∧
    (s.pwr.phase = .quiescing → (∀ torn old levels, c ≠ .corePowerUp torn old levels) →
      ∃ t, exec c s = .next t ∧ t.jrn = s.jrn ∧ t.mirror = s.mirror ∧ ∀ a, mramBase ≤ a → memByte t a = memByte s a)

/-- SYS_ID is fixed at manufacture: it reads 0x4120 with the revision B0, the variant and its actuators, and no step of
the device changes it (R1, R3, R103); the timebase never decreases but at a core power-up (R24). -/
def Obligations.SysIdAndTimebaseInvariants : Prop :=
  ∀ s t : State, step s = .next t →
    viewReg t aSysId = viewReg s aSysId ∧
    (viewReg s aSysId = 0x4120F1B0 ∨ viewReg s aSysId = 0x412032B0) ∧
    (s.now ≤ t.now ∨ ∃ torn old levels rest, s.pending = .corePowerUp torn old levels :: rest)

/-! ### Power, reference, temperature, watchdog and reset (R49–R70) -/

/-- The crystal, the TAP pin and the PLLs show in the power status and change nothing else (R55, R61, R62). A kick of
the watchdog with KICK = 0x6B1D restarts its count with the TIMEOUT then held, and any other value has no effect (R66,
R68). -/
def ClockPinsAndWatchdogKick : Prop :=
  ∀ s : State,
    exec .crystalStart s = .next { s with pwr := { s.pwr with xtalOk := true } } ∧
    exec .aonXtalTimeout s = .next { s with pwr := { s.pwr with xtalOk := false } } ∧
    (∀ low, exec (.jtagTrst low) s = .next { s with pwr := { s.pwr with tapReset := low } }) ∧
    (Awake s → exec .pllsLocked s = .next { s with pwr := { s.pwr with pllLocked := true } }) ∧
    (∀ v, Awake s → v % 65536 = 0x6B1D → exec (.wdogKick v) s =
      .next { s with pwr := { s.pwr with wdogTimeout := reg s aWdogCfg % 65536, wdogFrom := s.now } }) ∧
    (∀ v, Awake s → v % 65536 ≠ 0x6B1D → exec (.wdogKick v) s = .next s)

/-- What recognizing a source that quiesces does to a running device (R63, R226, R431): the sequence has begun with that
source, the recorder has stopped and holds no queued record, write gate is off and PAn_MGT pulled at every actuator
present; memory, the journal and the command engine are as they were. -/
def Quiesces (i : Nat) (s t : State) : Prop :=
  t.pwr.phase = .quiescing ∧ t.pwr.recognized = 2 ^ i ∧ t.pwr.holding = addCause i s.pwr.holding ∧
  t.strata.stopped = true ∧ t.strata.queue = [] ∧
  (∀ n, n < 4 → actPresent s n = true → (getHsl t n).failPull = true ∧ (getHsl t n).writeEn = false) ∧
  t.mem = s.mem ∧ t.jrn = s.jrn ∧ t.cmd = s.cmd ∧ t.host = s.host ∧ t.now = s.now

/-- Of the eight sensors' readings the `i`th is the hottest, the first of equals (R58; of equals the lowest: log 22). -/
def Hottest (temps : List Int) (x : Int) (i : Nat) : Prop :=
  temps.length = 8 ∧ temps[i]? = some x ∧ ∀ j y, temps[j]? = some y → y ≤ x ∧ (y = x → i ≤ j)

/-- Every source that quiesces starts the power-fail sequence of a running device: PWR_FAIL_N low, a monitor trip,
reference loss, the watchdog while it is enabled, a temperature of 135.0 °C or more, and a soft reset with its key
(R52, R54, R60, R63, R67, R68). -/
def QuiescingSourcesStartTheSequence : Prop :=
  ∀ s : State, s.pwr.phase = .running →
    (∃ t, exec (.pwrFailNLow true true) s = .next t ∧ Quiesces cPwrfail s t ∧ t.pwr.pwrFailHigh = false) ∧
    (∀ low recognized, (low && recognized) = false →
      exec (.pwrFailNLow low recognized) s = .next { s with pwr := { s.pwr with pwrFailHigh := !low } }) ∧
    (∀ rail, ∃ t, exec (.supplyMonitorTrip rail) s = .next t ∧ Quiesces cMonitor s t) ∧
    (∃ t, exec .referenceLoss s = .next t ∧ Quiesces cRefloss s t ∧ t.pwr.refOk = false) ∧
    (regB s aWdogCfg 16 = true → ∃ t, exec .watchdogTimeout s = .next t ∧ Quiesces cWdog s t) ∧
    (regB s aWdogCfg 16 = false → exec .watchdogTimeout s = .next s) ∧
    (∀ temps x i, Hottest temps x i → 540 ≤ x → x < 2048 →
      ∃ t, exec (.thermalSample temps) s = .next t ∧ Quiesces cThermal s t ∧ t.pwr.tmax = x.toNat) ∧
    (∀ v, v / 256 % 2 = 1 → v % 256 = 0x5A → ∃ t, exec (.softRst v) s = .next t ∧ Quiesces cSoft s t)

/-- R67: SOFT_RST with KEY 0x5A starts a soft reset through the power-fail sequence; with any other KEY the write has no
effect and makes a Strata record; without SOFT_RST nothing happens. -/
def Obligations.SoftResetNeedsItsKey : Prop :=
  ∀ (s : State) (v : Nat), Awake s →
    (v / 256 % 2 = 1 → v % 256 = 0x5A → ∃ t, exec (.softRst v) s = .next t ∧
      t.pwr.phase = .quiescing ∧ bit t.pwr.recognized cSoft = true ∧ bit t.pwr.holding cSoft = true) ∧
    (v / 256 % 2 = 1 → v % 256 ≠ 0x5A → exec (.softRst v) s = .next (record srcSys 0x13 [v] s)) ∧
    (v / 256 % 2 = 0 → exec (.softRst v) s = .next s)

/-- The thresholds of a thermal sample below the trip: TMAX shows the hottest sensor, each threshold is reached at
its setting and releases 2.0 °C below it; nothing but the power status and the records of R59 changes. -/
def ThermalThresholdsHaveHysteresis : Prop :=
  ∀ (s : State) (temps : List Int) (x : Int) (i : Nat), Awake s → Hottest temps x i → -2048 ≤ x → x < 540 →
    ∃ t, exec (.thermalSample temps) s = .next t ∧ t.pwr.tmax = unsgn 12 x ∧ t.pwr.tmaxSensor = i ∧
      (t.pwr.warn = true ↔ sgn 12 (regF s aThermCfg 0 12) - (if s.pwr.warn then 8 else 0) ≤ x) ∧
      (t.pwr.crit = true ↔ sgn 12 (regF s aThermCfg 16 12) - (if s.pwr.crit then 8 else 0) ≤ x) ∧
      t.pwr.phase = s.pwr.phase ∧
      t = { s with pwr := t.pwr, regs := t.regs, strata := t.strata } ∧ RegsKept recordCounts s t

/-- What every reset leaves (R9, R61, R62, R66): registers at their reset values, no designated counter, no DRAM, no
connection and no command; MRAM, the flash, OTP's contents and the timebase survive. -/
def InReset (s t : State) : Prop :=
  t.pwr.phase = .reset ∧ (∀ a, reg t a = (regReset a).toNat) ∧ (∀ a, wide t a = 0) ∧
  (∀ a, a < mramBase → memByte t a = memDefault a) ∧ (∀ a, mramBase ≤ a → memByte t a = memByte s a) ∧
  t.jrn.recs = s.jrn.recs ∧ t.flash = s.flash ∧ t.otp.lc = s.otp.lc ∧ t.host = {} ∧ t.cmd = {} ∧ t.now = s.now

/-- RST_N takes the device into reset at once, and the power-fail sequence ends in reset: RESET_COUNT rises by one,
saturating, and the recorded source is the first of the list of R66 among those recognized (R61, R63, R66). A core
power-up resets the timebase, the count and the wall clock too (R24, R52). -/
def ResetEntryAndItsCause : Prop :=
  ∀ s : State,
    (s.pwr.phase = .quiescing → ∃ t, exec .resetEntered s = .next t ∧ InReset s t ∧
      t.pwr.resetCount = min (s.pwr.resetCount + 1) 65535 ∧ t.pwr.cause = causeOf s.pwr.recognized) ∧
    (s.pwr.phase = .running → ∃ t, exec .rstNLow s = .next t ∧ InReset s t ∧
      t.pwr.resetCount = min (s.pwr.resetCount + 1) 65535 ∧ t.pwr.cause = 2 ^ cPin ∧ t.pwr.rstHigh = false ∧
      bit t.pwr.holding cPin = true) ∧
    (∀ levels : Fin 128, ∃ t, exec (.corePowerUp [] [] levels) s = .next t ∧ InReset { s with now := 0 } t ∧
      t.pwr.resetCount = 0 ∧ t.pwr.cause = 2 ^ cPor ∧ t.wall = {} ∧ t.pending = s.pending ∧ t.variant = s.variant ∧
      bit t.pwr.holding cPin = true ∧ t.pwr.refOk = bit levels 4 ∧ bit t.pwr.holding cRefloss = !bit levels 4 ∧
      t.pwr.pwrFailHigh = bit levels 6 ∧ bit t.pwr.holding cPwrfail = !bit levels 6)

/-- A device held in reset by one cause alone leaves reset when that cause goes: it runs, its START record is the first
one queued (R430), a challenge of 32 bytes is drawn (R457), and memory, registers and the timebase are as they were. -/
def Released (s t : State) : Prop :=
  t.pwr.phase = .running ∧ t.pwr.holding = 0 ∧ t.sec.challenge.length = 32 ∧ t.sec.lc = lcOf s.otp ∧
  t.strata.queue.head?.map (fun r => (r.src, r.code)) = some (srcSys, 1) ∧
  t.mem = s.mem ∧ t.now = s.now ∧ t.jrn = s.jrn

/-- Reset is left when the last cause that holds it goes: the rails and PWR_FAIL_N, the reference, the temperature, and
RST_N (R54, R60, R62, R63). The reset that follows entry to RMA is left out here: it clears the MRAM (R456). -/
def ResetReleaseByTheLastCause : Prop :=
  ∀ s : State, s.pwr.phase = .reset → s.strata = {} → s.otp.lc ≠ 3 → s.otp.bad = [] →
    (s.pwr.holding = 2 ^ cPwrfail → ∃ t, exec .restart s = .next t ∧ Released s t) ∧
    (s.pwr.holding = 2 ^ cRefloss → ∃ t, exec .referenceReturn s = .next t ∧ Released s t ∧ t.pwr.refOk = true) ∧
    (s.pwr.holding = 2 ^ cThermal → sgn 12 s.pwr.aonTmax < 440 →
      ∃ t, exec .thermalTripRelease s = .next t ∧ Released s t) ∧
    (440 ≤ sgn 12 s.pwr.aonTmax → exec .thermalTripRelease s = .next s) ∧
    (s.pwr.holding = 2 ^ cPin → ∃ t, exec .rstNRelease s = .next t ∧ Released s t ∧ t.pwr.rstHigh = true)

/-- SYS_WDOG_CFG (R66, R68, R94): a first write that sets ENABLE starts the count with the TIMEOUT it carries, when that
is in range; ENABLE is then locked at 1, and a write of 0 to it is a violation of its lock. -/
def WatchdogEnableLocks : Prop :=
  ∀ (s : State) (v : Nat), Awake s →
    (regB s aWdogCfg 16 = false → v / 65536 % 2 = 1 → 100 ≤ v % 65536 → v % 65536 ≤ 10000 →
      ∃ t, exec (.wdogCfgWrite v) s = .next t ∧ regB t aWdogCfg 16 = true ∧ t.pwr.wdogTimeout = v % 65536 ∧
        t.pwr.wdogFrom = s.now ∧ t = { s with regs := t.regs, pwr := t.pwr } ∧ RegsKept [aWdogCfg] s t) ∧
    (regB s aWdogCfg 16 = true → v / 65536 % 2 = 0 →
      ∃ t, exec (.wdogCfgWrite v) s = .next t ∧ regB t aWdogCfg 16 = true ∧
        reg t aLockViol = min (reg s aLockViol + 1) 0xFFFFFFFF ∧ t.pwr = s.pwr ∧ t.mem = s.mem ∧
        RegsKept (aWdogCfg :: aLockViol :: recordCounts) s t)

/-- The clock's and the TAP's pins, the watchdog's kick and its lock (R55, R61, R62, R66, R68, R94). -/
def Obligations.PinsAndWatchdogFollowTheirRules : Prop := ClockPinsAndWatchdogKick ∧ WatchdogEnableLocks

/-- What starts the power-fail sequence, and the temperatures that do not (R52, R54, R59, R60, R63, R67, R68). -/
def Obligations.QuiescingSourcesAndThermalThresholds : Prop :=
  QuiescingSourcesStartTheSequence ∧ ThermalThresholdsHaveHysteresis

/-- Reset is entered with its cause and left with its last one (R54, R60–R63, R66, R430, R457). -/
def Obligations.ResetIsEnteredAndLeft : Prop := ResetEntryAndItsCause ∧ ResetReleaseByTheLastCause

/-! ### Engine clusters (R69–R73, R408–R413) -/

/-- CORE_RUN releases a core in machine mode at its SYS_HARTBOOT address or stops it, ISOLATE raises or lowers the fence, and
neither touches any other bit, core or register; a FAULTY cluster takes neither (R69–R71, R408). A write to the high word of
SYS_MTIMECMPh puts the whole compare value in force, and a pending timer interrupt reaches a running hart outside a
fence, which then runs in machine mode, after the external interrupt that is pending (R71–R73; their order: log 86). -/
def Obligations.HartsFencesAndTimers : Prop :=
  ∀ s : State, Awake s →
    (∀ (c k : Fin 8) (run : Bool), (getClu s c).st ≠ 6 → ∃ t, exec (.coreRun c k run) s = .next t ∧
      regB t (aCluCtl c) k = run ∧ (∀ j, j < 9 → j ≠ k.val → regB t (aCluCtl c) j = regB s (aCluCtl c) j) ∧
      getHart t (8 * c + k) = (if regB s (aCluCtl c) k = run then getHart s (8 * c + k)
        else if run then some (reg s (aHartboot (8 * c + k))) else none) ∧
      (∀ h, h ≠ 8 * c.val + k.val → getHart t h = getHart s h) ∧
      (regB s (aCluCtl c) k = false → run = true → getHartRegs t (8 * c + k) = {}) ∧
      (∀ h, h ≠ 8 * c.val + k.val → getHartRegs t h = getHartRegs s h) ∧
      t = { s with regs := t.regs, hartStart := t.hartStart, hart := t.hart } ∧ RegsKept [aCluCtl c] s t) ∧
    (∀ (c : Fin 8) (on : Bool), (getClu s c).st ≠ 6 → ∃ t, exec (.isolate c on) s = .next t ∧ isolated t c = on ∧
      (∀ j, j < 8 → regB t (aCluCtl c) j = regB s (aCluCtl c) j) ∧
      t = { s with regs := t.regs } ∧ RegsKept [aCluCtl c] s t) ∧
    (∀ (c k : Fin 8) (run on : Bool), (getClu s c).st = 6 →
      exec (.coreRun c k run) s = .next s ∧ exec (.isolate c on) s = .next s) ∧
    (∀ (h : Fin 64) (high : Nat), ∃ t, exec (.mtimecmpWrite h high) s = .next t ∧
      getCmp t h = high % 2 ^ 32 * 2 ^ 32 + reg s (aMtimecmp h) ∧ (∀ k, k ≠ h.val → getCmp t k = getCmp s k) ∧
      reg t (aMtimecmp h + 4) = high % 2 ^ 32 ∧
      t = { s with regs := t.regs, mtimecmp := t.mtimecmp } ∧ RegsKept [aMtimecmp h + 4] s t) ∧
    (∀ h : Fin 64, getCmp s h ≤ s.now → (getHart s h).isSome = true → isolated s (h / 8) = false →
      ∃ t, exec (.machineTimerInterrupt h) s = .next t ∧ (getHartRegs t h).user = false ∧
        t.out = (if externalPending s h then [.timer h, .external h] else [.timer h]) ++ s.out ∧
        (∀ k, k ≠ h.val → getHartRegs t k = getHartRegs s k) ∧ t = { s with out := t.out, hart := t.hart }) ∧
    (∀ h : Fin 64, getHart s h = none ∨ isolated s (h / 8) = true ∨ (s.now < getCmp s h ∧ externalPending s h = false) →
      exec (.machineTimerInterrupt h) s = .next s)

/-- Every other cluster is in the state it was in. -/
def OthersKept (c : Nat) (s t : State) : Prop := ∀ d, d ≠ c → getClu t d = getClu s d

/-- The cluster's caches are empty and none of its harts runs but, where `boot` says so, hart 8c (R61, R412). -/
def ClusterReset (c : Nat) (boot : Option Nat) (t : State) : Prop :=
  getHart t (8 * c) = boot ∧ (∀ k, 1 ≤ k → k < 8 → getHart t (8 * c + k) = none) ∧ getL2 t c = {} ∧
  isolated t c = true ∧ (∀ h, h / 8 = c → getRes t h = none)

/-- RED_CLU_CMD written by a hart that may reach it (R408, R410, R412, R419): OFF, SERVICE, STANDBY and RETEST each
move a cluster from the states the table gives; an action that the present state does not allow changes nothing and is
recorded; behind a fence the write gets an error response. -/
def ClusterCommandsMoveStates : Prop :=
  ∀ (s : State) (source : Fin 64) (c : Fin 8), Awake s → (getClu s (source / 8)).st ≠ 5 →
    fenced s source aRedCluCmd = false →
    ((getClu s c).st = 1 ∨ (getClu s c).st = 2 → ∃ t, exec (.off source c) s = .next t ∧ (getClu t c).st = 0 ∧
      OthersKept c s t ∧ t = { s with red := t.red } ∧ t.red.faults = s.red.faults) ∧
    ((getClu s c).st = 0 → ∃ t, exec (.service source c) s = .next t ∧ (getClu t c).st = 1 ∧
      (getClu t c).hbFrom = s.now ∧ (getClu t c).hbTimeout = reg s aRedCfg % 1024 ∧
      OthersKept c s t ∧ t = { s with red := t.red } ∧ t.red.faults = s.red.faults) ∧
    (standbyOf s = none → (getClu s c).st = 0 ∨ (getClu s c).st = 1 → ∃ t, exec (.standby source c) s = .next t ∧
      (getClu t c).st = 2 ∧ (getClu t c).hbFrom = s.now ∧ OthersKept c s t ∧ t = { s with red := t.red }) ∧
    ((getClu s c).st = 6 → ∃ t, exec (.retest source c) s = .next t ∧ (getClu t c).st = 5 ∧ (getClu t c).fence = true ∧
      ClusterReset c (some 0x8000) t ∧ OthersKept c s t ∧ t.mem = s.mem ∧ t.jrn = s.jrn ∧ t.cmd = s.cmd) ∧
    ((standbyOf s).isSome = true → exec (.standby source c) s = .next (record srcRed 0x41 [c + 16] s)) ∧
    ((getClu s c).st ≠ 6 → exec (.retest source c) s = .next (record srcRed 0x41 [c + 40] s))

/-- A cluster's faults (R409, R410, R412, R413): a heartbeat restarts the cluster's time-out; a missed one, and a
declared fault, isolate and reset the cluster and send it to TESTING, or to FAULTY at the third fault within a day; the
STANDBY cluster takes over from an IN_SERVICE one, with its interrupt routes; a self-test that does not end leaves it
FAULTY. Memory, the journal, and the other clusters are as they were (R411). -/
def ClusterFaultsAndTakeover : Prop :=
  ∀ (s : State) (c : Fin 8),  s.pwr.phase = .running →
    (beats (getClu s c).st = true → isolated s c = false → ∃ t, exec (.heartbeat c) s = .next t ∧
      (getClu t c).hbFrom = s.now ∧ (getClu t c).st = (getClu s c).st ∧ OthersKept c s t ∧ t = { s with red := t.red }) ∧
    (∀ d, (getClu s c).st = 1 → standbyOf s = some d → (getClu s c).fails = [] → heartbeatLate s c = true →
      ∃ t, exec (.heartbeatTimeout c) s = .next t ∧ (getClu t c).st = 5 ∧ ClusterReset c (some 0x8000) t ∧
        (getClu t d).st = 3 ∧ t.red.takeover = some { failed := c, taker := d, since := s.now } ∧
        (∀ i, i < 256 → i ≠ 80 → regF t (aIrqRoute i) 3 3 = if regF s (aIrqRoute i) 3 3 = c then d else regF s (aIrqRoute i) 3 3) ∧
        reg t (aIrqRoute 80) = 8 * d + 64 ∧ t.mem = s.mem ∧ t.jrn = s.jrn ∧ t.cmd = s.cmd ∧
        (∀ e, e ≠ c.val → e ≠ d → getClu t e = getClu s e)) ∧
    (∀ source : Fin 64, (getClu s (source / 8)).st ≠ 5 → fenced s source aRedCluCmd = false → (getClu s c).st = 2 →
      (getClu s c).fails = [] → ∃ t, exec (.clusterFail source c) s = .next t ∧ (getClu t c).st = 5 ∧
        ClusterReset c (some 0x8000) t ∧ OthersKept c s t ∧ t.mem = s.mem ∧ t.jrn = s.jrn ∧ t.cmd = s.cmd) ∧
    (beats (getClu s c).st = false ∨ heartbeatLate s c = false → exec (.heartbeatTimeout c) s = .next s) ∧
    ((getClu s c).st = 5 → ∃ t, exec (.selfTestTimeout c) s = .next t ∧ (getClu t c).st = 6 ∧
      ClusterReset c none t ∧ OthersKept c s t ∧ t.mem = s.mem ∧ t.jrn = s.jrn ∧ t.cmd = s.cmd) ∧
    ((getClu s c).st ≠ 5 → exec (.selfTestTimeout c) s = .next s)

/-- Clusters under command and at fault (R408–R412). -/
def Obligations.ClustersMoveFailAndAreTakenOver : Prop := ClusterCommandsMoveStates ∧ ClusterFaultsAndTakeover

/-! ### Memory and caches (R74–R91) -/

/-- A store of an engine (R74, R78, R84, R86, R90): the bytes stand at the home of their address, for both DRAM windows
show the same bytes, and nowhere else; every L1 copy but the storing core's goes, every other hart's reservation of the
first line's granule is lost, and memory stays in its canonical form. A store that the map or a fence refuses changes no
byte and gets its error response. -/
def Obligations.EngineStoresReachMemory : Prop :=
  ∀ (s : State) (c k : Fin 8) (a : Nat) (bs : List Byte), Awake s →
    (pmpFault s (8 * c + k) a bs.length pmpW = false → storeRefused s (8 * c + k) a = none → regionOf s a ≠ .io → bs.length ≠ 0 →
      ∃ t, exec (.l2Store c k a bs .good) s = .next t ∧
        (∀ i, i < bs.length → memByte t (homeAddr s a + i) = bs.getD i 0) ∧
        MemKeptBut (homeAddr s a) bs.length s t ∧ (MemInv s → MemInv t) ∧
        (∀ (j : Fin 8) (x : L1Line) (i : Nat), j ≠ k → i < bs.length → x ∈ getL1 t (16 * c + 2 * j + 1) → x.line ≠ (a + i) / 64) ∧
        (∀ h, h < 64 → h ≠ 8 * c.val + k.val → getRes t h ≠ some (homeAddr s (a / 64 * 64) / 64)) ∧
        (homeAddr s a < mramBase → t.unfenced = s.unfenced) ∧
        t = { s with mem := t.mem, bad := t.bad, l2 := t.l2, l1 := t.l1, reserve := t.reserve, unfenced := t.unfenced }) ∧
    (∀ e err, pmpFault s (8 * c + k) a bs.length pmpW = false → storeRefused s (8 * c + k) a = some e →
      exec (.l2Store c k a bs err) s = .next (accError (8 * c + k) a e (sizeCode bs.length) true s)) ∧
    (∀ err, pmpFault s (8 * c + k) a bs.length pmpW = true → exec (.l2Store c k a bs err) s = .next s) ∧
    (∀ e, storeRefused s (8 * c + k) a = some e → MemKept s (accError (8 * c + k) a e (sizeCode bs.length) true s))

/-- Atomic operations (R84) on memory that reads good: the old value is answered, the value of the operation stands at
the home of the address and nowhere else; LR reserves the granule; SC stores and answers 0 exactly while the
reservation stands, and drops it. -/
def Obligations.AtomicsReadModifyWrite : Prop :=
  ∀ (s : State) (h : Fin 64) (wide : Bool) (a v : Nat),
    let n := if wide then 8 else 4
    let old := leNat (physBytes s a n)
    let home := homeAddr s a
    Awake s → atomicRefused s h a false = none → a % n = 0 → isBad s (home / 64) = false →
    pmpFault s h a n pmpR = false → pmpFault s h a n pmpW = false →
    (∀ op, op ≠ .lr → op ≠ .sc → ∃ t, exec (.atomicOperation h op wide a v .good) s = .next t ∧
      t.out = .atomic h old :: s.out ∧ memBytes t home n = leBytes n (amoValue op (8 * n) old (v % 2 ^ (8 * n))) ∧
      MemKeptBut home n s t ∧ (MemInv s → MemInv t) ∧
      t = { s with out := t.out, mem := t.mem, bad := t.bad, l2 := t.l2, l1 := t.l1, reserve := t.reserve, unfenced := t.unfenced }) ∧
    (∃ t, exec (.atomicOperation h .lr wide a v .good) s = .next t ∧ t.out = .atomic h old :: s.out ∧
      getRes t h = some (home / 64) ∧ (∀ k, k ≠ h.val → getRes t k = getRes s k) ∧
      t = { s with out := t.out, l2 := t.l2, l1 := t.l1, reserve := t.reserve }) ∧
    (getRes s h = some (home / 64) → ∃ t, exec (.atomicOperation h .sc wide a v .good) s = .next t ∧
      t.out = .atomic h 0 :: s.out ∧ getRes t h = none ∧ memBytes t home n = leBytes n v ∧ MemKeptBut home n s t ∧
      (MemInv s → MemInv t)) ∧
    (getRes s h ≠ some (home / 64) → ∃ t, exec (.atomicOperation h .sc wide a v .good) s = .next t ∧
      t.out = .atomic h 1 :: s.out ∧ getRes t h = none ∧ t.mem = s.mem)

/-- The way a requester's access uses a PMP entry: its core's fetches execute, its loads read (R69, R75). -/
def readKind (r : Fin 16) : Nat := if r.val % 2 = 0 then pmpX else pmpR

/-- The caches never change memory, and bring what memory holds (R74–R83): a miss starts a fill with the line's bytes; a
fill's return delivers it to the requester, and puts it in one of the ways its mask allows; a hit is delivered; CBO
invalidates every copy of the cluster; a fence makes the hart's stores durable, and `fence.i` empties its instruction cache; a
disabled L2 holds no line. A read of the flash window returns only once no flash command is on the bus (R128). -/
def Obligations.CachesBringMemory : Prop :=
  ∀ (s : State) (c : Fin 8) (a : Nat), Awake s →
    (∀ (r : Fin 16) (size : Fin 4), pmpFault s (hartOf c r) a (2 ^ size.val) (readKind r) = false →
      readRefused s c r a = none → cacheable s a = true → l2Find s c (a / 64) = none →
      missing (getL2 s c) r = false → (getL2 s c).fills = [] → isBad s (homeAddr s (a / 64 * 64) / 64) = false →
      ∃ t, exec (.l2ReadMiss c r a size false none .good) s = .next t ∧
        (getL2 t c).fills = [{ line := a / 64, first := { req := r, addr := a, size := size }, merged := [],
                               data := lineBytes s (a / 64), noAlloc := !l2On s c, bad := false }] ∧
        (getL2 t c).lines = (getL2 s c).lines ∧ t = { s with l2 := t.l2 }) ∧
    (∀ (r : Fin 16) (size : Fin 4) (parity tag e), pmpFault s (hartOf c r) a (2 ^ size.val) (readKind r) = false →
      ∀ k, readRefused s c r a = some k → parity = false →
      exec (.l2ReadMiss c r a size parity tag e) s = .next (accError (hartOf c r) a k size false s)) ∧
    (∀ (r : Fin 16) (size pick : Nat) (data : List Byte) (e), l2On s c = true → fillWays s c r ≠ [] → (getL2 s c).waits = [] →
      regionOf s (a / 64 * 64) ≠ .flash →
      (getL2 s c).fills = [{ line := a / 64, first := { req := r, addr := a, size := size }, merged := [], data := data,
                             noAlloc := false, bad := false }] →
      ∃ t, exec (.l2FillReturn c a pick none e) s = .next t ∧ t.out = .line c r (a / 64) data :: s.out ∧
        (getL2 t c).fills = [] ∧ (∃ x, l2Find t c (a / 64) = some x ∧ x.data = data ∧ x.way ∈ fillWays s c r ∧
          x.set = a / 64 % 1024) ∧ t = { s with out := t.out, l2 := t.l2 }) ∧
    (∀ (pick : Nat) (way e), regionOf s (a / 64 * 64) = .flash → s.boot.busy = true →
      exec (.l2FillReturn c a pick way e) s = .next s) ∧
    (∀ (r : Fin 16) (size : Fin 4) (x : L2Line), pmpFault s (hartOf c r) a (2 ^ size.val) (readKind r) = false →
      readRefused s c r a = none → l2Find s c (a / 64) = some x →
      ∃ t, exec (.l2Hit c r a size false .good .good none) s = .next t ∧ t.out = .line c r (a / 64) x.data :: s.out ∧
        (∀ line, l2Find t c line = l2Find s c line) ∧ (getL2 t c).fills = (getL2 s c).fills ∧
        t = { s with out := t.out, l2 := t.l2 }) ∧
    (∃ t, exec (.cboInval c a) s = .next t ∧ l2Find t c (a / 64) = none ∧
      (∀ (r : Fin 16) (x : L1Line), x ∈ getL1 t (16 * c + r) → x.line ≠ a / 64) ∧
      (∀ f : Fill, f ∈ (getL2 t c).fills → f.line = a / 64 → f.noAlloc = true) ∧ t = { s with l2 := t.l2, l1 := t.l1 }) ∧
    (∀ (h : Fin 64) (op), op ≠ .fenceI → ∃ t, exec (.cboClean h a op) s = .next t ∧
      (∀ x, x ∈ t.unfenced ↔ x ∈ s.unfenced ∧ x.1 ≠ h.val) ∧ t = { s with unfenced := t.unfenced }) ∧
    (∀ h : Fin 64, ∃ t, exec (.cboClean h a .fenceI) s = .next t ∧ getL1 t (16 * (h / 8) + 2 * (h % 8)) = [] ∧
      (∀ k, k ≠ 16 * (h.val / 8) + 2 * (h.val % 8) → getL1 t k = getL1 s k) ∧ t = { s with l1 := t.l1 }) ∧
    (∃ t, exec (.l2Disable c) s = .next t ∧ regB t (aL2Ctl c) 0 = false ∧ regB t (aL2Ctl c) 1 = false ∧
      (getL2 t c).lines = [] ∧ (∀ f : Fill, f ∈ (getL2 t c).fills → f.noAlloc = true) ∧
      t = { s with regs := t.regs, strata := t.strata, l2 := t.l2 } ∧ RegsKept (aL2Ctl c :: recordCounts) s t) ∧
    (∃ t, exec (.l2Enable c) s = .next t ∧ l2On t c = true ∧ regB t (aL2Ctl c) 1 = true ∧
      t = { s with regs := t.regs, strata := t.strata } ∧ RegsKept (aL2Ctl c :: recordCounts) s t)

/-- A scrub changes no byte: it counts what it corrects and finds again what is uncorrectable (R88, R89); the trend of a
rate that has fallen is cleared (R414). DRAM's settings and the MRAM's regions are taken once, with LOCKED: a later
write that differs is a violation of the lock (R87, R90, R95), and locking the regions begins a new life of the recorder
(R430). -/
def Obligations.ScrubsAndMemoryLocks : Prop :=
  ∀ s : State, Awake s →
    (∀ b : Nat, 0 < dramUsable s → s.bad = [] → s.red.dramCe = [] → dramBase ≤ b * 64 → b * 64 + 64 ≤ dramBase + dramUsable s →
      ∃ t, exec (.dramScrub [b] []) s = .next t ∧ wide t aDramCeLo = min (wide s aDramCeLo + 1) (2 ^ 64 - 1) ∧
        t = { s with wide := t.wide, red := t.red } ∧ WidesKept [aDramCeLo] s t) ∧
    (∀ b : Nat, s.bad = [] → s.red.mramCe = [] → mramBase ≤ b * 64 → b * 64 + 64 ≤ mramBase + 0x40000000 →
      ∃ t, exec (.mramScrub [] [b]) s = .next t ∧ isBad t b = true ∧
        reg t aMramUe = min (reg s aMramUe + 1) 0xFFFFFFFF ∧ t.mem = s.mem ∧ t.jrn = s.jrn ∧
        RegsKept (aMramUe :: aMramCe :: recordCounts) s t) ∧
    (s.red.dramCe = [] → faultPresent s 0x42 0 = true → ∃ t, exec (.correctableRateFailback false) s = .next t ∧
      faultPresent t 0x42 0 = false ∧ t = { s with regs := t.regs, strata := t.strata, red := t.red }) ∧
    (∀ v : Nat, regB s aDramCfg 7 = false → 1 ≤ v % 4 → 1 ≤ v / 4 % 8 → v / 4 % 8 ≤ 3 → v / 128 % 2 = 1 →
      ∃ t, exec (.dramCfgLock v) s = .next t ∧ reg t aDramCfg = v % 32 + 128 ∧ 0 < dramUsable t ∧
        t = { s with regs := t.regs } ∧ RegsKept [aDramCfg] s t) ∧
    (∀ v : Nat, regB s aDramCfg 7 = true → v % 32 ≠ reg s aDramCfg % 32 →
      exec (.dramCfgLock v) s = .next (noteViolation aDramCfg v s)) ∧
    (∀ v : Nat, mramLocked s = false → v % 128 ≤ 64 → v / 128 % 2 = 1 → s.mirror.good = true →
      ∃ t, exec (.mramRegionLock v) s = .next t ∧ mramLocked t = true ∧ fwMib t = v % 128 ∧
        t.mirror.life = (s.mirror.life + 1) % 2 ^ 32 ∧ t.mirror.epoch = (s.mirror.epoch + 1) % 256 ∧
        t.strata.mirrorRun = true ∧ t.mem = s.mem ∧ RegsKept [aMramRegion] s t) ∧
    (∀ v : Nat, mramLocked s = true → v % 128 ≠ fwMib s → exec (.mramRegionLock v) s = .next (noteViolation aMramRegion v s))

/-! ### Head Sample Link and preamplifiers (R199–R233) -/

/-- No track operation and no control request of the group is in hand. -/
abbrev GroupIdle (s : State) (n : Nat) : Prop :=
  (getCh s n).busy = false ∧ (getCh s n).write = false ∧ (getHsl s n).cur = none ∧ (getHsl s n).queue = []

/-- What a lane's event leaves alone: the other lanes and groups, and everything but the groups, the preamplifiers'
safe state and what they drive, the registers listed, and what a stopped clock's domain shows. -/
def OnlyLane (n l : Nat) (but : List Nat) (s t : State) : Prop :=
  (∀ k, k ≠ l → k < 3 → (getLane (getHsl t n) k).st = (getLane (getHsl s n) k).st) ∧
  (∀ m, m ≠ n → getHsl t m = getHsl s m) ∧ t = { s with hsl := t.hsl, pre := t.pre, regs := t.regs, out := t.out, crossed := t.crossed } ∧ RegsKept but s t

/-- The state machine of the lanes (R222, R226): 0 OFF, 1 ACQUIRING, 2 LOCKED, 3 UP, 4 LOST, 5 FAILED, and lane 3 is the
downstream lane. Each event moves one lane and counts where the table says so. -/
def LinkLanesMove : Prop :=
  ∀ (s : State) (n : Fin 4), Awake s → Quiet s → GroupIdle s n →
    (∀ l : Fin 3, (getLane (getHsl s n) l).st = 1 ∨ (getLane (getHsl s n) l).st = 4 →
      ∃ t, exec (.laneAcquired n l) s = .next t ∧ (getLane (getHsl t n) l).st = 2 ∧ OnlyLane n l [aDnSafe n] s t) ∧
    (∀ l : Fin 4, l.val < 3 → (getLane (getHsl s n) l).st = 2 →
      ∃ t, exec (.laneUp n l) s = .next t ∧ laneUp t n l = true ∧ (getHsl t n).lanesPull = false ∧
        OnlyLane n l [aDnSafe n] s t) ∧
    ((getHsl s n).dSt = 2 ∨ (getHsl s n).dSt = 4 → markerLock (getHsl s n) = true →
      ∃ t, exec (.laneUp n 3) s = .next t ∧ downUp t n = true ∧ OnlyLane n 3 [] s t) ∧
    (markerLock (getHsl s n) = false → exec (.laneUp n 3) s = .next s) ∧
    (∀ l : Fin 4, l.val < 3 → laneUp s n l = true → ∃ t, exec (.laneLost n l) s = .next t ∧
      (getLane (getHsl t n) l).st = 4 ∧ reg t (aUpLoss n l) = min (reg s (aUpLoss n l) + 1) 0xFFFFFFFF ∧
      OnlyLane n l [aUpLoss n l, aDnLoss n, aDnSafe n] s t) ∧
    (downUp s n = true → ∃ t, exec (.laneLost n 3) s = .next t ∧ (getHsl t n).dSt = 4 ∧ (getHsl t n).auxOut = [] ∧
      reg t (aDnLoss n) = min (reg s (aDnLoss n) + 1) 0xFFFFFFFF ∧ OnlyLane n 3 [aDnLoss n] s t) ∧
    (∀ l : Fin 4, l.val < 3 → (getLane (getHsl s n) l).st = 2 → ∃ t, exec (.laneFailed n l) s = .next t ∧
      (getLane (getHsl t n) l).st = 5 ∧ reg t (aUpFail n l) = min (reg s (aUpFail n l) + 1) 0xFFFFFFFF ∧
      OnlyLane n l [aUpFail n l, aDnLoss n, aDnSafe n] s t) ∧
    ((getHsl s n).dSt = 4 → ∃ t, exec (.laneFailed n 3) s = .next t ∧ (getHsl t n).dSt = 5 ∧
      (∀ m, m ≠ n.val → getHsl t m = getHsl s m) ∧ t = { s with hsl := t.hsl, host := t.host, out := t.out })

/-- HSL_CTL (R222, R226, R227, R232): EN starts the downstream lane's training, a receiver turned on begins to acquire,
PA_RUN lets the preamplifier run from its reset values, and MGT_SAFE puts it in its safe state, counted once. The
registers of an actuator that is not present take no write (R2). -/
def LinkControlRegister : Prop :=
  ∀ (s : State) (n : Fin 4), Awake s → Quiet s → GroupIdle s n →
    (actPresent s n = true → reg s (aHslCtl n) = 0 → (getHsl s n).dSt = 0 → ∃ t, exec (.hslEn n true) s = .next t ∧
      reg t (aHslCtl n) = 1 ∧ (getHsl t n).dSt = 2 ∧ OnlyLane n 3 [aHslCtl n, aDnSafe n] s t) ∧
    (∀ l : Fin 3, actPresent s n = true → reg s (aHslCtl n) = 1 → ∃ t, exec (.rxEn n l true) s = .next t ∧
      reg t (aHslCtl n) = 1 + 2 ^ (8 + l.val) ∧ (getLane (getHsl t n) l).st = 1 ∧
      OnlyLane n l [aHslCtl n, aDnLoss n, aDnSafe n] s t) ∧
    (actPresent s n = true → reg s (aHslCtl n) = 1 → ∃ t, exec (.paRun n true) s = .next t ∧ reg t (aHslCtl n) = 3 ∧
      (getPre t n).running = true ∧ (getPre t n).safe = true ∧ (getPre t n).regs = [] ∧
      (getPre t n).faults = (getPre s n).faults ∧ OnlyLane n 3 [aHslCtl n, aDnSafe n] s t) ∧
    (actPresent s n = true → reg s (aHslCtl n) = 3 → ∃ t, exec (.mgtSafe n true) s = .next t ∧ reg t (aHslCtl n) = 7 ∧
      (getHsl t n).hwSafe = true ∧ (getPre t n).safe = true ∧ (getPre t n).fifo = [] ∧
      reg t (aDnSafe n) = (if (getHsl s n).hwSafe then reg s (aDnSafe n) else min (reg s (aDnSafe n) + 1) 0xFFFFFFFF) ∧
      OnlyLane n 3 [aHslCtl n, aDnSafe n] s t) ∧
    (∀ (l : Fin 3) (on : Bool), actPresent s n = false → exec (.hslEn n on) s = .next s ∧ exec (.rxEn n l on) s = .next s ∧
      exec (.paRun n on) s = .next s ∧ exec (.mgtSafe n on) s = .next s)

/-- Frames of an idle group (R200, R203, R206–R213, R222). A lane that is OFF takes nothing. One that acquires is in TRAIN
after eight MARKERs in a row, and one in TRAIN is UP after 1,024 good training frames. A frame is judged as its descrambler
leaves it. With one lane UP, a good sample frame of it delivers its 128 samples, counted nowhere but as erased ones; one whose
CRC fails, with its MARKER in place, delivers erased samples where the cadence has samples and counts one CRC error. Downstream,
a lane in training sends a training frame, an idle one a frame with no write symbol and WRITE_EN 0, as 560 symbols of one of
four levels, and one that is OFF or FAILED nothing. -/
def LinkFramesCarrySamples : Prop :=
  ∀ (s : State) (n : Fin 4) (f g : LinkFrame), Awake s → Quiet s → GroupIdle s n → (getCh s n).sectors = [] →
    (∀ (l : Fin 3) (d dA dB : Nat), actPresent s n = false ∨ (getLane (getHsl s n) l).st = 0 →
      exec (.upstreamFrame n l f d dA dB) s = .next s) ∧
    (∀ (l : Fin 3) (d dA dB : Nat), actPresent s n = true →
      (getLane (getHsl s n) l).st = 1 ∨ (getLane (getHsl s n) l).st = 4 → f.marker = upMarker →
      ∃ t, exec (.upstreamFrame n l f d dA dB) s = .next t ∧ (getLane (getHsl t n) l).descr = lineTail (lineBits f) ∧
        (8 ≤ (getLane (getHsl s n) l).markRun + 1 → (getLane (getHsl t n) l).st = 2) ∧
        ((getLane (getHsl s n) l).markRun + 1 < 8 → (getLane (getHsl t n) l).st = (getLane (getHsl s n) l).st ∧
          (getLane (getHsl t n) l).markRun = (getLane (getHsl s n) l).markRun + 1) ∧ OnlyLane n l [aDnSafe n] s t) ∧
    (∀ (l : Fin 3) (d dA dB : Nat), actPresent s n = true → (getLane (getHsl s n) l).st = 2 →
      received (getLane (getHsl s n) l).descr f = g → frameGood upMarker g = true → upPtype g = 3 →
      ∃ t, exec (.upstreamFrame n l f d dA dB) s = .next t ∧ (getLane (getHsl t n) l).fseq = upFseq g ∧
        (1024 ≤ (getLane (getHsl s n) l).train + 1 → laneUp t n l = true) ∧
        ((getLane (getHsl s n) l).train + 1 < 1024 → (getLane (getHsl t n) l).st = 2 ∧
          (getLane (getHsl t n) l).train = (getLane (getHsl s n) l).train + 1) ∧ OnlyLane n l [aDnLoss n, aDnSafe n] s t) ∧
    (∀ l : Fin 3, actPresent s n = true → laneUp s n l = true → (∀ k, k < 3 → k ≠ l.val → laneUp s n k = false) →
      (getHsl s n).skew = [] → received (getLane (getHsl s n) l).descr f = g → frameGood upMarker g = true → upPtype g = 0 →
      upDsUp g = true → ∃ t, exec (.upstreamFrame n l f 0 0 0) s = .next t ∧
        (getLane (getHsl t n) l).samples = payloadSamples g.payload ∧ (getLane (getHsl t n) l).fseq = upFseq g ∧
        (getLane (getHsl t n) l).descr = lineTail (lineBits f) ∧
        wide t (aUpCrcLo n l) = wide s (aUpCrcLo n l) ∧
        wide t (aUpErasedLo n l) = min (wide s (aUpErasedLo n l) + erasedCount (payloadSamples g.payload)) (2 ^ 64 - 1) ∧
        t = { s with regs := t.regs, wide := t.wide, hsl := t.hsl, chan := t.chan, seq := t.seq, bas := t.bas } ∧
        RegsKept [] s t ∧ WidesKept [aUpCrcLo n l, aUpErasedLo n l] s t) ∧
    (∀ l : Fin 3, actPresent s n = true → laneUp s n l = true → (∀ k, k < 3 → k ≠ l.val → laneUp s n k = false) →
      (getHsl s n).skew = [] → received (getLane (getHsl s n) l).descr f = g → frameGood upMarker g = false → f.marker = upMarker →
      (getLane (getHsl s n) l).errRun < 15 →
      (getLane (getHsl s n) l).ptype = 0 → samplePos (getLane (getHsl s n) l).rate (((getLane (getHsl s n) l).fseq + 1) % 256) = true →
      ∃ t, exec (.upstreamFrame n l f 0 0 0) s = .next t ∧ (getLane (getHsl t n) l).samples = List.replicate 128 none ∧
        wide t (aUpCrcLo n l) = min (wide s (aUpCrcLo n l) + 1) (2 ^ 64 - 1) ∧ t.mem = s.mem ∧ t.cmd = s.cmd ∧ RegsKept [] s t) ∧
    (∀ (cells : List WCell) (next : Bool) (sbr ratio : Nat), (getHsl s n).dSt = 2 ∨ (getHsl s n).dSt = 4 →
      ∃ t h line levels, exec (.downstreamFrame n cells next sbr ratio) s = .next t ∧
        t.out = .downFrame n h [] 0 0 line levels :: s.out ∧ bits h 8 2 = 3 ∧ (getHsl t n).scr = lineTail line ∧
        levels.length = 560 ∧ (∀ v, v ∈ levels → v = -3 ∨ v = -1 ∨ v = 1 ∨ v = 3) ∧
        wide t (aDnFramesLo n) = min (wide s (aDnFramesLo n) + 1) (2 ^ 64 - 1) ∧
        t = { s with out := t.out, hsl := t.hsl, wide := t.wide }) ∧
    (∀ (cells : List WCell) (next : Bool) (sbr ratio : Nat), (getHsl s n).dSt = 3 →
      ∃ t h d line levels, exec (.downstreamFrame n cells next sbr ratio) s = .next t ∧
        t.out = .downFrame n h [] d ((getHsl s n).auxOut.headD 0) line levels :: s.out ∧ bits h 8 2 = 0 ∧ bit d 11 = false ∧
        (getHsl t n).writeEn = false ∧ (getHsl t n).auxOut = (getHsl s n).auxOut.drop 1 ∧
        wide t (aDnFramesLo n) = min (wide s (aDnFramesLo n) + 1) (2 ^ 64 - 1) ∧
        t = { s with out := t.out, hsl := t.hsl, wide := t.wide }) ∧
    (∀ (cells : List WCell) (next : Bool) (sbr ratio : Nat), (getHsl s n).dSt = 0 ∨ (getHsl s n).dSt = 5 →
      exec (.downstreamFrame n cells next sbr ratio) s = .next s)

/-- The preamplifier (R123, R212–R220, R227, R230): its faults show on its line and hold it in its safe state; a wired
head is present exactly when none of its six elements is out of limits; a request is answered once, with its TAG; an
errored frame is counted and aborts a write stream, and a good demand block is applied within its limits. -/
def PreamplifierAnswers : Prop :=
  ∀ (s : State) (n : Fin 4), Awake s →
    (∀ f : Fin 32, ∃ t, exec (.paFaultN n f) s = .next t ∧ (getPre t n).faults = f ∧
      (getHsl t n).paFault = decide (f.val ≠ 0) ∧ (f.val ≠ 0 → (getPre t n).safe = true) ∧
      t = { s with hsl := t.hsl, pre := t.pre, out := t.out }) ∧
    (∀ (m : Fin 8) (e : Fin 64), bits (getPre s n).headstat (2 * m) 2 = 3 → ∃ t, exec (.elementCheckComplete n m e) s = .next t ∧
      bits (getPre t n).headstat (2 * m) 2 = (if e.val = 0 then 1 else 2) ∧
      (∀ k, k < 8 → k ≠ m.val → bits (getPre t n).headstat (2 * k) 2 = bits (getPre s n).headstat (2 * k) 2) ∧
      t = { s with pre := t.pre }) ∧
    (∀ (m : Nat) (rest : List Nat) (mask rst : Nat), (getPre s n).running = true → (getPre s n).inbox = m :: rest → m % 8 = 2 →
      preWritable (bits m 9 10 * 4) = some (rst, mask) → preRefuses (getPre s n) (bits m 9 10 * 4) = false →
      ∃ t, exec (.paRequest n) s = .next t ∧ preReg (getPre t n) (bits m 9 10 * 4) = Nat.land (msgData m) mask ∧
        t.out = .paReply n (2 + bits m 3 6 * 8) :: s.out ∧ (getPre t n).inbox = rest ∧
        t = { s with out := t.out, pre := t.pre }) ∧
    (∀ (m : Nat) (rest : List Nat), (getPre s n).running = true → (getPre s n).inbox = m :: rest → m % 8 = 1 →
      preRead (getPre s n) n (bits m 9 10 * 4) 0 = none →
      ∃ t, exec (.paRequest n) s = .next t ∧ t.out = .paReply n (1 + bits m 3 6 * 8 + 512) :: s.out ∧
        (getPre t n).inbox = rest ∧ t = { s with out := t.out, pre := t.pre }) ∧
    (∀ (f g : LinkFrame) (k : Nat) (settled : Bool), (getPre s n).running = true → (getPre s n).emitting = false →
      received (getPre s n).descr f = g → downGood g = false →
      ∃ t, exec (.paDownstreamFrame n f k settled) s = .next t ∧ (getPre t n).crcErr = min ((getPre s n).crcErr + 1) 0xFFFFFFFF ∧
        ((getPre s n).writeEn = true → (getPre t n).wabort = true ∧ (getPre t n).fifo = []) ∧
        (getPre t n).assist = (getPre s n).assist ∧ t = { s with pre := t.pre, out := t.out, free := t.free }) ∧
    (∀ (f g : LinkFrame) (k : Nat) (settled : Bool), (getPre s n).running = true → (getPre s n).emitting = false →
      received (getPre s n).descr f = g → downGood g = true →
      (getPre s n).dsUp = true → bits g.header 8 2 = 0 → ∃ t, exec (.paDownstreamFrame n f k settled) s = .next t ∧
        (getPre t n).assist = min (bits (demandOf g) 0 10) (preReg (getPre s n) 0x88) ∧
        (getPre t n).heater = min (bits (demandOf g) 12 10) (preReg (getPre s n) 0x8C) ∧
        (getPre t n).writeEn = bit (demandOf g) 11 ∧ (getPre t n).errRun = 0 ∧
        (∃ hs aux, .upFrames n hs aux ∈ t.out ∧ hs.length = 3) ∧
        t = { s with pre := t.pre, out := t.out, free := t.free }) ∧
    (∀ (f : LinkFrame) (k : Nat) (settled : Bool), (getPre s n).running = false →
      exec (.paDownstreamFrame n f k settled) s = .next s)

/-- Control frames (R218–R221, R343): an access of the group's queue is sent with the next TAG as its four AUX units, and
once more with the same TAG when no reply has come; while HSLn.D is UP a STATUS or SENSE frame updates its register. -/
def ControlFramesAreSentAndTaken : Prop :=
  ∀ (s : State) (n : Fin 4), Awake s →
    (∀ (r : CfReq) (rest : List CfReq), downUp s n = true → (getHsl s n).cur = none → (getHsl s n).queue = r :: rest →
      r.dead = false → ∃ t, exec (.controlRequest n) s = .next t ∧
        (getHsl t n).cur = some { req := r, tag := (getHsl s n).tag } ∧ (getHsl t n).queue = rest ∧
        (getHsl t n).tag = ((getHsl s n).tag + 1) % 64 ∧
        (getHsl t n).auxOut = (getHsl s n).auxOut ++ auxUnits (cfMsg r (getHsl s n).tag) ∧ t = { s with hsl := t.hsl }) ∧
    (∀ c : CfCur, downUp s n = true → (getHsl s n).cur = some c → c.resent = false →
      ∃ t, exec (.controlResend n) s = .next t ∧ (getHsl t n).cur = some { c with resent := true } ∧
        (getHsl t n).auxOut = (getHsl s n).auxOut ++ auxUnits (cfMsg c.req c.tag) ∧
        regF t (aHslCfCount n) 0 16 = min (regF s (aHslCfCount n) 0 16 + 1) 65535 ∧
        t = { s with hsl := t.hsl, regs := t.regs } ∧ RegsKept [aHslCfCount n] s t) ∧
    (∀ c : CfCur, (getHsl s n).cur = some c → c.resent = true → exec (.controlResend n) s = .next s) ∧
    (∀ (m : Nat) (rest : List Nat), downUp s n = true → (getHsl s n).inbox = m :: rest → m % 8 = 6 → ∃ t, exec (.paSense n) s = .next t ∧
      reg t (aHslPaSense n) = bits m 19 32 ∧ (getHsl t n).inbox = rest ∧ (getAst t n).fresh = true ∧
      t = { s with hsl := t.hsl, regs := t.regs, cal := t.cal } ∧ RegsKept [aHslPaSense n] s t) ∧
    (∀ (m : Nat) (rest : List Nat), Quiet s → downUp s n = true → (getCh s n).write = false → (getHsl s n).inbox = m :: rest → m % 8 = 7 →
      bit (bits m 19 32) 11 = false → bit (bits m 19 32) 13 = false → bit (bits m 19 32) 14 = false →
      ∃ t, exec (.paStatus n) s = .next t ∧ reg t (aHslPaStat n) = bits m 19 32 ∧ (getHsl t n).inbox = rest ∧
        t = { s with hsl := t.hsl, regs := t.regs } ∧ RegsKept [aHslPaStat n] s t) ∧
    (∀ (m : Nat) (rest : List Nat), Quiet s → downUp s n = false → (getHsl s n).inbox = m :: rest →
      (m % 8 = 6 → ∃ t, exec (.paSense n) s = .next t ∧ (getHsl t n).inbox = rest ∧ t = { s with hsl := t.hsl }) ∧
      (m % 8 = 7 → ∃ t, exec (.paStatus n) s = .next t ∧ (getHsl t n).inbox = rest ∧ t = { s with hsl := t.hsl }))

/-- The indirect pair of a cluster, with no access before it (R71, R99–R101, R221, R231, R356): a write of IND_ADDR selects and
clears TIMEOUT; while TIMEOUT stands every read gives ones; an access that selects no target, and one given up, set TIMEOUT and
are counted; a word of a calibration table is read, and the downstream lane's FFE written, at once; one to a preamplifier waits
for its reply, which ends it. Behind its cluster's fence an access gets an error response instead. -/
def Obligations.IndirectPairServesAccesses : Prop :=
  ∀ (s : State) (c : Fin 8) (src : Fin 128), Awake s →
    (∀ v : BitVec 32, fenced s src (aIndAddr c) = true →
      exec (.indAddrWrite c src v) s = .next (accError src (aIndAddr c) errIsolated 2 true s)) ∧
    (∀ v : BitVec 32, fenced s src (aIndAddr c + 4) = true →
      exec (.indDataRead c src) s = .next (accError src (aIndAddr c + 4) errIsolated 2 false s) ∧
      exec (.indDataWrite c src v) s = .next (accError src (aIndAddr c + 4) errIsolated 2 true s)) ∧
    ((getInd s c).waiting = [] →
    (∀ v : BitVec 32, fenced s src (aIndAddr c) = false → (getInd s c).busy = none →
      ∃ t, exec (.indAddrWrite c src v) s = .next t ∧
      reg t (aIndAddr c) = v.toNat / 4 * 4 ∧ regB t (aIndStatus c) 0 = false ∧
      RegsKept [aIndAddr c, aIndStatus c] s t ∧ t.mem = s.mem ∧ t.out = s.out) ∧
    (fenced s src (aIndAddr c + 4) = false → (getInd s c).busy = none → indTimedOut s c = true →
      ∃ t, exec (.indDataRead c src) s = .next t ∧
      t.out = .readData src 0xFFFFFFFF :: s.out ∧ RegsKept [] s t ∧ t.mem = s.mem) ∧
    (∀ v : BitVec 32, fenced s src (aIndAddr c + 4) = false → (getInd s c).busy = none → indTimedOut s c = false →
      indTarget s c = false → ∃ t, exec (.indDataWrite c src v) s = .next t ∧ indTimedOut t c = true ∧
        regF t (aIndStatus c) 16 16 = min (regF s (aIndStatus c) 16 16 + 1) 65535 ∧ RegsKept [aIndStatus c] s t ∧
        t.mem = s.mem ∧ t.cal = s.cal ∧ t.out = s.out) ∧
    (fenced s src (aIndAddr c + 4) = false → (getInd s c).busy = none → indTimedOut s c = false → indTarget s c = true →
      indSpace s c = 3 → ∃ t, exec (.indDataRead c src) s = .next t ∧
        t.out = .readData src (calWord s (decide (0x20000 ≤ indOfs s c)) (indOfs s c % 0x20000 / 0x1000) (indOfs s c % 0x1000)) :: s.out ∧
        (regB s (aIndCtl c) 0 = true → regF t (aIndAddr c) 2 24 = (regF s (aIndAddr c) 2 24 + 1) % 2 ^ 24) ∧
        (regB s (aIndCtl c) 0 = false → RegsKept [] s t) ∧ t = { s with out := t.out, regs := t.regs, ind := t.ind }) ∧
    (∀ v : BitVec 32, fenced s src (aIndAddr c + 4) = false → (getInd s c).busy = none → indTimedOut s c = false →
      indTarget s c = true → indSpace s c = 1 → indOfs s c = 0xC0 → ∃ t, exec (.indDataWrite c src v) s = .next t ∧
        (getHsl t (indUnit s c)).txFfe = v.toNat % 2 ^ 18 ∧ t = { s with hsl := t.hsl, regs := t.regs, ind := t.ind } ∧
        RegsKept [aIndAddr c] s t) ∧
    (fenced s src (aIndAddr c + 4) = false → (getInd s c).busy = none → indTimedOut s c = false → indTarget s c = true →
      indSpace s c = 2 → downUp s (indUnit s c) = true →
      ∃ t, exec (.indDataRead c src) s = .next t ∧ (getInd t c).busy = some (.read src 4 0) ∧
        (getHsl t (indUnit s c)).queue = (getHsl s (indUnit s c)).queue ++
          [{ pair := some c, write := false, reg := indOfs s c / 4, data := 0 }] ∧ RegsKept [] s t) ∧
    ((getInd s c).busy = some (.read src 4 0) → ∃ t, exec (.indTimeout c) s = .next t ∧ (getInd t c).busy = none ∧
      indTimedOut t c = true ∧ t.out = .readData src 0xFFFFFFFF :: s.out ∧ RegsKept [aIndStatus c] s t) ∧
    (∀ (n : Fin 4) (r : CfCur) (m : Nat), Quiet s → (getInd s c).busy = some (.read src 4 0) → regB s (aIndCtl c) 0 = false →
      (getHsl s n).cur = some r → r.req = { pair := some c, write := false, reg := r.req.reg, data := r.req.data } →
      (getHsl s n).inbox = [m] → m % 8 = 1 → bits m 3 6 = r.tag → bits m 9 2 = 0 →
      ∃ t, exec (.controlReply n) s = .next t ∧ (getInd t c).busy = none ∧ (getHsl t n).cur = none ∧
        t.out = .readData src (bits m 19 32) :: s.out ∧ RegsKept [] s t) ∧
    (∀ (n : Fin 4) (r : CfCur), Quiet s → (getInd s c).busy = some (.read src 4 0) → (getHsl s n).cur = some r → r.resent = true →
      r.req = { pair := some c, write := false, reg := r.req.reg, data := r.req.data } →
      ∃ t, exec (.controlGiveUp n) s = .next t ∧ (getInd t c).busy = none ∧ indTimedOut t c = true ∧
        t.out = .readData src 0xFFFFFFFF :: s.out ∧ RegsKept [aIndStatus c, aHslCfCount n] s t))

/-- The lanes of a head sample link and its control register (R201–R208, R216). -/
def Obligations.LinkLanesMoveUnderControl : Prop := LinkLanesMove ∧ LinkControlRegister

/-- Link frames, control frames, and the preamplifier that answers them (R206–R221). -/
def Obligations.LinkAndControlFrames : Prop := LinkFramesCarrySamples ∧ PreamplifierAnswers ∧ ControlFramesAreSentAndTaken

/-! ### Host ports and connections (R129–R141, R152, R158) -/

/-- No connection, no controller, no CDC and no command: nothing on the host side is affected beside the port. -/
abbrev HostQuiet (s : State) : Prop :=
  s.host.ctxs = [] ∧ s.host.ctrls = [] ∧ s.host.cdcs = [] ∧ s.cmd.cmds = []

/-- A port's event changes that port alone, its counts, the discovery log's generation, and the redundancy state's fault of the
port. -/
def OnlyPort (p : Nat) (but : List Nat) (s t : State) : Prop :=
  (∀ q, q ≠ p → getPort t q = getPort s q) ∧ (∀ f, f ∈ t.red.faults → f ∈ s.red.faults ∨ f = (0x30, p)) ∧
  t = { s with host := t.host, regs := t.regs, strata := t.strata, red := t.red } ∧
  t.host = { s.host with ports := t.host.ports, discGen := t.host.discGen } ∧ RegsKept (aRedEvents :: but ++ recordCounts) s t

/-- A port's link (R129, R131, R158): an enabled port comes up at the highest rate both ends advertise; a link lost is
counted; a port that stays down, or is disabled, has failed, with its fault; setting its enable begins auto-negotiation.
The discovery log changes with it (R154). Stated where no connection stands and the slow path is off (the end of a connection is
stated with the connections). -/
def PortsComeUpAndFail : Prop :=
  ∀ (s : State) (p : Fin 2), s.pwr.phase = .running → HostQuiet s → regB s aSlowCfg 8 = false →
    (∀ (partner r : Nat) (rs br : Bool), portEnabled s p = true → (getPort s p).up = false → commonRate s p partner = some r →
      ∃ t, exec (.linkUp p partner rs br) s = .next t ∧ (getPort t p).up = true ∧ (getPort t p).rate = r ∧
        (getPort t p).failed = false ∧ bits s.host.hostRate (2 * p) 2 ≤ r ∧ bit partner r = true ∧
        t.host.discGen = s.host.discGen + 1 ∧
        (getPort t p).fec = (if r = 2 then (if rs then 2 else if br then 3 else 0) else 1) ∧
        faultPresent t 0x30 p = false ∧ OnlyPort p [] s t) ∧
    (∀ (partner : Nat) (rs br : Bool), portEnabled s p = false ∨ (getPort s p).up = true ∨ commonRate s p partner = none →
      exec (.linkUp p partner rs br) s = .next s) ∧
    ((getPort s p).up = true → ∃ t, exec (.linkDown p) s = .next t ∧ (getPort t p).up = false ∧
      (getPort t p).training = portEnabled s p ∧ reg t (aLinkDown p) = min (reg s (aLinkDown p) + 1) 0xFFFFFFFF ∧
      OnlyPort p [aLinkDown p] s t) ∧
    (portEnabled s p = true → (getPort s p).up = false → (getPort s p).failed = false → ∃ t, exec (.portFailed p) s = .next t ∧
      (getPort t p).failed = true ∧ (getPort t p).up = false ∧ faultPresent t 0x30 p = true ∧ OnlyPort p [] s t) ∧
    (portEnabled s p = false → ∃ t, exec (.portEnable p) s = .next t ∧ portEnabled t p = true ∧
      (getPort t p).training = true ∧ OnlyPort p [aHostCtl] s t) ∧
    (portEnabled s p = true → ∃ t, exec (.portDisable p) s = .next t ∧ portEnabled t p = false ∧ (getPort t p).up = false ∧
      (getPort t p).failed = true ∧ (getPort t p).training = false ∧ faultPresent t 0x30 p = true ∧
      OnlyPort p [aHostCtl, aLinkDown p] s t)

/-- The FEC codewords met with a frame are counted on a port that runs with FEC (R158). -/
def FecNoted (p : Nat) (f : EthFrame) (s t : State) : Prop :=
  WidesKept [aFecCorrLo p] s t ∧
  ((getPort s p).fec = 0 → wide t (aFecCorrLo p) = wide s (aFecCorrLo p) ∧ reg t (aFecUncorr p) = reg s (aFecUncorr p)) ∧
  ((getPort s p).fec ≠ 0 → wide t (aFecCorrLo p) = min (wide s (aFecCorrLo p) + f.fecCorr) (2 ^ 64 - 1) ∧
    reg t (aFecUncorr p) = min (reg s (aFecUncorr p) + f.fecUncorr) 0xFFFFFFFF)

/-- Frames and the slow path (R130, R132, R133, R158): a frame with a bad FCS, or one that does not fit, is dropped and
counted and changes nothing else; PAUSE holds the port's own sending; a slow-path frame is stored in the next slot of the receive
ring with its length and port, and a smaller path MTU it brings lowers its context's MSS; a frame that firmware hands over is sent once, with the port's tag, and its slot passed;
an address entry cleared is no longer valid. -/
def FramesAndSlowPath : Prop :=
  ∀ (s : State) (p : Fin 2) (f : EthFrame), Awake s →
    ((getPort s p).up = true → f.fcsOk = false → ∃ t, exec (.frameReceive p f) s = .next t ∧
      reg t (aFcsErr p) = min (reg s (aFcsErr p) + 1) 0xFFFFFFFF ∧ reg t (aPortDrop p) = min (reg s (aPortDrop p) + 1) 0xFFFFFFFF ∧
      FecNoted p f s t ∧ t = { s with regs := t.regs, wide := t.wide } ∧ RegsKept [aFcsErr p, aPortDrop p, aFecUncorr p] s t) ∧
    ((getPort s p).up = true → f.fcsOk = true → f.pause = none → frameFits s p f = false → ∃ t, exec (.frameReceive p f) s = .next t ∧
      reg t (aPortDrop p) = min (reg s (aPortDrop p) + 1) 0xFFFFFFFF ∧ FecNoted p f s t ∧
      t = { s with regs := t.regs, wide := t.wide } ∧ RegsKept [aPortDrop p, aFecUncorr p] s t) ∧
    (∀ k, (getPort s p).up = true → f.fcsOk = true → f.pause = some k → k ≠ 0 ∨ regB s aSlowCfg 8 = false →
      ∃ t, exec (.frameReceive p f) s = .next t ∧ (getPort t p).paused = decide (k ≠ 0) ∧ FecNoted p f s t ∧
        t = { s with host := t.host, regs := t.regs, wide := t.wide } ∧ RegsKept [aFecUncorr p] s t) ∧
    ((getPort s p).up = true → f.fcsOk = true → frameFits s p f = true → f.pause = none → f.forPort = true →
      f.fragment = false → f.hardware = false → f.sumOk = true → f.pmtu = none → regB s aSlowCfg 8 = true →
      (regF s aSlowRxIdx 0 10 + 1) % ringSlots s 0 ≠ regF s aSlowRxIdx 16 10 % ringSlots s 0 →
      let off := reg s aSlowRxBase * 4096 + regF s aSlowRxIdx 0 10 * 9216
      let bs := leBytes 8 (f.bytes.length + p * 65536) ++ f.bytes
      off + bs.length ≤ dramUsable s →
      ∃ t, exec (.frameReceive p f) s = .next t ∧ (∀ i, i < bs.length → memByte t (dramBase + off + i) = bs.getD i 0) ∧
        MemKeptBut (dramBase + off) bs.length s t ∧ (MemInv s → MemInv t) ∧
        regF t aSlowRxIdx 0 10 = (regF s aSlowRxIdx 0 10 + 1) % ringSlots s 0 % 1024 ∧
        t = { s with regs := t.regs, wide := t.wide, mem := t.mem, bad := t.bad } ∧ RegsKept [aSlowRxIdx, aFecUncorr p] s t) ∧
    (∀ x mtu c, (getPort s p).up = true → f.fcsOk = true → frameFits s p f = true → f.pause = none → f.forPort = true →
      f.fragment = false → f.hardware = false → f.sumOk = true → f.pmtu = some (x, mtu) → getCtx s x = some c →
      ∃ t d, exec (.frameReceive p f) s = .next t ∧ getCtx t x = some d ∧ d.mss ≤ max 1 c.mss ∧
        (40 < mtu → d.mss ≤ mtu - 40) ∧ d = { c with mss := d.mss }) ∧
    (∀ fw : Fin 1024, regB s aSlowCfg 8 = true → regF s aSlowTxIdx 0 10 ≠ fw →
      fw = (regF s aSlowTxIdx 0 10 + 1) % ringSlots s 4 →
      let off := reg s aSlowTxBase * 4096 + regF s aSlowTxIdx 0 10 * 9216
      let q := bits (dramNat s off 8) 16 1
      (getPort s q).up = true → (getPort s q).paused = false → s.bad = [] →
      ∃ t, exec (.slowPathTransmit fw) s = .next t ∧
        t.out = .ethernet q (portTag s q) (dramBytes s (off + 8) (bits (dramNat s off 8) 0 16)) :: s.out ∧
        regF t aSlowTxIdx 0 10 = fw ∧ regF t aSlowTxIdx 16 10 = fw ∧
        t = { s with regs := t.regs, out := t.out } ∧ RegsKept [aSlowTxIdx] s t) ∧
    ((getPort s p).paused = true → regB s aSlowCfg 8 = false → ∃ t, exec (.receivedPauseExpiry p) s = .next t ∧
      (getPort t p).paused = false ∧ t = { s with host := t.host }) ∧
    ((getPort s p).paused = false → exec (.receivedPauseExpiry p) s = .next s) ∧
    (∀ k : Fin 6, HostQuiet s → ∃ t, exec (.addressEntryClear p k) s = .next t ∧ regB t (aAddrCtl p k) 0 = false ∧
      t = { s with regs := t.regs, strata := t.strata, host := t.host } ∧ t.host = { s.host with discGen := t.host.discGen } ∧
      RegsKept (aAddrCtl p k :: recordCounts) s t)

/-- What the end of an I/O connection leaves: its context is free and every other stands. -/
def CtxEnded (x : Nat) (s t : State) : Prop :=
  getCtx t x = none ∧ (∀ y, y ≠ x → getCtx t y = getCtx s y) ∧ t.host.ctrls = s.host.ctrls ∧ t.mem = s.mem ∧ t.regs = s.regs

/-- TCP (R132–R135, R152): a SYN to a listener takes the lowest free context with the options offered and is answered; the
segment after it completes the handshake; an acknowledgement frees the segments it covers and opens the congestion window; the
third duplicate resends the first segment and halves the window; the retransmission timer resends the oldest segment and doubles,
to 4 s; time-outs, FIN and RST end the connection, whose context is freed. Stated for I/O connections with no command in hand. -/
def Obligations.TcpConnectionsLiveAndEnd : Prop :=
  ∀ s : State, Awake s → s.cmd.cmds = [] →
    (∀ (p : Fin 2) (k : Fin 6) (mac ip port isn : Nat) (o : TcpOpts), s.host.ctxs = [] → (getPort s p).up = true →
      regB s (aAddrCtl p k) 0 = true → regB s (aAddrCtl p k) 2 = true → regB s aHostCtl 2 = true →
      ∃ t c bytes, exec (.syn p k false mac ip port isn o) s = .next t ∧ getCtx t 0 = some c ∧ c.port = p ∧ c.entry = k ∧
        c.phase = .halfOpen ∧ c.peerMac = mac ∧ c.peerIp = ip ∧ c.peerPort = port ∧ c.cwnd = 10 * c.mss ∧
        c.mss ≤ max 1 (o.mss.getD (if regB s (aAddrCtl p k) 1 then 1220 else 536)) ∧ c.rcvNxt = (isn + 1) % 2 ^ 32 ∧
        c.sndWnd = o.wnd ∧ c.wscale = o.wscale.map (min 14) ∧ c.tsRecent = o.tsval ∧ c.sackOk = o.sackOk ∧ c.ecn = o.ecn ∧
        t.out = .tcp p (portTag s p) bytes :: s.out ∧ t = { s with host := t.host, out := t.out, regs := t.regs, free := t.free } ∧
        RegsKept [aCtxStatus] s t) ∧
    (∀ (p : Fin 2) (k : Fin 6) (disc : Bool) (mac ip port isn : Nat) (o : TcpOpts), regB s (aAddrCtl p k) 0 = false →
      exec (.syn p k disc mac ip port isn o) s = .next s) ∧
    (∀ (x : Nat) (c : Ctx), getCtx s x = some c →
      (∀ a, c.phase = .halfOpen → ∃ t d, exec (.tcpAck x a) s = .next t ∧ getCtx t x = some d ∧ d.phase = .opened ∧
        d.sndWnd = a.wnd * 2 ^ c.wscale.getD 0 ∧ t = { s with host := t.host }) ∧
      (∀ a : AckSeg, c.phase ≠ .halfOpen → c.recover = none → c.unsent = [] → a.sack = [] → a.ece = false → a.data = none →
        0 < ((c.segs.filter fun g => ackCovers a.ack g.endSeq).map (·.len)).sum →
        ∃ t d, exec (.tcpAck x a) s = .next t ∧ getCtx t x = some d ∧
          d.segs = c.segs.filter (fun g => !ackCovers a.ack g.endSeq) ∧ d.dupAcks = 0 ∧ d.sndUna = a.ack % 2 ^ 32 ∧ c.cwnd ≤ d.cwnd ∧
          (c.cwnd < c.ssthresh → d.cwnd =
            c.cwnd + min ((c.segs.filter fun g => ackCovers a.ack g.endSeq).map (·.len)).sum c.mss) ∧
          t = { s with host := t.host }) ∧
      (∀ (a : AckSeg) (g : Seg) (rest : List Seg), c.phase ≠ .halfOpen → c.recover = none → c.unsent = [] → c.sackOk = false →
        a.data = none → c.segs = g :: rest → ((c.segs.filter fun g => ackCovers a.ack g.endSeq).map (·.len)).sum = 0 →
        (∀ h, h ∈ c.segs → ackCovers a.ack h.endSeq = false) → c.dupAcks = 2 →
        ∃ t d tag hdr, exec (.tcpAck x a) s = .next t ∧ getCtx t x = some d ∧ t.out = .resend x g.endSeq g.len tag hdr :: s.out ∧
          d.ssthresh = max (flight c / 2) (2 * c.mss) ∧ d.cwnd = d.ssthresh + 3 * c.mss ∧ d.recover = some c.sndNxt) ∧
      (∀ g rest, c.segs = g :: rest → g.tries < 15 → ∃ t d, exec (.retransmissionTimeout x) s = .next t ∧
        t.out = .resend x g.endSeq g.len (portTag s c.port) (dataHeaders s c g) :: s.out ∧ getCtx t x = some d ∧
        d.rto = min 4000 (2 * c.rto) ∧ d.cwnd = c.mss ∧ d.ssthresh = max (flight c / 2) (2 * c.mss) ∧
        d.segs.map (fun h => (h.endSeq, h.len, h.tries)) = (g.endSeq, g.len, g.tries + 1) :: rest.map (fun h => (h.endSeq, h.len, h.tries)) ∧
        t = { s with host := t.host, out := t.out }) ∧
      (c.segs = [] → exec (.retransmissionTimeout x) s = .next s ∧ exec (.userTimeout x) s = .next s) ∧
      (c.kind = .io → c.segs ≠ [] → ∃ t, exec (.userTimeout x) s = .next t ∧ CtxEnded x s t ∧
        t.out = rstFrame s c :: s.out) ∧
      (c.unacked ≠ 0 → ∃ t, exec (.delayedAck x) s = .next t ∧
        t.out = ackFrame s c :: s.out ∧ getCtx t x = some { c with unacked := 0 } ∧
        t = { s with host := t.host, out := t.out }) ∧
      (c.unacked = 0 → exec (.delayedAck x) s = .next s) ∧
      (∀ rst, c.kind = .io → ∃ t, exec (.tcpFinRst x rst) s = .next t ∧ CtxEnded x s t ∧
        t.out = (if rst then s.out else finFrame s c :: s.out)))

/-- NVMe/TCP PDUs (R136–R141): an ICReq within the limits is answered, one outside them ends the connection with its
C2HTermReq; no ICReq in 10 s, a C2HTermReq's counterpart from the host, and data that stays out for 4 s end it; a capsule
is buffered behind those before it, unless its data is not the whole data of its write; write data for a Ready-to-Transfer is taken
in order at its offset. A command received restarts its controller's keep-alive timer (R153). -/
def Obligations.PdusAreTakenInOrder : Prop :=
  ∀ (s : State) (x : Nat) (c : Ctx), s.pwr.phase = .running → getCtx s x = some c → c.kind ≠ .admin → c.kind ≠ .discovery →
    (∀ (hpda maxR2t : Nat) (hd dd : Bool), c.phase = .opened → hpda ≤ 31 → ∃ t d, exec (.icreq x 0 hpda maxR2t hd dd) s = .next t ∧
      getCtx t x = some d ∧ d.phase = .icDone ∧ d.hpda = hpda ∧ d.maxR2t = maxR2t ∧ d.hdgst = hd ∧ d.ddgst = dd ∧
      Out.icResp x 131072 hd dd ∈ t.out ∧ t = { s with host := t.host, out := t.out }) ∧
    (∀ (pfv hpda maxR2t : Nat) (hd dd : Bool), s.cmd.cmds = [] → c.phase = .opened → pfv ≠ 0 →
      ∃ t, exec (.icreq x pfv hpda maxR2t hd dd) s = .next t ∧ CtxEnded x s t ∧ t.out = .termReq x fesUnsupported :: s.out) ∧
    (s.cmd.cmds = [] → c.phase = .opened → ∃ t, exec (.icreqTimeout x) s = .next t ∧ CtxEnded x s t ∧
      t.out = rstFrame s c :: s.out) ∧
    (c.phase = .connected → exec (.icreqTimeout x) s = .next s) ∧
    (∀ cap : Capsule, c.phase = .connected → c.hdgst = false → c.ddgst = false → cap.data.length ≤ 8192 →
      (c.kind = .io → cap.data = [] ∨ cap.data.length = capNlb cap * blockBytes s.cmd.fmt cap.nsid) →
      c.capsules.length < max 1 c.sqsize → ∃ t d, exec (.capsuleCmd x cap true true) s = .next t ∧ getCtx t x = some d ∧
        d.capsules = c.capsules ++ [cap] ∧
        (∀ k, c.kind ≠ .unknown → getCtrl s c.ctrl = some k → getCtrl t c.ctrl = some { k with kaFrom := s.now }) ∧ t = { s with host := t.host, out := t.out }) ∧
    (∀ cap : Capsule, s.cmd.cmds = [] → c.phase = .connected → c.hdgst = false → c.kind = .io →
      isWrite cap.opc = true ∨ isAppend cap.opc = true → cap.data ≠ [] → cap.data.length ≠ capNlb cap * blockBytes s.cmd.fmt cap.nsid →
      ∃ t, exec (.capsuleCmd x cap true true) s = .next t ∧ CtxEnded x s t ∧ t.out = .termReq x fesInvalidHeader :: s.out) ∧
    (∀ cap : Capsule, s.cmd.cmds = [] → c.phase = .connected → c.hdgst = true → ∃ t, exec (.capsuleCmd x cap false true) s = .next t ∧
      getCtx t x = none ∧ reg t (aHdgstErr c.port) = min (reg s (aHdgstErr c.port) + 1) 0xFFFFFFFF ∧
      RegsKept [aHdgstErr c.port] s t ∧ t.mem = s.mem) ∧
    (s.cmd.cmds = [] → ∃ t, exec (.h2cTermReq x) s = .next t ∧ CtxEnded x s t ∧ t.out = s.out) ∧
    (∀ (cid tag off : Nat) (bs : List Byte) (ok1 ok2 : Bool), s.cmd.cmds = [] → c.phase ≠ .connected →
      ∃ t, exec (.h2cData x cid tag off bs ok1 ok2) s = .next t ∧ CtxEnded x s t ∧ t.out = .termReq x fesSequence :: s.out) ∧
    (∀ (cid tag off : Nat) (bs : List Byte), s.cmd.cmds = [] → c.phase = .connected → c.hdgst = false → bs.length ≤ 131072 →
      tag ∉ c.stale → ∃ t, exec (.h2cData x cid tag off bs true true) s = .next t ∧ CtxEnded x s t ∧ t.out = .termReq x fesOutOfRange :: s.out) ∧
    (∀ tag, (∀ k, k ∈ s.cmd.cmds → k.ctx ≠ some x ∨ (∀ r, r ∈ k.r2ts → r.tag ≠ tag)) →
      exec (.hostDataTimeout x tag) s = .next s) ∧
    (∀ (k : Cmd) (r : R2T) (bs : List Byte) (off : Nat), s.cmd.cmds = [k] → k.ctx = some x → k.r2ts = [r] → c.phase = .connected →
      c.hdgst = false → c.ddgst = false → c.maxR2t = 0 → bs.length ≤ 131072 → off = r.off + r.got →
      r.got + bs.length < r.len → ∃ t, exec (.h2cData x k.cap.cid r.tag off bs true true) s = .next t ∧
        t.cmd.cmds = [{ k with data := (off, bs) :: k.data, r2ts := [{ r with got := r.got + bs.length }] }] ∧
        t = { s with cmd := t.cmd, host := t.host, out := t.out }) ∧
    (∀ (k : Cmd) (r : R2T), s.cmd.cmds = [k] → k.ctx = some x → k.r2ts = [r] → k.io = true → isWrite k.cap.opc = true →
      k.phase = .reserved → k.zone = none → k.ready = false → ∃ t, exec (.hostDataTimeout x r.tag) s = .next t ∧ getCtx t x = none ∧
        t.cmd.cmds = [])

/-- Host ports, frames and the slow path (R129–R133, R158). -/
def Obligations.PortsFramesAndSlowPath : Prop := PortsComeUpAndFail ∧ FramesAndSlowPath

/-! ### Controllers and admin commands (R135, R136, R142–R157, R184) -/

/-- One command is in flight: fresh from intake, on connection `x`, with the INTAKE capture stream off. -/
abbrev Alone (c : Cmd) (x : Nat) (s : State) : Prop :=
  s.cmd.cmds = [c] ∧ s.cmd.waits = [] ∧ c.phase = .fresh ∧ c.ctx = some x ∧ capEnabled s 1 = false

/-- The one command has completed with a status and its Dwords 0 and 1, last of all that was sent, and its slot is free. -/
def Completed (c : Cmd) (x status d0 d1 : Nat) (s t : State) : Prop :=
  t.out.head? = some (.completion x c.cap.cid status (dnrOf status) d0 d1) ∧ t.cmd.cmds = [] ∧
  t.mem = s.mem ∧ t.jrn = s.jrn ∧ t.regs = s.regs ∧ t.red = s.red

/-- A command that failed has entered its controller's Error Information log, which keeps 64 entries (R142, R144). -/
def ErrorLogged (c : Cmd) (status : Nat) (d : Ctrl) (t : State) : Prop :=
  ∃ e : ErrEntry, e.status = status ∧ e.cid = c.cap.cid ∧ e.count = d.errCount + 1 ∧
    getCtrl t c.ctrl = some { d with errCount := d.errCount + 1, errors := (e :: d.errors).take 64 }

/-- Every queue of a controller has ended, and the controller with them; nothing of another controller has changed. -/
def CtrlEnded (i : Nat) (s t : State) : Prop :=
  getCtrl t i = none ∧ (∀ j, j ≠ i → getCtrl t j = getCtrl s j) ∧
  (∀ y k, getCtx s y = some k → k.ctrl = i → k.kind ≠ .unknown → getCtx t y = none) ∧
  (∀ y k, getCtx s y = some k → k.ctrl ≠ i → getCtx t y = some k)

/-- Controllers begin and end (R135, R136, R152–R154, R184): Connect on a new connection makes the first controller, or
joins an I/O queue to one, and a refused Connect changes no connection; Disconnect ends its connection; CC.EN cleared, the
keep-alive timer, and the idle close of a discovery connection end the controller with all its queues; a shutdown is
marked in progress, and complete once no I/O command of the controller is left. -/
def Obligations.ControllersBeginAndEnd : Prop :=
  ∀ (s : State) (c : Cmd) (x : Nat) (k : Ctx), Awake s → getCtx s x = some k → s.host.ctxs = [(x, some k)] →
    (Alone c x s → isFabrics 1 c = true → k.kind = .unknown → connectStatus s k c.cap = stOk → bits c.cap.cdw10 16 16 = 0 →
      s.host.ctrls = [] → ∃ t d, exec .connect s = .next t ∧ Completed c x stOk 1 0 s t ∧ getCtrl t 1 = some d ∧
        d.port = k.port ∧ d.discovery = k.disc ∧ d.kato = katoOf c.cap.cdw12 ∧ d.hostId = leNat (c.cap.data.take 16) ∧
        getCtx t x = some { k with phase := .connected, kind := if k.disc then .discovery else .admin, ctrl := 1, qid := 0,
                                   sqsize := bits c.cap.cdw11 0 16 + 1, sqFlow := !bit c.cap.cdw11 18,
                                   sqHead := 1 % (bits c.cap.cdw11 0 16 + 1) }) ∧
    (Alone c x s → isFabrics 1 c = true → k.kind = .unknown → connectStatus s k c.cap = stOk → bits c.cap.cdw10 16 16 ≠ 0 →
      ∃ t, exec .connect s = .next t ∧ Completed c x stOk (leNat ((c.cap.data.drop 16).take 2)) 0 s t ∧
        getCtx t x = some { k with phase := .connected, kind := .io, ctrl := leNat ((c.cap.data.drop 16).take 2),
                                   qid := bits c.cap.cdw10 16 16, sqsize := bits c.cap.cdw11 0 16 + 1,
                                   sqFlow := !bit c.cap.cdw11 18, sqHead := 1 % (bits c.cap.cdw11 0 16 + 1) } ∧
        t.host.ctrls = s.host.ctrls) ∧
    (Alone c x s → isFabrics 1 c = true → k.kind = .unknown → connectStatus s k c.cap ≠ stOk → ∃ t, exec .connect s = .next t ∧
      Completed c x (connectStatus s k c.cap) 0 0 s t ∧ t.host.ctxs = s.host.ctxs ∧ (s.host.ctrls = [] → t.host = s.host)) ∧
    (Alone c x s → isFabrics 8 c = true → k.kind = .io → ∃ t, exec .disconnect s = .next t ∧ Completed c x stOk 0 0 s t ∧
      getCtx t x = none ∧ t.host.ctrls = s.host.ctrls) ∧
    (∀ d, Alone c x s → isFabrics 0 c = true → getCtrl s c.ctrl = some d → clearsEn d c = true →
      ∃ t, exec .controllerReset s = .next t ∧ Completed c x stOk 0 0 s t ∧ CtrlEnded c.ctrl s t) ∧
    (∀ d, Alone c x s → isFabrics 0 c = true → getCtrl s c.ctrl = some d → asksShutdown d c = true →
      ∃ t, exec .shutdown s = .next t ∧ Completed c x stOk 0 0 s t ∧
        getCtrl t c.ctrl = some { d with cc := c.cap.cdw12, shst := 1 } ∧ t.host.ctxs = s.host.ctxs) ∧
    (∀ i d, getCtrl s i = some d → d.shst = 1 → s.cmd.cmds = [] → ∃ t, exec (.shutdownComplete i) s = .next t ∧
      getCtrl t i = some { d with shst := 2 } ∧ t = { s with host := t.host }) ∧
    (∀ i d, getCtrl s i = some d → s.cmd.cmds = [] → s.cmd.bufWaits = [] → d.kato ≠ 0 → ∃ t, exec (.keepAliveExpiry i) s = .next t ∧ CtrlEnded i s t ∧
      t = { s with host := t.host }) ∧
    (∀ i d, getCtrl s i = some d → d.kato = 0 → exec (.keepAliveExpiry i) s = .next s) ∧
    (∀ d, k.kind = .discovery → getCtrl s k.ctrl = some d → d.kato = 0 → s.cmd.cmds = [] → s.cmd.bufWaits = [] →
      ∃ t, exec (.discoveryIdleClose x) s = .next t ∧ CtrlEnded k.ctrl s t ∧ getCtx t x = none ∧ t = { s with host := t.host })

/-- Properties, features, keep-alive and events (R142–R144, R148, R153, R187): each command completes with the value it
asks for, or sets the one it names; a request to save, a power state above 4 and a fifth event request are turned away
with their status, which their controller's error log keeps. Keep Alive itself changes nothing: its timer restarted when the
command was received. -/
def Obligations.PropertiesFeaturesAndEvents : Prop :=
  ∀ (s : State) (c : Cmd) (x : Nat) (d : Ctrl), Awake s → Alone c x s → getCtrl s c.ctrl = some d →
    (∀ v, isFabrics 4 c = true → property d c.cap.cdw11 = some v → ∃ t, exec .propertyGet s = .next t ∧
      Completed c x stOk (v % 2 ^ 32) (if bits c.cap.cdw10 0 3 = 1 then v / 2 ^ 32 else 0) s t ∧ t.host = s.host) ∧
    (isFabrics 0 c = true → clearsEn d c = false → asksShutdown d c = false → c.cap.cdw11 = 0x14 →
      ∃ t, exec .propertySet s = .next t ∧ Completed c x stOk 0 0 s t ∧ getCtrl t c.ctrl = some { d with cc := c.cap.cdw12 }) ∧
    (isAdmin 0x09 c = true → bit c.cap.cdw10 31 = true → ∃ t, exec .setFeatures s = .next t ∧
      Completed c x stNotSaveable 0 0 s t ∧ ErrorLogged c stNotSaveable d t) ∧
    (isAdmin 0x09 c = true → bit c.cap.cdw10 31 = false → bits c.cap.cdw10 0 8 = 0x0B → ∃ t, exec .setFeatures s = .next t ∧
      Completed c x stOk 0 0 s t ∧ getCtrl t c.ctrl = some { d with aec := c.cap.cdw11 }) ∧
    (isAdmin 0x09 c = true → bit c.cap.cdw10 31 = false → bits c.cap.cdw10 0 8 = 0x04 → thresholdSel c.cap.cdw11 = true →
      ∃ t e, exec .setFeatures s = .next t ∧ Completed c x stOk 0 0 s t ∧ getCtrl t c.ctrl = some e ∧
        tempThreshold e (bits c.cap.cdw11 20 2) = bits c.cap.cdw11 0 16 ∧
        (∀ k, k ≠ bits c.cap.cdw11 20 2 → tempThreshold e k = tempThreshold d k)) ∧
    (isAdmin 0x09 c = true → bit c.cap.cdw10 31 = false → bits c.cap.cdw10 0 8 = 0x0C → 256 ≤ c.cap.data.length →
      ∃ t, exec .setFeatures s = .next t ∧ Completed c x stOk 0 0 s t ∧
        getCtrl t c.ctrl = some { d with apst := c.cap.cdw11 % 2, apstTable := c.cap.data.take 256 }) ∧
    (∀ v, isAdmin 0x0A c = true → bits c.cap.cdw10 0 8 ≠ 0x0C → featureValue s d (bits c.cap.cdw10 0 8) c.cap.cdw11 = some v → ∃ t, exec .getFeatures s = .next t ∧
      Completed c x stOk v 0 s t ∧ t.host = s.host) ∧
    (isSetFeature (· == 0x02) c = true → bits c.cap.cdw11 0 5 ≤ 4 → bits c.cap.cdw11 0 5 ≠ s.cmd.ps →
      ∃ t, exec .powerManagement s = .next t ∧ Completed c x stOk 0 0 s t ∧ t.cmd.moving = true ∧
        t.cmd.target = bits c.cap.cdw11 0 5 ∧ t.cmd.entering = decide (s.cmd.ps < bits c.cap.cdw11 0 5) ∧ t.cmd.ps = s.cmd.ps) ∧
    (isSetFeature (· == 0x02) c = true → 4 < bits c.cap.cdw11 0 5 → ∃ t, exec .powerManagement s = .next t ∧
      Completed c x stInvalidField 0 0 s t ∧ t.cmd.moving = s.cmd.moving ∧ ErrorLogged c stInvalidField d t) ∧
    (isSetFeature (· == 0x0F) c = true → c.cap.cdw11 ≤ 300000 → ∃ t, exec .keepAliveTimer s = .next t ∧
      Completed c x stOk 0 0 s t ∧ getCtrl t c.ctrl = some { d with kato := katoOf c.cap.cdw11, kaFrom := s.now }) ∧
    (isAdmin 0x18 c = true → ∃ t, exec .keepAlive s = .next t ∧ Completed c x stOk 0 0 s t ∧
      t.host = s.host) ∧
    (isAdmin 0x0C c = true → d.aers.length < 4 → d.notices = [] → ∃ t, exec .asynchronousEventRequest s = .next t ∧
      t.cmd.cmds = [] ∧ t.out = s.out ∧ getCtrl t c.ctrl = some { d with aers := d.aers ++ [(x, c.cap.cid)] }) ∧
    (isAdmin 0x0C c = true → 4 ≤ d.aers.length → ∃ t, exec .asynchronousEventRequest s = .next t ∧
      Completed c x stAerLimit 0 0 s t ∧ ErrorLogged c stAerLimit d t)

/-- The data of an answer went to the host before the completion, padded as the connection asks, in what segments its windows
allow (R134, R137). -/
def Returned (c : Cmd) (x : Nat) (data : List Byte) (s t : State) : Prop :=
  (∃ pad segs, t.out = .completion x c.cap.cid stOk false 0 0 ::
      (segs ++ (if data = [] then [] else [.c2hData x c.cap.cid pad data]) ++ s.out) ∧
    (∀ k, getCtx s x = some k → pad = c2hPad k) ∧ (∀ o, o ∈ segs → ∃ e n tag hdr, o = .segment x e n tag hdr)) ∧
  t.cmd.cmds = [] ∧ t.mem = s.mem ∧ t.jrn = s.jrn ∧ t.regs = s.regs ∧ t.wall = s.wall

/-- What the subsystem reports (R142, R143, R151, R154, R155, R434): Identify, the discovery log and the timestamp return
their data and then complete; a self-test's result is kept; setting the timestamp opens a new epoch; a group too long in
Change has its missing actuators declared UNAVAILABLE; firmware registers with a CDC, deregisters, and retries at doubled waits. -/
def Obligations.SubsystemReports : Prop :=
  ∀ (s : State), Awake s →
    (∀ (c : Cmd) (x : Nat) (k : Ctx) (d : Ctrl), Alone c x s → getCtx s x = some k → getCtrl s c.ctrl = some d →
      (isAdmin 0x06 c = true → bits c.cap.cdw10 0 8 = 1 → ∃ t, exec .identify s = .next t ∧
        Returned c x (identifyController s d c.ctrl) s t) ∧
      (isAdmin 0x06 c = true → bits c.cap.cdw10 0 8 = 0 → d.discovery = false → nsExists s.cmd.fmt c.cap.nsid = true →
        ∃ t, exec .identify s = .next t ∧ Returned c x (identifyNs s c.cap.nsid) s t) ∧
      (isAdmin 0x06 c = true → bits c.cap.cdw10 0 8 ∉ [0x00, 0x01, 0x02, 0x03, 0x05, 0x06, 0x07, 0x08, 0x1C] →
        ∃ t, exec .identify s = .next t ∧ Completed c x stInvalidField 0 0 s t ∧ ErrorLogged c stInvalidField d t) ∧
      (isAdmin 0x02 c = true → bits c.cap.cdw10 0 8 = 0x70 → d.discovery = false → ∃ t, exec .discoveryLog s = .next t ∧
        Completed c x stLogPage 0 0 s t ∧ ErrorLogged c stLogPage d t) ∧
      (isAdmin 0x02 c = true → bits c.cap.cdw10 0 8 = 0x70 → d.discovery = true → ∃ t data, exec .discoveryLog s = .next t ∧
        Returned c x data s t ∧ data.length = pageLen c.cap) ∧
      (∀ r, isAdmin 0x14 c = true → bits c.cap.cdw10 0 4 = 1 → ∃ t, exec (.deviceSelfTest r) s = .next t ∧
        Completed c x stOk 0 0 s t ∧ t.host.dstResults = ((16 + r % 16) :: s.host.dstResults).take 20) ∧
      (isAdmin 0x0A c = true → bits c.cap.cdw10 0 8 = 0x0E → ∃ t, exec .getTimestamp s = .next t ∧
        Returned c x (leBytes 6 (wallNow s) ++ leBytes 2 (if s.wall.valid then 2 else 0)) s t) ∧
      (isSetFeature (· == 0x0E) c = true → ∃ t, exec .setTimestamp s = .next t ∧
        t.out = .completion x c.cap.cid stOk false 0 0 :: s.out ∧ t.cmd.cmds = [] ∧
        wallNow t = leNat (c.cap.data.take 6) ∧ t.wall.valid = true ∧ t.wall.epoch = (s.mirror.epoch + 1) % 256 ∧
        t.mem = s.mem ∧ RegsKept recordCounts s t)) ∧
    (∀ g, (anaGroups s.cmd.fmt).contains g = true → anaState s g = 0x0F → s.host.ctrls = [] → s.cmd.cmds = [] →
      ∃ t, exec (.anattExpiry g) s = .next t ∧
        (∀ n, n ∈ groupActs s.cmd.fmt g → actInChange s n = true → (getSched t n).st = 5) ∧
        t = { s with cmd := t.cmd, host := t.host } ∧ t.cmd.cmds = s.cmd.cmds) ∧
    (∀ i : Fin 2, (getCdc s i).connected = false → ∃ t, exec (.cdcRegistration i 1) s = .next t ∧
      t.out = .cdc i 1 (subsysEntries s) :: .cdcConnect i 30000 :: s.out ∧
      getCdc t i = { connected := true, wait := 1, registered := subsysEntries s } ∧
      t = { s with out := t.out, host := t.host }) ∧
    (∀ i : Fin 2, (getCdc s i).connected = true → ∃ t, exec (.cdcRegistration i 3) s = .next t ∧
      t.out = .cdc i 3 (getCdc s i).registered :: s.out ∧ getCdc t i = {} ∧ t = { s with out := t.out, host := t.host }) ∧
    (∀ i : Fin 2, ∃ t, exec (.cdcRetry i true) s = .next t ∧
      t.out = .cdc i 1 (subsysEntries s) :: .cdcConnect i 30000 :: s.out ∧
      getCdc t i = { connected := true, wait := 1, registered := subsysEntries s } ∧ t = { s with out := t.out, host := t.host }) ∧
    (∀ i : Fin 2, ∃ t, exec (.cdcRetry i false) s = .next t ∧ t.out = .cdcConnect i 30000 :: s.out ∧
      (getCdc t i).connected = false ∧ (getCdc t i).wait = min 64 ((getCdc s i).wait * 2) ∧
      t = { s with out := t.out, host := t.host })

/-! ### Intake and the I/O commands (R159–R164, R170–R183) -/

/-- INTAKE (R137, R140, R159, R160, R184): while intake is open, no earlier capsule waits to be sorted, the pool has a slot and
the controller does not shut down, the front capsule of a connection takes the next intake number; if intake's checks let
it by it is in flight, an admin command whose data is still to come after asking for it, and otherwise it completes at once with
their status. A stopped intake, and a shutdown but for Fabrics commands, take nothing. -/
def Obligations.IntakeTakesTheFrontCapsule : Prop :=
  (∀ (s : State) (x : Nat), intakeOpen s = false → exec (.intake x) s = .next s) ∧
  (∀ (s : State) (x : Nat) (k : Ctx) (cap : Capsule) (rest : List Capsule) (d : Ctrl), getCtx s x = some k →
    k.capsules = cap :: rest → getCtrl s k.ctrl = some d → d.shst ≠ 0 → k.kind ≠ .unknown → cap.opc ≠ 0x7F →
    exec (.intake x) s = .next s) ∧
  (∀ (s : State) (x : Nat) (k : Ctx) (cap : Capsule) (rest : List Capsule), Awake s → getCtx s x = some k →
    k.capsules = cap :: rest → capEnabled s 1 = false → freshCmd s = none → intakeOpen s = true →
    (∀ d, getCtrl s k.ctrl = some d → d.shst = 0) → poolFree s (newCmd s x k cap).pool = true →
    ∃ t, exec (.intake x) s = .next t ∧ t.cmd.nextSeq = s.cmd.nextSeq + 1 ∧
      getCtx t x = some { k with capsules := rest, sqHead := (k.sqHead + 1) % max 1 k.sqsize } ∧
      (∀ y, y ≠ x → getCtx t y = getCtx s y) ∧
      (intakeStatus s k cap = stOk → k.kind = .io ∨ cap.data ≠ [] ∨ adminBytes cap = 0 →
        (∃ c, t.cmd.cmds = s.cmd.cmds ++ [c] ∧ c.seq = s.cmd.nextSeq ∧ c.cap = cap ∧
          c.ctx = some x ∧ c.phase = .fresh ∧ c.io = (k.kind == .io && cap.opc != 0x7F)) ∧
        t = { s with cmd := t.cmd, host := t.host, jrn := t.jrn }) ∧
      (intakeStatus s k cap = stOk → k.kind = .admin → cap.data = [] → 0 < adminBytes cap →
        (∀ c, c ∈ s.cmd.cmds → c.seq < s.cmd.nextSeq) → r2tCommands s x < 32 →
        (∃ c, t.cmd.cmds = s.cmd.cmds ++ [c] ∧ c.seq = s.cmd.nextSeq ∧ c.cap = cap ∧ c.phase = .reserved ∧ c.r2ts ≠ []) ∧
        Out.r2t x cap.cid s.cmd.nextTag 0 (min (adminBytes cap) 1048576) ∈ t.out) ∧
      (intakeStatus s k cap ≠ stOk → intakeStatus s k cap ≠ stDeferred →
        t.out = .completion x cap.cid (intakeStatus s k cap) (dnrOf (intakeStatus s k cap)) 0 0 :: s.out ∧
        t.cmd.cmds = s.cmd.cmds.filter (fun c => c.seq ≠ s.cmd.nextSeq) ∧
        t = { s with cmd := t.cmd, host := t.host, jrn := t.jrn, out := t.out }))

/-- A command waits for what comes before it, and every other command is as it was. -/
def NowWaits (c : Cmd) (s t : State) : Prop :=
  findCmd t c.seq = some { c with phase := .waiting } ∧ (∀ q, q ≠ c.seq → findCmd t q = findCmd s q)

/-- The I/O commands after intake (R162, R163, R170, R182): Read, Verify and Flush wait for the commands before them;
Write, Write Zeroes and Zone Append join the strict order of reservations, counted in JRN_WAITS if they must wait; a
granted write is reserved with a HOSTIDX; a Flush whose turn has come completes; a read behind an overlapping write
waits, one that needs the medium asks for it, and one that has every block sends them, in what segments its connection's windows
allow, and completes. -/
def Obligations.ReadsWritesAndFlushesAreOrdered : Prop :=
  ∀ (s : State) (c : Cmd), Awake s → c.io = true →
    (∀ i, freshCmd s = some c → (i = .read ∧ isRead c.cap.opc = true) ∨ (i = .verify ∧ isVerify c.cap.opc = true) ∨
        (i = .flush ∧ isFlush c.cap.opc = true) →
      ∃ t, exec i s = .next t ∧ NowWaits c s t ∧ t = { s with cmd := { s.cmd with cmds := t.cmd.cmds } }) ∧
    (∀ i, freshCmd s = some c → (i = .write ∧ isWrite c.cap.opc = true) ∨ (i = .writeZeroes ∧ isZeroes c.cap.opc = true) ∨
        (i = .zoneAppend ∧ isAppend c.cap.opc = true) →
      ∃ t, exec i s = .next t ∧ NowWaits c s t ∧ t.cmd.waits = s.cmd.waits ++ [c.seq] ∧
        reg t aJrnWaits = (if s.cmd.waits = [] ∧ canReserve s c = true ∧
            ((takeHostIdx s c.hostNqn c.hostId).isSome = true ∨ hostsOnlyDeferred s = true) then reg s aJrnWaits
          else min (reg s aJrnWaits + 1) 0xFFFFFFFF) ∧
        t = { s with cmd := { s.cmd with cmds := t.cmd.cmds, waits := t.cmd.waits }, regs := t.regs } ∧
        RegsKept [aJrnWaits] s t) ∧
    (∀ rest hi, s.cmd.waits = c.seq :: rest → findCmd s c.seq = some c → isZeroes c.cap.opc = false → c.cap.data = [] →
      takeHostIdx s c.hostNqn c.hostId = some hi → canReserve s c = true → ∃ t, exec .journalReservation s = .next t ∧
        t.cmd.waits = rest ∧ smGet (fun _ => none) t.jrn.hosts hi = some (c.hostNqn, c.hostId) ∧
        (∃ d, findCmd t c.seq = some d ∧ d.phase = .reserved ∧ d.cap = c.cap) ∧
        t = { s with cmd := t.cmd, jrn := t.jrn, out := t.out }) ∧
    (∀ rest hi, s.cmd.waits = c.seq :: rest → findCmd s c.seq = some c →
      takeHostIdx s c.hostNqn c.hostId = some hi → canReserve s c = false → exec .journalReservation s = .next s) ∧
    (∀ x, findCmd s c.seq = some c → isFlush c.cap.opc = true → c.phase = .waiting → c.ctx = some x → capEnabled s 1 = false →
      (flushDue s c = true → ∃ t, exec (.flushComplete c.seq) s = .next t ∧ findCmd t c.seq = none ∧
        t.out = .completion x c.cap.cid stOk false 0 0 :: s.out ∧ t = { s with cmd := t.cmd, out := t.out }) ∧
      (flushDue s c = false → exec (.flushComplete c.seq) s = .next s)) ∧
    (∀ x k, findCmd s c.seq = some c → isRead c.cap.opc = true ∨ isVerify c.cap.opc = true → c.phase = .waiting →
      c.ctx = some x → getCtx s x = some k → s.cmd.bufWaits = [] → capEnabled s 1 = false →
      (blockedBy s c.seq c.cap.nsid c.slba c.nlb = true → exec (.readSourceChoice c.seq) s = .next s) ∧
      (s.jrn.recs = [] → blockedBy s c.seq c.cap.nsid c.slba c.nlb = false →
        (∀ d, d ∈ s.cmd.cmds → d.phase ≠ .effective ∧ isZms d.cap.opc = false ∧ d.ready = false) →
        (∀ j, j < c.nlb → ∀ st, sourceOf s c.cap.nsid (c.slba + j) c.seq ≠ .fail st) →
        (mediaBlocks s c.cap.nsid c.slba c.nlb c.seq ≠ [] → ∃ t d, exec (.readSourceChoice c.seq) s = .next t ∧
          findCmd t c.seq = some d ∧ d.phase = .media ∧ d.want = mediaBlocks s c.cap.nsid c.slba c.nlb c.seq ∧
          t = { s with cmd := t.cmd }) ∧
        (mediaBlocks s c.cap.nsid c.slba c.nlb c.seq = [] → ∃ t, exec (.readSourceChoice c.seq) s = .next t ∧
          findCmd t c.seq = none ∧ t = { s with cmd := t.cmd, host := t.host, out := t.out } ∧
          ∃ segs, (∀ o, o ∈ segs → ∃ e n tag hdr, o = .segment x e n tag hdr) ∧
            let data := (List.range c.nlb).flatMap fun j =>
              match sourceOf s c.cap.nsid (c.slba + j) c.seq with | .bytes b => b | _ => []
            t.out = .completion x c.cap.cid stOk false 0 0 :: (segs ++
              (if isRead c.cap.opc = true ∧ data ≠ [] then [.c2hData x c.cap.cid (c2hPad k) data] else []) ++ s.out))))

/-- A zone after Close, Finish, Open, Reset or Offline has taken effect on it (R166, R178, R180, R181). -/
def zoneSent (k : Nat) (z : ZoneEnt) : ZoneEnt :=
  if k = 1 ∧ (z.zstate = 1 ∨ z.zstate = 2) then { z with zstate := 3 }
  else if k = 2 ∧ z.zstate ≤ 3 then { z with zstate := 4 }
  else if k = 3 ∧ (z.zstate = 0 ∨ z.zstate = 1 ∨ z.zstate = 3) then { z with zstate := 2 }
  else if k = 4 ∧ 1 ≤ z.zstate ∧ z.zstate ≤ 4 then { zstate := 0, zgen := (z.zgen + 1) % 65536 }
  else if k = 5 ∧ z.zstate = 5 then { z with zstate := 6 } else z

/-- Zone Management Send and Receive, and Abort (R143, R166, R172, R178–R183), with one command in flight and nothing in
the journal: each action changes the state of the zones it names and of no other, and completes, with the status of a
zone found Read Only or Offline; Set Zone Descriptor Extension is turned away; the zone report is as long as the host
asks; Abort takes a waiting read and a held Asynchronous Event Request, and answers 1 where it finds no command it may
abort. -/
def Obligations.ZoneCommandsAndAbort : Prop :=
  ∀ (s : State) (c : Cmd) (x : Nat), Awake s → Alone c x s → s.jrn.recs = [] →
    (∀ i k, (i, k) ∈ [(Instr.zoneClose, 1), (.zoneFinish, 2), (.zoneOpen, 3), (.zoneReset, 4), (.zoneOffline, 5)] →
      c.io = true → isZms c.cap.opc = true → zsa c = k → ∃ t, exec i s = .next t ∧
        (∀ g, getZone t g = if g ∈ zmsZones s c then zoneSent k (getZone s g) else getZone s g) ∧
        t.out = .completion x c.cap.cid (zmsLate s c) false 0 0 :: s.out ∧ t.cmd.cmds = [] ∧
        t = { s with cmd := t.cmd, jrn := t.jrn, out := t.out, strata := t.strata, regs := t.regs, host := t.host } ∧
        t.host.ctxs = s.host.ctxs ∧ (zmsLate s c = stOk → t.host = s.host) ∧ RegsKept recordCounts s t ∧ (k ≠ 5 → t.regs = s.regs ∧ t.strata = s.strata)) ∧
    (c.io = true → isZms c.cap.opc = true → zsa c = 16 → ∃ t, exec .setZoneDescriptorExt s = .next t ∧
      Completed c x stInvalidField 0 0 s t ∧ ∀ d, getCtrl s c.ctrl = some d → ErrorLogged c stInvalidField d t) ∧
    (∀ k, getCtx s x = some k → c.io = true → isZmr c.cap.opc = true → bits c.cap.cdw13 0 8 = 0 →
      ∃ t data, exec .zoneManagementReceive s = .next t ∧ Returned c x data s t ∧ data.length = (c.cap.cdw12 + 1) * 4) ∧
    (c.io = true → isZmr c.cap.opc = true → bits c.cap.cdw13 0 8 ≠ 0 → ∃ t, exec .zoneManagementReceive s = .next t ∧
      Completed c x stInvalidField 0 0 s t ∧ ∀ d, getCtrl s c.ctrl = some d → ErrorLogged c stInvalidField d t) ∧
    (c.io = false → c.cap.opc = 0x08 → s.host.heldActivations = [] →
      ((∀ d, getCtrl s c.ctrl = some d → d.aers = []) →
        ∃ t, exec .abort s = .next t ∧ Completed c x stOk 1 0 s t ∧ t.host = s.host) ∧
      (∀ (d : Ctrl) (y : Nat) (k : Ctx), getCtrl s c.ctrl = some d → d.aers = [(y, bits c.cap.cdw10 16 16)] →
        getCtx s y = some k → k.ctrl = c.ctrl → k.qid = bits c.cap.cdw10 0 16 →
        ∃ t, exec .abort s = .next t ∧ Completed c x stOk 0 0 s t ∧ getCtrl t c.ctrl = some { d with aers := [] } ∧
          t.out = .completion x c.cap.cid stOk false 0 0 ::
            .completion y (bits c.cap.cdw10 16 16) stAborted false 0 0 :: s.out) ∧
      (∀ (r : Cmd) (y : Nat) (k : Ctx), r.io = true → r.phase = .waiting → r.pool = 0 → r.started = false → r.seq ≠ c.seq →
        r.ctx = some y → getCtx s y = some k → k.ctrl = c.ctrl → r.cap.cid = bits c.cap.cdw10 16 16 →
        k.qid = bits c.cap.cdw10 0 16 →
        ∃ t, exec .abort { s with cmd := { s.cmd with cmds := [r, c] } } = .next t ∧ t.cmd.cmds = [] ∧
          t.out = .completion x c.cap.cid stOk false 0 0 :: .completion y r.cap.cid stAborted false 0 0 :: s.out ∧
          t.jrn = s.jrn ∧ t.mem = s.mem ∧ t.regs = s.regs ∧ t.host.ctxs = s.host.ctxs))

/-! ### Recovery, PAUSE, Format, power states, schedulers and patrol (R160, R174, R185–R189, R194–R196) -/

/-- PAUSE (R186, R198): a write sets it from the present time and clears it; the engine clears one that is left set and
makes a record. Stated where no activation is in progress. -/
def PauseIsSetAndExpires : Prop :=
  ∀ s : State, Awake s → s.host.activating = false →
    (regB s aCmdCtl 0 = false → ∃ t, exec (.pause true) s = .next t ∧ reg t aCmdCtl = 1 ∧ t.cmd.pauseFrom = s.now ∧
      t = { s with cmd := { s.cmd with pauseFrom := s.now }, regs := t.regs } ∧ RegsKept [aCmdCtl] s t) ∧
    (regB s aCmdCtl 0 = true → ∃ t, exec (.pause false) s = .next t ∧ reg t aCmdCtl = 0 ∧ intakeOpen t =
        (s.cmd.recovered && decide (s.pwr.phase = .running)) ∧ t = { s with regs := t.regs } ∧ RegsKept [aCmdCtl] s t) ∧
    (regB s aCmdCtl 0 = true → ∃ t, exec .pauseExpiry s = .next t ∧ reg t aCmdCtl = 0 ∧
      t = { s with regs := t.regs, strata := t.strata } ∧ RegsKept (aCmdCtl :: recordCounts) s t) ∧
    (regB s aCmdCtl 0 = false → exec .pauseExpiry s = .next s ∧ exec (.pause false) s = .next s)

/-- RECOVERY_COMPLETE (R2, R118, R126, R149, R156, R160, R174, R181) over a journal without records: the format record is in force
for the actuators the variant has, with the layout that the configuration block chose, and with it the first 64 allowed hosts; the
intake counter stands 2²⁰ above the high-water mark, the counts are zero, zones recorded open are Closed, zones on the surface
of a head that is absent or faulty are Read Only, and an actuator of the list that discovery did not find as expected is
UNAVAILABLE. A trial boot ends here. It happens once, after the regions are fixed. -/
def RecoveryRestoresTheDevice : Prop :=
  ∀ (s : State) (f : Fmt) (allowed : List Nat), Awake s →
    (mramLocked s = true → s.cmd.recovered = false → s.jrn.recs = [] → s.host.ctrls = [] → s.jrn.degraded = [] →
      regF s aBootStatus 2 2 ≠ 2 →
      ∃ t, exec (.recoveryComplete f allowed) s = .next t ∧ t.cmd.fmt = presentFmt s f ∧
        t.cmd.fmt.acts = f.acts.filter (actPresent s) ∧ t.cmd.fmt.layout = s.cmd.fmt.layout ∧ t.cmd.recovered = true ∧
        t.host.allowed = allowed.take 64 ∧
        t.cmd.nextSeq = hwm s + 2 ^ 20 ∧ reg t aJrnRecKept = 0 ∧ reg t aJrnRecDiscarded = 0 ∧
        (∀ g, let z := if zOpen (getZone s g).zstate = true then 3 else (getZone s g).zstate
          (getZone t g).zstate = if g < zoneCount (presentFmt s f) ∧
            zoneHeadBad { s with cmd := { s.cmd with fmt := presentFmt s f } } g = true ∧ z < 5 then 5 else z) ∧
        (∀ n, n < 4 → (getSched t n).st =
          if n ∈ (presentFmt s f).acts ∧ 2 ≤ smGet (fun _ => 0) s.boot.acts n then 5 else (getSched s n).st) ∧
        t = { s with cmd := t.cmd, jrn := t.jrn, regs := t.regs, host := t.host } ∧
        RegsKept [aJrnRecKept, aJrnRecDiscarded] s t) ∧
    (mramLocked s = true → s.cmd.recovered = false → s.jrn.recs = [] → regF s aBootStatus 2 2 = 2 →
      ∃ t, exec (.recoveryComplete f allowed) s = .next t ∧ t.cmd.recovered = true ∧ t.host.trial = none) ∧
    (mramLocked s = false ∨ s.cmd.recovered = true → exec (.recoveryComplete f allowed) s = .next s)

/-- Format NVM (R143, R145, R166, R185): secure erase, an LBA format above 1 and an absent namespace are turned away;
accepted, I/O to the namespaces it names is held off; as it takes effect their zones are Empty with ZGEN 0, their LBA
format is the one asked for, and it completes. -/
def FormatErasesItsNamespaces : Prop :=
  ∀ (s : State) (c : Cmd) (x : Nat), Awake s → c.io = false → c.cap.opc = 0x80 →
    (Alone c x s → bits c.cap.cdw10 9 3 ≠ 0 → ∃ t, exec .formatNvm s = .next t ∧ Completed c x stInvalidField 0 0 s t ∧
      ∀ d, getCtrl s c.ctrl = some d → ErrorLogged c stInvalidField d t) ∧
    (Alone c x s → bits c.cap.cdw10 9 3 = 0 → 1 < bits c.cap.cdw10 0 4 →
      ∃ t, exec .formatNvm s = .next t ∧ Completed c x stInvalidFormat 0 0 s t ∧
      ∀ d, getCtrl s c.ctrl = some d → ErrorLogged c stInvalidFormat d t) ∧
    (Alone c x s → bits c.cap.cdw10 9 3 = 0 → bits c.cap.cdw10 0 4 ≤ 1 → c.cap.nsid ≠ 0xFFFFFFFF → nsExists s.cmd.fmt c.cap.nsid = false →
      ∃ t, exec .formatNvm s = .next t ∧ Completed c x stInvalidNs 0 0 s t ∧
      ∀ d, getCtrl s c.ctrl = some d → ErrorLogged c stInvalidNs d t) ∧
    (freshCmd s = some c → bits c.cap.cdw10 9 3 = 0 → bits c.cap.cdw10 0 4 ≤ 1 →
      c.cap.nsid = 0xFFFFFFFF ∨ nsExists s.cmd.fmt c.cap.nsid = true → ∃ t, exec .formatNvm s = .next t ∧ NowWaits c s t ∧
        t.cmd.formatting = s.cmd.formatting ++ formatTargets s c.cap.nsid ∧
        t = { s with cmd := { s.cmd with cmds := t.cmd.cmds, formatting := t.cmd.formatting } }) ∧
    (s.cmd.cmds = [c] → c.phase = .waiting → c.ctx = some x → capEnabled s 1 = false → s.jrn.recs = [] → s.host.ctrls = [] →
      s.jrn.degraded = [] → ∃ t, exec (.formatTakesEffect c.seq) s = .next t ∧
        (∀ nsid, nsid ∈ formatTargets s c.cap.nsid → lbaf t.cmd.fmt nsid = bits c.cap.cdw10 0 4 ∧ nsid ∉ t.cmd.formatting ∧
          (∀ z, z < nsZones s.cmd.fmt nsid → getZone t (zoneIdx s.cmd.fmt nsid z) = {})) ∧
        t.out = .completion x c.cap.cid stOk false 0 0 :: s.out ∧ t.cmd.cmds = [] ∧
        t = { s with cmd := t.cmd, jrn := t.jrn, host := t.host, out := t.out })

/-- Nothing that a power state took down waits to be put back. -/
abbrev NothingSaved (s : State) : Prop :=
  s.cmd.saved.clus = [] ∧ s.cmd.saved.tdm = none ∧ s.cmd.saved.spin = [] ∧ s.cmd.saved.hsl = [] ∧ s.cmd.saved.parked = []

/-- The power states (R57, R144, R187, R188): at the decision STOP is set in the sequencers of the idled actuators, and the device
decides by itself when Autonomous Power State Transition is due; while an idled actuator's operation runs no safe point is
reached; one abandons the entry where a command asked for it, slows the spindle, powers a cluster off, or completes the entry,
in PS3 with the links idle; an exit rests in the state it returned to. -/
def PowerStatesAreEnteredAndLeft : Prop :=
  ∀ s : State, Awake s → Quiet s →
    (∀ active : List (Fin 4), s.cmd.moving = true → s.cmd.entering = true → ∃ t, exec (.powerStateEntry active) s = .next t ∧
      (∀ n, n ∈ idled s s.cmd.target (active.map (·.val)) → regB t (seqBase n) 1 = true ∧ n ∉ t.cmd.active) ∧
      (∀ n, n < actCount s → n ∉ idled s s.cmd.target (active.map (·.val)) → reg t (seqBase n) = reg s (seqBase n) ∧ n ∈ t.cmd.active) ∧
      t = { s with cmd := { s.cmd with active := t.cmd.active }, regs := t.regs } ∧
      RegsKept [seqBase 0, seqBase 1, seqBase 2, seqBase 3] s t) ∧
    (∀ (active : List (Fin 4)) (p : Nat), apstDue s = some p → ∃ t, exec (.powerStateEntry active) s = .next t ∧
      t.cmd.moving = true ∧ t.cmd.entering = true ∧ t.cmd.target = p ∧
      (∀ n, n ∈ idled s p (active.map (·.val)) → regB t (seqBase n) 1 = true ∧ n ∉ t.cmd.active)) ∧
    (∀ active : List (Fin 4), (s.cmd.moving = false ∧ apstDue s = none) ∨ (s.cmd.moving = true ∧ s.cmd.entering = false) →
      exec (.powerStateEntry active) s = .next s) ∧
    (s.cmd.moving = false ∨ s.cmd.entering = false ∨ nextStep s = .wait → exec .safePoint s = .next s) ∧
    (s.cmd.moving = true → s.cmd.entering = true → nextStep s ≠ .wait →
      (s.cmd.abandon = true → exec .safePoint s =
        .next { s with cmd := { s.cmd with entering := false, abandon := false, target := s.cmd.lastOp } }) ∧
      (s.cmd.abandon = false → nextStep s = .slow → ∃ t, exec .safePoint s = .next t ∧
        (∀ x, x < 2 → spinCmd t x = if spinCmd s x ≤ 1800 then 0 else max 1800 (spinCmd s x - 600)) ∧
        t = { s with cmd := { s.cmd with saved := t.cmd.saved }, regs := t.regs } ∧ RegsKept [aBasSpinCmd 0, aBasSpinCmd 1] s t) ∧
      (∀ n, s.cmd.abandon = false → nextStep s = .park n → (∀ x, x < 2 → serves s x n = false) → s.host.ctrls = [] →
        ∃ t, exec .safePoint s = .next t ∧ (getSched t n).st = 4 ∧ (∀ m, m ≠ n → getSched t m = getSched s m) ∧
          t = { s with cmd := t.cmd, host := t.host }) ∧
      (∀ c, s.cmd.abandon = false → nextStep s = .cluster c → ∃ t, exec .safePoint s = .next t ∧ (getClu t c).st = 0 ∧
        (∀ k, k < 8 → getHart t (8 * c + k) = none) ∧ getL2 t c = {} ∧ OthersKept c s t ∧ t.mem = s.mem ∧ t.jrn = s.jrn) ∧
      (s.cmd.abandon = false → nextStep s = .done → s.cmd.target ≤ 2 → NothingSaved s → s.host.ctrls = [] →
        ∃ t, exec .safePoint s = .next t ∧ t.cmd = { s.cmd with
          ps := s.cmd.target, moving := false, entering := false, lastOp := s.cmd.target } ∧
          t = { s with cmd := t.cmd, host := t.host }) ∧
      (s.cmd.abandon = false → nextStep s = .done → s.cmd.target = 3 → ∃ t, exec .safePoint s = .next t ∧ t.cmd.ps = 3 ∧
        t.cmd.moving = false ∧ t.cmd.lastOp = s.cmd.lastOp ∧ ∀ n, n < 4 → actPresent s n = true → regB t (aHslCtl n) 0 = false)) ∧
    (s.cmd.moving = true → s.cmd.entering = false → s.cmd.target ≤ 2 → NothingSaved s → s.host.ctrls = [] →
      ∃ t, exec .powerStateExit s = .next t ∧ t.cmd.ps = s.cmd.target ∧ t.cmd.moving = false ∧ t.cmd.cmds = s.cmd.cmds ∧
        t = { s with cmd := t.cmd, host := t.host }) ∧
    (s.cmd.moving = false ∨ s.cmd.entering = true → exec .powerStateExit s = .next s)

/-- Schedulers and patrol (R161, R189, R194–R196): where a track operation may start, the entry picked among those the
rules leave runs, an aged one is counted, its destage record is Destaging and its command started; media work beyond its
bound is counted; an actuator's patrol takes its zones in turn, queues their blocks as patrol entries while none of its work is
under way, counts each zone scanned, and recommends a reset of a Full or Closed zone that is weak or unreadable. -/
def Obligations.SchedulersServeAndPatrolRecommends : Prop :=
  ∀ s : State, Awake s →
    (∀ (n : Fin 4) (pick : Nat) (e : SchedEnt), mayStart s n = true →
      (fillWindow (getSched s n).queue.length (getSched s n)).window[pick]? = some e →
      e ∈ eligible s n (fillWindow (getSched s n).queue.length (getSched s n)).window →
      ∃ t, exec (.schedulerDispatch n pick) s = .next t ∧ (getSched t n).running = [e] ∧
        (∀ m, m ≠ n.val → getSched t m = getSched s m) ∧
        reg t (aSchAged n) = (if aged s n e = true then min (reg s (aSchAged n) + 1) 0xFFFFFFFF else reg s (aSchAged n)) ∧
        (e.kind = 1 → getRec t e.rcd = { getRec s e.rcd with state := 3 }) ∧
        (∀ c, e.kind = 0 → findCmd s e.seq = some c → findCmd t e.seq = some { c with started := true }) ∧
        t = { s with cmd := t.cmd, jrn := t.jrn, regs := t.regs } ∧ RegsKept [aSchAged n] s t) ∧
    (∀ q c, findCmd s q = some c → c.io = true → c.phase = .media → ∃ t, exec (.ageBoundExceeded q) s = .next t ∧
      reg t (aBreach 5) = min (reg s (aBreach 5) + 1) 0xFFFFFFFF ∧
      t = { s with regs := t.regs, strata := t.strata, free := s.free + 1 } ∧
      RegsKept (aBreach 5 :: recordCounts) s t) ∧
    (∀ n : Fin 4, regB s aPatrolCfg 0 = false ∨ actPresent s n = false ∨ patrolBusy s n = true →
      exec (.patrolPass n) s = .next s) ∧
    (∀ n : Fin 4, regB s aPatrolCfg 0 = true → actPresent s n = true → patrolBusy s n = false →
      (∀ z rest, (getSched s n).patrol = none → (patrolZones s n).filter (fun z => !(getSched s n).patDone.contains z) = z :: rest →
        ∃ t, exec (.patrolPass n) s = .next t ∧ (getSched t n).patrol = some { nsid := z.1, z := z.2 } ∧
          (getSched t n).patFrom = some ((getSched s n).patFrom.getD s.now) ∧
          (∀ m, m ≠ n.val → getSched t m = getSched s m) ∧ t = { s with cmd := t.cmd }) ∧
      (∀ p a k, (getSched s n).patrol = some p → patrolNext s p = some (a, k) → ∃ t, exec (.patrolPass n) s = .next t ∧
        (getSched t n).queue = (getSched s n).queue ++
          [{ kind := 2, seq := 0, rcd := 0, nsid := p.nsid, lba := a, nlb := k, since := s.now }] ∧
        (∀ m, m ≠ n.val → getSched t m = getSched s m) ∧ t = { s with cmd := t.cmd }) ∧
      (∀ p, (getSched s n).patrol = some p → patrolNext s p = none → s.host.ctrls = [] → ∃ t, exec (.patrolPass n) s = .next t ∧
        (getSched t n).patrol = none ∧ (getSched t n).patDone = (getSched s n).patDone ++ [(p.nsid, p.z)] ∧
        regF t aPatrolStatus 0 16 = min 65535 ((t.cmd.sched.map fun e => e.2.patDone.length).sum) ∧
        (∀ g, g = zoneIdx s.cmd.fmt p.nsid p.z → isZoned s.cmd.fmt p.nsid = true →
          (getZone s g).zstate = 3 ∨ (getZone s g).zstate = 4 → regF s aPatrolCfg 24 8 < p.weak ∨ p.bad = true →
          getZone t g = { getZone s g with rzr := true } ∧ (∀ h, h ≠ g → getZone t h = getZone s h) ∧
          regF t aPatrolStatus 16 16 = min (regF s aPatrolStatus 16 16 + 1) 65535) ∧
        (¬(regF s aPatrolCfg 24 8 < p.weak ∨ p.bad = true) → t.jrn = s.jrn ∧ t.strata = s.strata ∧
          regF t aPatrolStatus 16 16 = regF s aPatrolStatus 16 16) ∧
        t = { s with cmd := t.cmd, jrn := t.jrn, regs := t.regs, strata := t.strata } ∧
        RegsKept (aPatrolStatus :: recordCounts) s t))

/-- PAUSE, and the power states of the device (R186–R188). -/
def Obligations.PauseAndPowerStates : Prop := PauseIsSetAndExpires ∧ PowerStatesAreEnteredAndLeft

/-- Journal recovery and Format NVM (R126, R143, R145, R160, R174, R185). -/
def Obligations.RecoveryAndFormat : Prop := RecoveryRestoresTheDevice ∧ FormatErasesItsNamespaces

/-! ### Log pages, firmware images and NVMe-MI (R144, R146, R157, R186, R192, R363, R418, R433, R442) -/

/-- Get Log Page (R144): a page the controller has is returned at the offset and of the length asked for, then the
command completes; the deferred-error, calibration, window and capture pages are those of their rules (R192, R363, R433,
R442); an unknown page, and a stream that is not frozen, complete with their status. -/
def Obligations.LogPagesAreReturned : Prop :=
  ∀ (s : State) (c : Cmd) (x : Nat) (k : Ctx) (d : Ctrl), Awake s → Alone c x s → getCtx s x = some k → isAdmin 0x02 c = true →
    getCtrl s c.ctrl = some d → d.discovery = false →
    (pageId c.cap ∈ [0x01, 0x02, 0x03, 0x04, 0x05, 0x06, 0x0C, 0xBF, 0xC0, 0xC1, 0xC2] → ∃ t data, exec .getLogPage s = .next t ∧
      Returned c x data s t ∧ data.length = pageLen c.cap ∧
      (pageId c.cap = 0x03 → data = pageSlice c.cap (fwPage s)) ∧ (pageId c.cap = 0xC1 → data = pageSlice c.cap (deferPage s)) ∧
      (pageId c.cap = 0xC2 → data = pageSlice c.cap (calPage s)) ∧ (pageId c.cap = 0x01 → data = pageSlice c.cap (errorPage d)) ∧
      (pageId c.cap = 0x04 → data = pageSlice c.cap (padTo 4096 (d.changedNs.flatMap (leBytes 4))))) ∧
    (pageId c.cap ∉ [0x01, 0x02, 0x03, 0x04, 0x05, 0x06, 0x0C, 0xBF, 0xC0, 0xC1, 0xC2, 0x70, 0xC3, 0xC4] →
      ∃ t, exec .getLogPage s = .next t ∧ Completed c x stLogPage 0 0 s t ∧ ErrorLogged c stLogPage d t) ∧
    (pageId c.cap = 0xC3 → ∃ t data, exec .strataWindowLog s = .next t ∧ Returned c x data s t ∧ data.length = pageLen c.cap ∧
      t.strata.snapId = s.strata.snapId + (if pageOff c.cap = 0 then 1 else 0) ∧
      (pageOff c.cap ≠ 0 → data = pageSlice c.cap (smGet (fun _ => []) s.strata.snaps c.ctrl)) ∧
      (pageOff c.cap = 0 → data = (smGet (fun _ => []) t.strata.snaps c.ctrl ++ List.replicate (pageLen c.cap) 0).take (pageLen c.cap)) ∧
      t.mirror = s.mirror) ∧
    (pageId c.cap = 0xC4 → pageLsp c.cap = 0 → ∃ t, exec .captureIndexLog s = .next t ∧
      Returned c x (pageSlice c.cap (capIndex s)) s t) ∧
    (pageId c.cap = 0xC4 → 5 < pageLsp c.cap → ∃ t, exec .captureIndexLog s = .next t ∧ Completed c x stInvalidField 0 0 s t) ∧
    (∀ k, k < 4 → pageId c.cap = 0xC4 → pageLsp c.cap = k + 1 →
      ((getStream s k).frozen = true → ∃ t, exec .captureStreamLog s = .next t ∧ Returned c x (streamSlice s k c.cap) s t) ∧
      ((getStream s k).frozen = false → ∃ t, exec .captureStreamLog s = .next t ∧ Completed c x stInvalidField 0 0 s t)) ∧
    (pageId c.cap = 0xC4 → pageLsp c.cap = 5 → ∃ t, exec .replayOutputLog s = .next t ∧
      Returned c x (replaySlice s c.cap) s t ∧ t.cap = s.cap)

/-- The one command has completed after a verification, which is counted (R465) and recorded if it fails. -/
def Finished (c : Cmd) (x status : Nat) (s t : State) : Prop :=
  t.out = .completion x c.cap.cid status false 0 0 :: s.out ∧ t.cmd.cmds = [] ∧ t.mem = s.mem ∧ t.jrn = s.jrn ∧
  RegsKept (aSecCount 0 :: aSecCount 1 :: recordCounts) s t

/-- Firmware images (R118, R146, R186): a download goes into the slot that is not running, and nowhere else; a commit
verifies the image of the slot it names, and then stores it, names it for trial in a new boot record, or begins to
activate it, unless a fail-over or another activation is in progress (R38); an image that fails and a slot that may not be named are turned
away. -/
def Obligations.FirmwareImagesAreVerifiedAndNamed : Prop :=
  ∀ (s : State) (c : Cmd) (x : Nat), Awake s → Alone c x s →
    (isAdmin 0x11 c = true → (c.cap.cdw10 + 1) * 4 ≤ c.cap.data.length → c.cap.cdw11 * 4 + (c.cap.cdw10 + 1) * 4 ≤ slotSize s →
      ∃ t, exec .firmwareImageDownload s = .next t ∧ Completed c x stOk 0 0 s t ∧ t.host = s.host ∧
        flashBytes t (slotBase s (1 - s.host.running) + c.cap.cdw11 * 4) ((c.cap.cdw10 + 1) * 4) =
          c.cap.data.take ((c.cap.cdw10 + 1) * 4) ∧
        (∀ a, a < slotBase s (1 - s.host.running) ∨ slotBase s (1 - s.host.running) + slotSize s ≤ a → flashByte t a = flashByte s a)) ∧
    (isAdmin 0x11 c = true → slotSize s < c.cap.cdw11 * 4 + (c.cap.cdw10 + 1) * 4 →
      ∃ t, exec .firmwareImageDownload s = .next t ∧ Completed c x stInvalidField 0 0 s t ∧ t.flash = s.flash) ∧
    (isAdmin 0x10 c = true → 3 < bits c.cap.cdw10 3 3 → ∃ t, exec .fwCommitStore s = .next t ∧
      Completed c x stInvalidField 0 0 s t ∧ t.flash = s.flash ∧ ∀ d, getCtrl s c.ctrl = some d → ErrorLogged c stInvalidField d t) ∧
    (∀ i ca, (i, ca) ∈ [(Instr.fwCommitStore, 0), (.fwCommitStoreTrial, 1), (.fwCommitTrial, 2), (.fwCommitActivate, 3)] →
      isAdmin 0x10 c = true → bits c.cap.cdw10 3 3 = ca →
      (commitSlot s c.cap = none ∨ (commitSlot s c.cap = some s.host.running ∧ ca < 2) → ∃ t, exec i s = .next t ∧
        Completed c x stFwSlot 0 0 s t ∧ t.flash = s.flash ∧ t.host.trial = s.host.trial) ∧
      (∀ k, commitSlot s c.cap = some k → k < 2 → (k ≠ s.host.running ∨ 2 ≤ ca) →
        (slotCode s k ≠ 0 → ∃ t, exec i s = .next t ∧ Finished c x stFwImage s t ∧ t.flash = s.flash ∧
          t.host.trial = s.host.trial ∧ t.host.activating = s.host.activating) ∧
        (slotCode s k = 0 → ca = 0 → ∃ t, exec i s = .next t ∧ Finished c x stOk s t ∧ t.flash = s.flash ∧ t.host = s.host) ∧
        (slotCode s k = 0 → ca = 1 ∨ ca = 2 → ∃ t, exec i s = .next t ∧ Finished c x stOk s t ∧ t.host.trial = some k ∧
          (recInForce s = none → bootRec t 0 = recordBytes 0 (activeSlot s) k 3) ∧
          (∀ j, recInForce s = some j → bootRec t (1 - j) = recordBytes (fieldN (bootRec s j) 4 4 + 1) (activeSlot s) k 3)) ∧
        (slotCode s k = 0 → ca = 3 → interrupted s = false → s.host.heldActivations = [] →
          s.host.ctrls = [] → ∃ t, exec i s = .next t ∧ Finished c x stOk s t ∧ t.host.activating = true ∧
            t.host.running = k ∧ t.flash = s.flash) ∧
        (slotCode s k = 0 → ca = 3 → interrupted s = true → ∃ t, exec i s = .next t ∧
          t.out = s.out ∧ t.cmd.cmds = [] ∧ t.host = { s.host with
            heldActivations := s.host.heldActivations ++ [(some x, c.cap.cid, k)] } ∧ t.flash = s.flash)))

/-- NVMe-MI over SMBus (R157): a message to another address, with a bad PEC or of more than 4,224 bytes is dropped; MCTP control messages and
NVMe-MI commands are answered, and change nothing but the endpoint ID and the three configurations. -/
def Obligations.MiMessagesAreAnswered : Prop :=
  ∀ (s : State) (m : MiMessage), Awake s →
    (m.addr ≠ 0x1D ∨ m.pecOk = false ∨ 4224 < m.size → exec (.nvmeMiMessage m) s = .next s) ∧
    (m.addr = 0x1D → m.pecOk = true → m.size ≤ 4224 → m.kind ≤ 1 → ∃ t code bytes, exec (.nvmeMiMessage m) s = .next t ∧
      t.out = .smbus code bytes :: s.out ∧ t = { s with host := t.host, out := t.out, free := t.free } ∧
      t.host = { s.host with mctpEid := t.host.mctpEid, smbusFreq := t.host.smbusFreq, miHealth := t.host.miHealth,
                             mctpUnit := t.host.mctpUnit } ∧
      (m.kind = 0 → m.opcode = 1 → t.host.mctpEid = bits m.dword0 0 8 ∧ bytes = leBytes 1 (bits m.dword0 0 8)) ∧
      (m.kind = 1 → m.opcode = 3 → bits m.dword0 0 8 = 3 → 64 ≤ m.dword1 → m.dword1 ≤ 256 → t.host.mctpUnit = m.dword1) ∧
      (m.kind = 1 → m.opcode = 4 → bits m.dword0 0 8 = 1 → t.host = s.host ∧ bytes = leBytes 1 s.host.smbusFreq)) ∧
    (∀ c, m.addr = 0x1D → m.pecOk = true → m.size ≤ 4224 → m.kind = 2 → m.admin = some c → c.opc = 0x06 →
      ∃ t code bytes, exec (.nvmeMiMessage m) s = .next t ∧ t = { s with out := .smbus code bytes :: s.out })

/-! ### Start-up, the flash port and head discovery (R104–R128) -/

/-- A boot round, once the PLLs report lock (R62, R113, R117, R119, R127): the first slot in order that passes boots, with its report, its measurement and
hart 0 at its first firmware section; where none does, the line goes out on the UART, and a retry follows, or after the
third round the halt; an erased flash fails both slots with code 3. A flash time-out fails its slot with code 0xC. -/
def BootRoundsBootOrFail : Prop :=
  ∀ (s : State) (trains copies : Fin 4) (time : Nat), Awake s →
    (s.boot.phase ≠ .ready ∨ s.pwr.pllLocked = false → exec (.bootSequence trains copies time) s = .next s) ∧
    (∀ c u v r0, s.boot.phase = .ready → s.pwr.pllLocked = true → chooseSlots s = (c, u) →
      r0 = (match c.spent with | some t => ({} : Round).put t 0xB | none => {}) →
      (∀ r k, tryAll trains copies c.order r0 u = (r, v) → r.booted = some k → ∃ t, exec (.bootSequence trains copies time) s = .next t ∧
        t.boot.phase = .firmware ∧ t.host.running = k ∧ t.sec.run = some (measure v k) ∧ t.sec.boot = some (measure v k) ∧
        reg t aBootStatus = bootStatus c r (fwMibChoice v k).2 % 2 ^ 32 ∧ reg t aBootTime = min time 0xFFFFFFFF ∧
        getHart t 0 = some (dramBase + (((sects (manifest v k)).find? fun x => x.type_ == 2).map (·.load)).getD 0) ∧
        t.cmd.fmt.layout = fieldN (configOf v k) 0x14 1 ∧ (mramLocked v = false → (fwMibChoice v k).1 ≤ 64 → mramLocked t = true)) ∧
      (∀ r, tryAll trains copies c.order r0 u = (r, v) → r.booted = none → ∃ t, exec (.bootSequence trains copies time) s = .next t ∧
        t.out = .uart r.r0 r.r1 :: v.out ∧ t.boot.failed = v.boot.failed + 1 ∧
        t.boot.phase = (if 3 ≤ v.boot.failed + 1 then .halted else .retry) ∧
        t = { v with out := t.out, regs := t.regs, boot := t.boot, pending := s.pending, now := s.now, variant := s.variant })) ∧
    (s.boot.phase = .ready → s.pwr.pllLocked = true → s.flash = [] → s.boot.dead = [] → ∃ t, exec (.bootSequence trains copies time) s = .next t ∧
      t.out = .uart 3 3 :: s.out ∧ reg t aBootStatus = 0xF333 ∧ t.boot.failed = s.boot.failed + 1 ∧
      t = { s with out := t.out, regs := t.regs, boot := t.boot } ∧ RegsKept [aBootStatus] s t) ∧
    (∀ slot : Fin 2, ∃ t, exec (.flashTimeout slot) s = .next t ∧ slotCode t slot = 0xC ∧
      t = { s with boot := { s.boot with dead := t.boot.dead } }) ∧
    (s.boot.phase = .retry → exec .bootRetry s = .next { s with boot := { s.boot with phase := .ready, dead := [] } }) ∧
    (s.boot.phase ≠ .retry → exec .bootRetry s = .next s)

/-- Every zone on the surface of a head that is absent or faulty is Read Only with Zone Finished by Controller, unless it
is Offline, and no other zone has changed (R181). -/
def SurfacesFailed (s t : State) : Prop :=
  ∀ g, getZone t g = if g < zoneCount s.cmd.fmt ∧ zoneHeadBad t g = true ∧ (getZone s g).zstate < 5
    then { getZone s g with zstate := 5, zfc := true } else getZone s g

/-- The flash port (R127, R128): GO starts a command, which takes the bytes it writes from the FIFO and goes to the flash with its
opcode, address, dummy cycles and length, or is discarded with a record while one is on the bus; the FIFO takes and gives 4
bytes at a time, and an empty one reads ones; the end of a command brings its data and answers the reads that waited. What a
command leaves in the flash (R107): a program clears bits at the address, an erase sets its sector to ones. -/
def FlashPort : Prop :=
  ∀ s : State, Awake s →
    (∀ v, v / 2 ^ 31 % 2 = 1 → s.boot.busy = true → exec (.ospiCommand v) s = .next (record srcSys 0x14 [v] s)) ∧
    (∀ v, v / 2 ^ 31 % 2 = 1 → s.boot.busy = false → bits v 16 9 ≤ 256 → ∃ t, exec (.ospiCommand v) s = .next t ∧
      t.boot.busy = true ∧ regF t aOspiCmd 0 8 = bits v 0 8 ∧ regF t aOspiCmd 16 9 = bits v 16 9 ∧
      t.boot.fifo = (if bit v 9 = true then s.boot.fifo.drop (bits v 16 9) else s.boot.fifo) ∧
      t.boot.sending = (if bit v 9 = true then s.boot.fifo.take (bits v 16 9) else []) ∧
      t.out = .flash (bits v 0 8) (if bit v 8 = true then some (reg s aOspiAddr) else none) (bits v 11 5) t.boot.sending
        (if bit v 9 = true then 0 else bits v 16 9) :: s.out ∧
      t = { s with boot := { s.boot with busy := true, sending := t.boot.sending, fifo := t.boot.fifo }, regs := t.regs, out := t.out } ∧
      RegsKept [aOspiCmd] s t) ∧
    (∀ v : BitVec 32, s.boot.fifo.length ≤ 252 → exec (.ospiDataWrite v) s =
      .next { s with boot := { s.boot with fifo := s.boot.fifo ++ leBytes 4 v.toNat } }) ∧
    (∀ v : BitVec 32, 252 < s.boot.fifo.length → exec (.ospiDataWrite v) s = .next s) ∧
    (∀ source, s.boot.fifo = [] → exec (.ospiDataRead source) s = .next { s with out := .readData source 0xFFFFFFFF :: s.out }) ∧
    (∀ source, s.boot.fifo ≠ [] → exec (.ospiDataRead source) s = .next { s with
      out := .readData source (leNat (s.boot.fifo.take 4)) :: s.out, boot := { s.boot with fifo := s.boot.fifo.drop 4 } }) ∧
    (∀ bytes, s.boot.busy = true → ∃ t, exec (.ospiCommandEnd bytes .none) s = .next t ∧ t.boot.busy = false ∧ t.boot.waits = [] ∧
      t.boot.fifo = (s.boot.fifo ++ if regB s aOspiCmd 9 = true then [] else bytes.take (regF s aOspiCmd 16 9)).take 256 ∧
      t.out = (s.boot.waits.map fun w => Out.readData w.1 (leNat (flashBytes s w.2.1 w.2.2))).reverse ++ s.out ∧
      t = { s with boot := t.boot, out := t.out }) ∧
    (∀ bytes x, s.boot.busy = true → regB s aOspiCmd 8 = true → x = reg s aOspiAddr → x + s.boot.sending.length ≤ flashSize s →
      ∃ t, exec (.ospiCommandEnd bytes .program) s = .next t ∧
        (∀ i b, s.boot.sending[i]? = some b → flashByte t (x + i) = flashByte s (x + i) &&& b) ∧
        (∀ y, y < x ∨ x + s.boot.sending.length ≤ y → flashByte t y = flashByte s y)) ∧
    (∀ bytes, s.boot.busy = true → regB s aOspiCmd 8 = true → reg s aOspiAddr < flashSize s →
      ∃ t, exec (.ospiCommandEnd bytes .erase) s = .next t ∧
        ∀ y, flashByte t y = if y / 0x10000 = reg s aOspiAddr / 0x10000 then 0xFF else flashByte s y) ∧
    (∀ bytes effect, s.boot.busy = false → exec (.ospiCommandEnd bytes effect) s = .next s)

/-- Discovery (R105, R121, R124–R126, R181) releases the preamplifier, then classes the actuator by what it reads, once for each
start, keeps it out of reset only where it is found, and makes one that is listed and not as expected, or that misses its
in-service bound, UNAVAILABLE; a present head that yields no servo mark, or that firmware declares failed, is faulty; zones on the
surface of a head that is absent or faulty are Read Only. -/
def HeadDiscovery : Prop :=
  ∀ s : State, Awake s →
    (∀ (n : Fin 4) (h : Fin 8), actExpected s n = true → smGet (fun _ => 0) s.boot.acts n = 0 → ∃ t, exec (.headDiscovery n 0 h) s = .next t ∧
      regF t (aHslCtl n) 0 2 = 3 ∧ regF t (aHslCtl n) 8 3 = 7 ∧ t.mem = s.mem ∧ t.boot = s.boot) ∧
    (∀ (n : Fin 4) (h : Fin 8), actExpected s n = true → smGet (fun _ => 0) s.boot.acts n = 0 → discoverState s n = 1 →
      s.cmd.cmds = [] → ∃ t, exec (.headDiscovery n 1 h) s = .next t ∧
      smGet (fun _ => 0) t.boot.acts n = 1 ∧
      (∀ m, m < 8 → smGet (fun _ => 0) t.boot.heads (n * 8 + m) = bits (getPre s n).headstat (2 * m) 2) ∧
      (s.cmd.recovered = false → t.cmd = s.cmd ∧ t.jrn = s.jrn) ∧ (s.cmd.recovered = true → SurfacesFailed s t) ∧
      t = { s with boot := t.boot, strata := t.strata, regs := t.regs, cmd := t.cmd, jrn := t.jrn } ∧ RegsKept recordCounts s t) ∧
    (∀ (n : Fin 4) (h : Fin 8), actExpected s n = true → smGet (fun _ => 0) s.boot.acts n = 0 → discoverState s n ≠ 1 →
      (getHsl s n).cur = none → (getHsl s n).queue = [] →
      ∃ t, exec (.headDiscovery n 1 h) s = .next t ∧
        smGet (fun _ => 0) t.boot.acts n = discoverState s n ∧ regF t (aHslCtl n) 0 2 = 0 ∧ (regB s (aHslCtl n) 0 = true → downUp t n = false) ∧
        (n.val ∈ s.cmd.fmt.acts → (getSched t n).st = 5) ∧ t.mem = s.mem ∧ t.jrn = s.jrn) ∧
    (∀ (n : Fin 4) (h : Fin 8), actExpected s n = true → smGet (fun _ => 0) s.boot.acts n = 1 →
      smGet (fun _ => 0) s.boot.heads (n * 8 + h) = 1 → s.cmd.cmds = [] → ∃ t, exec (.headDiscovery n 2 h) s = .next t ∧
        (∀ k, smGet (fun _ => 0) t.boot.heads k = if k = n * 8 + h then 2 else smGet (fun _ => 0) s.boot.heads k) ∧
        SurfacesFailed s t ∧ t = { s with boot := { s.boot with heads := t.boot.heads }, cmd := t.cmd, jrn := t.jrn }) ∧
    (∀ (n : Fin 4) (h : Fin 8), smGet (fun _ => 0) s.boot.acts n ≠ 1 ∨ smGet (fun _ => 0) s.boot.heads (n * 8 + h) ≠ 1 →
      exec (.headDiscovery n 2 h) s = .next s) ∧
    (∀ (n : Fin 4) (h : Fin 8), n.val ∈ s.cmd.fmt.acts → (getSched s n).st = 1 → s.cmd.cmds = [] → ∃ t,
      exec (.headDiscovery n 3 h) s = .next t ∧ (getSched t n).st = 5 ∧ (∀ m, m ≠ n.val → getSched t m = getSched s m) ∧
      t = { s with cmd := { s.cmd with sched := t.cmd.sched }, host := t.host, out := t.out }) ∧
    (∀ (n : Fin 4) (h : Fin 8), n.val ∉ s.cmd.fmt.acts ∨ (getSched s n).st ≠ 1 → exec (.headDiscovery n 3 h) s = .next s) ∧
    (∀ (n : Fin 4) (step : Fin 4) (h : Fin 8), step.val < 3 → actExpected s n = false → exec (.headDiscovery n step h) s = .next s) ∧
    (∀ (n : Fin 4) (step : Fin 4) (h : Fin 8), step.val < 2 → smGet (fun _ => 0) s.boot.acts n ≠ 0 →
      exec (.headDiscovery n step h) s = .next s)

/-- Start-up: boot rounds, the flash port and discovery (R104–R128). -/
def Obligations.StartUpBootsAndDiscovers : Prop := BootRoundsBootOrFail ∧ FlashPort ∧ HeadDiscovery

/-! ### The register bus (R10, R11, R92–R98, R102, R454) -/

/-- An access is answered with an error response (R93): its count, SYS_ACCERR with the address, kind, direction, size and
source, its answer, and nothing else but its record. -/
def AccessError (source a kind size : Nat) (write : Bool) (s t : State) : Prop :=
  t.out = .busError source kind :: s.out ∧ reg t aAccerrCount = min (reg s aAccerrCount + 1) 0xFFFFFFFF ∧
  reg t aAccerrAddrLo = a % 2 ^ 32 ∧ reg t aAccerrAddrHi = a / 2 ^ 32 % 256 ∧
  reg t aAccerrInfo = kind + (if write then 16 else 0) + size % 4 * 32 + source % 128 * 256 + reg t aAccerrCount % 256 * 65536 ∧
  t = { s with out := t.out, regs := t.regs, strata := t.strata } ∧
  RegsKept (aAccerrCount :: aAccerrAddrLo :: aAccerrAddrHi :: aAccerrInfo :: recordCounts) s t

/-- The bus (R10, R11, R69, R86, R92–R98, R102, R454): an access that physical memory protection denies stays in the core; one that
is refused, too narrow or unanswered gets its error response, a 64-bit one whose halves a fence refuses only one; a plain field takes what is written; a reserved encoding is ignored and recorded; a locked field keeps its
value and the attempt is counted; a counter's low word is read with its high word latched; the debug module reads and
writes as a hart does, where it may. -/
def Obligations.BusAccessesFollowTheAccessTypes : Prop :=
  ∀ s : State, Awake s → Quiet s →
    (∀ (source : Fin 64) (a : BitVec 40) (size : Fin 4) (v : BitVec 64), pmpFault s source a.toNat (2 ^ size.val) pmpW = true →
      exec (.registerWrite source a size v) s = .next s) ∧
    (∀ (source : Fin 64) (a : BitVec 40) (size : Fin 4) (v : BitVec 64) (k : Nat),
      pmpFault s source a.toNat (2 ^ size.val) pmpW = false → accessRefused s source a.toNat size true = some k →
      ∃ t, exec (.registerWrite source a size v) s = .next t ∧ AccessError source a.toNat k size true s t) ∧
    (∀ (source : Fin 64) (a : BitVec 40) (size : Fin 4) (v : BitVec 64), pmpFault s source a.toNat (2 ^ size.val) pmpW = false →
      accessRefused s source a.toNat size true = none → regionOf s a.toNat = .io → size < 2 → ∃ t, exec (.registerWrite source a size v) s = .next t ∧
        AccessError source a.toNat errNarrow size true s t) ∧
    (∀ (source : Fin 64) (a : BitVec 40) (v : BitVec 64), pmpFault s source a.toNat 8 pmpW = false →
      accessRefused s source a.toNat 3 true = none → regionOf s a.toNat = .io →
      (fenced s source a.toNat = true → fenced s source (a.toNat + 4) = true → ∃ t, exec (.registerWrite source a 3 v) s = .next t ∧
        AccessError source a.toNat errIsolated 3 true s t) ∧
      (fenced s source a.toNat = false → fenced s source (a.toNat + 4) = false → a.toNat = aWallNewLo →
        ∃ t, exec (.registerWrite source a 3 v) s = .next t ∧ reg t aWallNewLo = v.toNat % 2 ^ 32 ∧
          reg t aWallNewHi = v.toNat / 2 ^ 32 % 2 ^ 32 ∧ t = { s with regs := t.regs } ∧ RegsKept [aWallNewLo, aWallNewHi] s t)) ∧
    (∀ (source : Fin 64) (a : BitVec 40) (v : BitVec 64), pmpFault s source a.toNat 4 pmpW = false →
      accessRefused s source a.toNat 2 true = none →
      (a.toNat ∈ [aOspiAddr, aRedSeen, aSecCmdIn, aSecCmdOut, aRplSrc, aRplOut, aSlowRxBase, aSlowTxBase, aWallNewLo] →
        ∃ t, exec (.registerWrite source a 2 v) s = .next t ∧ reg t a.toNat = v.toNat % 2 ^ 32 ∧ t = { s with regs := t.regs } ∧
          RegsKept [a.toNat] s t) ∧
      (a.toNat = aDramScrub → 1 ≤ v.toNat % 256 → v.toNat % 256 ≤ 168 → ∃ t, exec (.registerWrite source a 2 v) s = .next t ∧
        regF t aDramScrub 0 8 = v.toNat % 256 ∧ t = { s with regs := t.regs } ∧ RegsKept [aDramScrub] s t) ∧
      (a.toNat = aDramScrub → ¬(1 ≤ v.toNat % 256 ∧ v.toNat % 256 ≤ 168) → ∃ t, exec (.registerWrite source a 2 v) s = .next t ∧
        t = { s with regs := t.regs, strata := t.strata } ∧ RegsKept recordCounts s t) ∧
      (a.toNat = aBootGen → reg s aBootGen = (regReset aBootGen).toNat → ∃ t, exec (.registerWrite source a 2 v) s = .next t ∧
        reg t aBootGen = v.toNat % 2 ^ 32 ∧ t = { s with regs := t.regs } ∧ RegsKept [aBootGen] s t) ∧
      (a.toNat = aBootGen → reg s aBootGen ≠ (regReset aBootGen).toNat → reg s aBootGen ≠ v.toNat % 2 ^ 32 →
        ∃ t, exec (.registerWrite source a 2 v) s = .next t ∧ reg t aLockViol = min (reg s aLockViol + 1) 0xFFFFFFFF ∧
          t = { s with regs := t.regs, strata := t.strata } ∧ RegsKept (aLockViol :: recordCounts) s t)) ∧
    (∀ (source : Fin 64) (a : BitVec 40) (v : Nat), pmpFault s source a.toNat 4 pmpR = false →
      accessRefused s source a.toNat 2 false = none → regionOf s a.toNat = .io →
      counter64 s a.toNat = some v → ∃ t, exec (.counterLowRead source a false) s = .next t ∧
        t.out = .readData source (v % 2 ^ 32) :: s.out ∧ reg t (a.toNat + 4) = v / 2 ^ 32 % 2 ^ 32 ∧
        t = { s with out := t.out, regs := t.regs } ∧ RegsKept [a.toNat + 4] s t) ∧
    (∀ (source : Fin 64) (a : BitVec 40), a.toNat = aTimebaseLo → pmpFault s source a.toNat 8 pmpR = false →
      fenced s source a.toNat = false → fenced s source (a.toNat + 4) = false →
      ∃ t, exec (.counterLowRead source a true) s = .next t ∧ t.out = .readData source (s.now % 2 ^ 64) :: s.out) ∧
    (∀ (source : Fin 65) (a : BitVec 40) (size : Fin 4) (write : Bool), accessRefused s source a.toNat size write = none →
      (a.toNat < indBase ∨ indBase + 0x10000 ≤ a.toNat) → ∃ t, exec (.busTimeout source a size write) s = .next t ∧
        AccessError source a.toNat errTimeout size write s t) ∧
    (∀ (source : Fin 65) (a : BitVec 40) (size : Fin 4) (write : Bool), (accessRefused s source a.toNat size write).isSome = true →
      exec (.busTimeout source a size write) s = .next s) ∧
    (∀ (a : BitVec 40) (size : Fin 4) (v : Option (BitVec 64)) (e : MemErr), debugReachable s = false ∨ s.pwr.tapReset = true →
      exec (.debugModuleAccess a size v e) s = .next s) ∧
    (debugReachable s = true → s.pwr.tapReset = false →
      (∀ (a : BitVec 40) (e : MemErr), accessRefused s 64 a.toNat 2 false = none → regionOf s a.toNat = .io → counter64 s a.toNat = none →
        a.toNat ≠ aOspiData → isIndData a.toNat = false → exec (.debugModuleAccess a 2 none e) s =
          .next { s with out := .readData 64 (viewReg s a.toNat % 2 ^ 32) :: s.out }) ∧
      (∀ (a : BitVec 40) (v : BitVec 64) (e : MemErr), accessRefused s 64 a.toNat 2 true = none → a.toNat = aRedSeen →
        ∃ t, exec (.debugModuleAccess a 2 (some v) e) s = .next t ∧ reg t aRedSeen = v.toNat % 2 ^ 32 ∧
          t = { s with regs := t.regs } ∧ RegsKept [aRedSeen] s t) ∧
      (∀ (a : BitVec 40) (size : Fin 4) (v : Option (BitVec 64)) (e : MemErr) (k : Nat), accessRefused s 64 a.toNat size v.isSome = some k →
        ∃ t, exec (.debugModuleAccess a size v e) s = .next t ∧ AccessError 64 a.toNat k size v.isSome s t))

/-- R98: a 32-bit read of a designated counter's low word returns it and latches the high word in the counter's holding
register, whoever reads; a read of the high word returns the holding register; an aligned 64-bit read returns one
snapshot; the holding register is 0 after reset. -/
def Obligations.DesignatedCountersAreReadCoherently : Prop :=
  ∀ (s : State) (a : BitVec 40) (v : Nat), Awake s → Quiet s → counter64 s a.toNat = some v → regionOf s a.toNat = .io →
    (∀ source : Fin 64, pmpFault s source a.toNat 4 pmpR = false → accessRefused s source a.toNat 2 false = none →
      ∃ t, exec (.counterLowRead source a false) s = .next t ∧
      t.out = .readData source (v % 2 ^ 32) :: s.out ∧ reg t (a.toNat + 4) = v / 2 ^ 32 % 2 ^ 32 ∧
      t = { s with out := t.out, regs := t.regs } ∧ RegsKept [a.toNat + 4] s t) ∧
    (debugReachable s = true → s.pwr.tapReset = false → accessRefused s 64 a.toNat 2 false = none →
      ∀ e, ∃ t, exec (.debugModuleAccess a 2 none e) s = .next t ∧ t.out = .readData 64 (v % 2 ^ 32) :: s.out ∧
        reg t (a.toNat + 4) = v / 2 ^ 32 % 2 ^ 32) ∧
    (debugReachable s = true → s.pwr.tapReset = false → accessRefused s 64 (a.toNat + 4) 2 false = none →
      ∀ e, ∃ t, exec (.debugModuleAccess (a + 4) 2 none e) s = .next t ∧ t.out = .readData 64 (reg s (a.toNat + 4)) :: s.out ∧
        t = { s with out := t.out }) ∧
    (∀ source : Fin 64, pmpFault s source a.toNat 8 pmpR = false → accessRefused s source a.toNat 3 false = none →
      fenced s source a.toNat = false → fenced s source (a.toNat + 4) = false → ∃ t, exec (.counterLowRead source a true) s = .next t ∧
      t.out = .readData source (v % 2 ^ 64) :: s.out ∧ reg t (a.toNat + 4) = v / 2 ^ 32 % 2 ^ 32) ∧
    reg State.reset (a.toNat + 4) = 0

/-! ### Channel lanes, decoders and the write path (R246–R299, R373–R397) -/

/-- Candidates and decoders (R246–R249, R256–R260, R266, R287, R288): a searched sector has its candidates formed from its own
samples; a waiting request takes the lowest-numbered free decoder; an iteration, whose result rests on the LLRs alone, ends the
decode on syndrome zero or at its limit, and a deferred decode then tries its next candidate, and else goes on; a read sector at the sample memory's bound is posted as failed, a written one is
classified FAIL, and a deferred decode at its bound leaves its entry awaiting a re-read. -/
def Obligations.DecodersServeTheirRequests : Prop :=
  ∀ s : State, Awake s → Quiet s →
    (∀ (n : Fin 4) (slot : Nat) (x : Sector) (p : List Byte) (dists : List (List Nat)), findSec s n slot = some x →
      (getCh s n).write = false → x.formed = false → x.passed = false → x.begun = x.frags.length → p = (getCh s n).pset →
      dists = sectorDistances p [] .both (setWin p) x → ∃ t, exec (.syncWindowEnd (.read n slot)) s = .next t ∧ t = { s with chan := t.chan } ∧
        findSec t n slot = some { x with
          formed := true
          preMiss := !preambleAt p x 0
          cands := formCands (setWin (getCh s n).pset) (setThr (getCh s n).pset) (setCand (getCh s n).pset) (bit (getCh s n).ctl 2) dists
          noSync := dists.all fun d => (qualifying (setWin (getCh s n).pset) (setThr (getCh s n).pset) d).isEmpty }) ∧
    (∀ (j : Job) (k : Nat), s.chan.jobs = [j] → j.dec = none → j.cls < 2 → (freeDecs s).head? = some k →
      ∃ t, exec .decoderGrant s = .next t ∧ t.chan.jobs = [{ j with dec := some k, run := 1, grant := s.chan.grants }] ∧
        t = { s with chan := t.chan }) ∧
    (s.chan.jobs = [] → exec .decoderGrant s = .next s) ∧
    (∀ (k : Fin 12) (j : Job) (v : List (Option Int) × List Int) (r : Pass), s.chan.jobs = [j] → j.dec = some k.val →
      v = passLlr s j → r = garnet v.2 → ∃ t, exec (.globalIterationEnd k) s = .next t ∧
        (r.zero = true ∨ j.limit ≤ j.run → decBusy t k = false) ∧
        (r.zero = false → j.run < j.limit → t = { s with chan := t.chan } ∧ t.chan.jobs = [{ j with
          run := j.run + 1
          ext := r.ext
          err := if j.run = 1 then (match heldWord s j with | some cw => hardErrors v.1 v.2 cw | none => 0) else j.err }]) ∧
        (∀ e x c0 c cs, r.zero = false → j.limit ≤ j.run → j.target = .deferred e → getEnt s e = some x → x.cur = some c0 →
          x.todo = c :: cs → t = { s with chan := t.chan } ∧
          t.chan.jobs = [{ lane := x.lane, cls := 2, target := .deferred e, key := x.order, limit := iterDef s }] ∧
          getEnt t e = some { x with iters := x.iters + (j.spent + j.run), owed := x.owed + (j.spent + j.run), cur := some c, todo := cs })) ∧
    (∀ k : Fin 12, decBusy s k = false → exec (.globalIterationEnd k) s = .next s) ∧
    (∀ (n : Fin 4) (slot : Fin 2048) (x : Sector), (getCh s n).sectors = [x] → x.slot = slot.val → x.res = 0 →
      s.chan.jobs = [] → capEnabled s 3 = false →
      ((getCh s n).write = false → 0 < x.begun → x.entry = none → x.parity = false → x.posted = false →
        dFlag (getCh s n).dsc 1 = false → regB s aChanCtl 0 = false → (getCh s n).results.length < 64 →
        ∃ t, exec (.sampleMemoryTimeout n slot) s = .next t ∧ findSec t n slot = none ∧
          (getCh t n).results = (getCh s n).results ++ [slot.val % 2048 + 4 * 65536 + 4095 * 2 ^ 20] ∧
          reg t (aChl n 0) = min (reg s (aChl n 0) + 1) 0xFFFFFFFF ∧ reg t (aChl n 1) = min (reg s (aChl n 1) + 1) 0xFFFFFFFF ∧
          t.mem = s.mem) ∧
      ((getCh s n).write = true → x.passed = true → x.formed = true ∨ x.rb = true ∨ (x.vLost = false ∧ laneUp s n 2 = true) →
        ∃ t, exec (.verifyTimeout n slot) s = .next t ∧ findSec t n slot = none ∧
        (getW (getCh t n) slot).st = (if x.rb = true ∨ wsRewriteMax (getCh s n).wset < (getW (getCh s n) slot).fails + 1 then 4 else 3) ∧
        reg t (aWr n 1) = min (reg s (aWr n 1) + 1) 0xFFFFFFFF ∧ reg t (aWr n 2) = min (reg s (aWr n 2) + 1) 0xFFFFFFFF ∧
        t.mem = s.mem)) ∧
    (∀ (e : Fin 4096) (x : DefEnt), getEnt s e = some x → x.st = 2 → ∃ t y, exec (.deferredDecodeTimeout e) s = .next t ∧
      getEnt t e = some y ∧ y.st = (if x.sec.ra = true then 5 else 3) ∧ y.cur = none ∧ y.owed = 0 ∧
      t.chan.lanes = s.chan.lanes ∧ (∀ f, f ≠ e.val → getEnt t f = getEnt s f)) ∧
    (∀ (e : Fin 4096), (∀ x, getEnt s e = some x → x.st ≠ 2) → exec (.deferredDecodeTimeout e) s = .next s)

/-- The deferred-decode ring and the shock inhibit (R264, R272, R296, R297, R299): advancing CHAN_DDB_RD frees the entry it
passes, and out of range is a reserved value; the ring's registers are written only while it is off; an input that rises
activates the inhibit, counts it, pulls the preamplifiers whose SHOCK_EN is set and stops their writing, and its end
releases them. -/
def DeferredRingAndShockInhibit : Prop :=
  ∀ s : State, Awake s → Quiet s →
    (∀ (rd : Fin 4096) (ended : Bool), ddbEntries s ≤ rd → s.cmd.cmds = [] → s.cmd.bufWaits = [] → ∃ t, exec (.ddbRdAdvance rd ended) s = .next t ∧
      t = { s with strata := t.strata, regs := t.regs } ∧ RegsKept recordCounts s t) ∧
    (∀ (rd : Fin 4096) (ended : Bool) (x : DefEnt), rd < ddbEntries s → regF s aDdbRd 0 12 < ddbEntries s →
      rd = (regF s aDdbRd 0 12 + 1) % ddbEntries s → 2 ≤ ddbEntries s → s.cmd.cmds = [] → s.cmd.bufWaits = [] → s.chan.jobs = [] →
      getEnt s (regF s aDdbRd 0 12) = some x → 4 ≤ x.st → ∃ t, exec (.ddbRdAdvance rd ended) s = .next t ∧
        getEnt t (regF s aDdbRd 0 12) = none ∧ (∀ f, f ≠ regF s aDdbRd 0 12 → getEnt t f = getEnt s f) ∧ reg t aDdbRd = rd ∧
        t = { s with chan := t.chan, regs := t.regs } ∧ RegsKept [aDdbRd] s t) ∧
    (∀ (base : Bool) (v : BitVec 32), regB s aChanCtl 0 = true → ∃ t, exec (.ddbCfgWrite base v) s = .next t ∧
      t = { s with strata := t.strata, regs := t.regs } ∧ RegsKept recordCounts s t) ∧
    (∀ v : BitVec 32, regB s aChanCtl 0 = false → ∃ t, exec (.ddbCfgWrite true v) s = .next t ∧ reg t aDdbBase = v.toNat % 65536 ∧
      t = { s with regs := t.regs } ∧ RegsKept [aDdbBase] s t) ∧
    (∀ v : BitVec 32, regB s aChanCtl 0 = false → bits v.toNat 0 12 = 0 ∨ 16 ≤ bits v.toNat 0 12 → bits v.toNat 16 6 ≠ 0 →
      ∃ t, exec (.ddbCfgWrite false v) s = .next t ∧ ddbEntries t = bits v.toNat 0 12 ∧ iterDef t = bits v.toNat 16 6 ∧
        t = { s with regs := t.regs } ∧ RegsKept [aDdbCfg] s t) ∧
    (∀ (i : Fin 2) (high : Bool), high = false ∨ bit s.chan.shock.ints i = true ∨ bit s.chan.shock.cfg 18 = false →
      ∃ t, exec (.accelInt i high) s = .next t ∧ bit t.chan.shock.ints i = high ∧
        t = { s with chan := { s.chan with shock := { s.chan.shock with ints := t.chan.shock.ints } } }) ∧
    (∀ i : Fin 2, bit s.chan.shock.ints i = false → bit s.chan.shock.cfg 18 = true → s.chan.shock.active = false →
      ∃ t, exec (.accelInt i true) s = .next t ∧ t.chan.shock.active = true ∧ t.chan.shock.hold = bits s.chan.shock.cfg 8 8 ∧
        reg t aShockCount = min (reg s aShockCount + 1) 0xFFFFFFFF ∧ t.mem = s.mem ∧ t.jrn = s.jrn ∧
        (∀ n, n < 4 → actPresent s n = true → regB s (aWrCtl n) 2 = true →
          (getHsl t n).shockPull = true ∧ (getCh t n).inw = false)) ∧
    (s.chan.shock.active = true → bit s.chan.shock.cfg 18 = false ∨ s.chan.shock.ints = 0 → ∃ t, exec .shockHoldEnd s = .next t ∧
      t.chan.shock.active = false ∧ (∀ n, n < 4 → actPresent s n = true → (getHsl t n).shockPull = false) ∧
      t.mem = s.mem ∧ t.jrn = s.jrn) ∧
    (s.chan.shock.active = false ∨ (bit s.chan.shock.cfg 18 = true ∧ s.chan.shock.ints ≠ 0) → exec .shockHoldEnd s = .next s) ∧
    (∀ (n : Fin 4) (on : Bool), actPresent s n = true → s.chan.shock.active = false → ∃ t, exec (.shockEn n on) s = .next t ∧
      regB t (aWrCtl n) 2 = on ∧ regF t (aWrCtl n) 0 2 = regF s (aWrCtl n) 0 2 ∧ t = { s with regs := t.regs } ∧
      RegsKept [aWrCtl n] s t) ∧
    (∀ (n : Fin 4) (on : Bool), actPresent s n = false → exec (.shockEn n on) s = .next s)

/-- Fragments and position records (R251, R373, R377, R401): a fragment that begins leaves the arm queue and latches; a late
first fragment is one slip; the last bit of a read sector is latched; a record of an island that is not HEALTHY is set
aside, one that waits for the other island's is held, and the last one decides the wedge. -/
def FragmentsAndPositionsArrive : Prop :=
  ∀ (s : State) (n : Fin 4), Awake s → Quiet s →
    (∀ (slot j sbr : Nat) (x : Sector) (rest : List (Nat × Nat)), (getCh s n).arm = (slot, j) :: rest → findSec s n slot = some x →
      (getCh s n).write = false → (getCh s n).sectors.length ≤ 8 →
      (0 < j → ∃ t, exec (.fragmentBegun n false sbr) s = .next t ∧ (getCh t n).arm = rest ∧ 0x17 ∈ (getSq t n).latch ∧
        findSec t n slot = some { x with begun := x.begun + 1, starts := x.starts ++ [(x.a.length, x.b.length)] } ∧ t = { s with chan := t.chan, seq := t.seq }) ∧
      (j = 0 → ∃ t y, exec (.fragmentBegun n false sbr) s = .next t ∧ (getCh t n).arm = rest ∧ 0x17 ∈ (getSq t n).latch ∧
        findSec t n slot = some y ∧ y.begun = x.begun + 1 ∧ y.firstBit = s.now ∧ y.hasA = laneUp s n 0 ∧ y.hasB = laneUp s n 1 ∧
        y.front = (getCh s n).front ∧
        t = { s with chan := t.chan, seq := t.seq }) ∧
      (j = 0 → ∃ t, exec (.fragmentBegun n true sbr) s = .next t ∧ (getCh t n).slips = (getCh s n).slips + 1 ∧
        (getCh t n).arm = (getCh s n).arm ∧ 0x19 ∈ (getSq t n).latch ∧ reg t (aSeqCount n 4) = min (reg s (aSeqCount n 4) + 1) 0xFFFFFFFF ∧
        t = { s with chan := t.chan, seq := t.seq, regs := t.regs } ∧ RegsKept [aSeqCount n 4] s t)) ∧
    (∀ (late : Bool) (sbr : Nat), (getCh s n).arm = [] → exec (.fragmentBegun n late sbr) s = .next s) ∧
    (∀ (slot : Fin 2048) (x : Sector), findSec s n slot = some x → x.passed = false → x.begun = x.frags.length →
      (getCh s n).write = false → x.formed = false → ∃ t, exec (.sectPassed n slot) s = .next t ∧ 0x18 ∈ (getSq t n).latch ∧
        findSec t n slot = some { x with passed := true, lastBit := s.now } ∧
        (getCh t n).front = frontAfter (getCh s n).pset [] .both { x with passed := true, lastBit := s.now } ∧ t = { s with chan := t.chan, seq := t.seq }) ∧
    (∀ slot : Fin 2048, findSec s n slot = none → exec (.sectPassed n slot) s = .next s) ∧
    (∀ x : Fin 2, takeFirst (fun r : PosRec => r.isl == x.val) (getCh s n).posq = none → exec (.positionRecord x n) s = .next s) ∧
    (∀ (x : Fin 2) (r : PosRec) (rest : List PosRec), takeFirst (fun r : PosRec => r.isl == x.val) (getCh s n).posq = some (r, rest) →
      (islHealthy s x = false → exec (.positionRecord x n) s = .next (setCh n { getCh s n with posq := rest } s)) ∧
      (islHealthy s x = true → (getCh s n).half = [] → (∃ y, y ∈ deciders s n ∧ y ≠ r.isl) → ∃ t, exec (.positionRecord x n) s = .next t ∧
        (getCh t n).half = [r] ∧ (getCh t n).posq = rest ∧ (getSq t n).lastRec = s.now ∧ (getAst t n).noRec = false ∧
        t.mem = s.mem ∧ t.regs = s.regs) ∧
      (islHealthy s x = true → (getCh s n).half = [] → (∀ y, y ∈ deciders s n → y = r.isl) → (getCh s n).busy = false →
        (getCh s n).write = false → (getCh s n).sectors = [] → s.chan.ddb = [] → (getSq s n).clkMove = none → ∃ t w, exec (.positionRecord x n) s = .next t ∧
          (getCh t n).last = some w ∧ w.no = r.wedge ∧ w.recs = [r] ∧ (getCh t n).half = [] ∧ (getCh t n).posq = rest ∧
          0x02 ∈ (getSq t n).latch ∧ (r.wedge = 0 → 0x03 ∈ (getSq t n).latch) ∧ t.mem = s.mem ∧ t.regs = s.regs))

/-- Sequencer control (R377, R385, R391, R396): a timer that expires latches its event; the limit of an operation ends it at
the active bank's ENTRY; EN starts the sequencer at ENTRY and its fall holds it at reset; STOP is set only in an
operation; a bank is requested if it is VALID, and switched to at a boundary, if nothing holds the switch; the control
store is read through its window. -/
def Obligations.SequencersAreControlled : Prop :=
  ∀ (s : State) (n : Fin 4), Awake s → Quiet s →
    (∀ t0 : Timer, (getSq s n).t0 = some t0 → t0.wedges = false → ∃ t, exec (.seqTimerExpiry n false) s = .next t ∧
      (getSq t n).t0 = none ∧ 0x0D ∈ (getSq t n).latch ∧ t = { s with seq := t.seq }) ∧
    (∀ t1 : Timer, (getSq s n).t1 = some t1 → t1.wedges = false → ∃ t, exec (.seqTimerExpiry n true) s = .next t ∧
      (getSq t n).t1 = none ∧ 0x0E ∈ (getSq t n).latch ∧ t = { s with seq := t.seq }) ∧
    ((getSq s n).t0 = none → exec (.seqTimerExpiry n false) s = .next s) ∧
    ((getSq s n).inOp = true → (getCh s n).write = false → (getCh s n).sectors = [] → s.chan.jobs = [] →
      ∃ t, exec (.opLimitExpiry n) s = .next t ∧ (getSq t n).inOp = false ∧ (getSq t n).stack = [] ∧ (getSq t n).waiting = false ∧
        (getSq t n).pc = entryOf s n ∧ (getSched t n).running = [] ∧ (getCh t n).busy = false ∧
        reg t (aSeqCount n 0) = min (reg s (aSeqCount n 0) + 1) 0xFFFFFFFF ∧
        reg t (aSeqCount n 1) = min (reg s (aSeqCount n 1) + 1) 0xFFFFFFFF) ∧
    ((getSq s n).inOp = false → exec (.opLimitExpiry n) s = .next s) ∧
    (actPresent s n = true → regB s (aSeqCtl n) 0 = false → ∃ t, exec (.seqEn n true) s = .next t ∧ regB t (aSeqCtl n) 0 = true ∧
      (getSq t n).pc = entryOf s n ∧ (getSq t n).waiting = false ∧ t = { s with regs := t.regs, seq := t.seq } ∧
      RegsKept [aSeqCtl n] s t) ∧
    (actPresent s n = true → regB s (aSeqCtl n) 0 = true → (getSq s n).inOp = false → ∃ t, exec (.seqEn n false) s = .next t ∧
      regB t (aSeqCtl n) 0 = false ∧ (getSq t n).pc = 0 ∧ (getSq t n).stack = [] ∧ (getSq t n).latch = [] ∧
      (∀ k, getG t n k = 0) ∧ (getSq t n).t0 = none ∧ (getSq t n).t1 = none ∧ (getSq t n).active = (getSq s n).active ∧
      t = { s with regs := t.regs, seq := t.seq } ∧ RegsKept [aSeqCtl n] s t) ∧
    (actPresent s n = true → ∃ t, exec (.stop n) s = .next t ∧ regB t (aSeqCtl n) 1 = (getSq s n).inOp ∧
      regB t (aSeqCtl n) 0 = regB s (aSeqCtl n) 0 ∧ (getSq t n).inOp = (getSq s n).inOp ∧ RegsKept [aSeqCtl n] s t ∧ t.mem = s.mem) ∧
    (actPresent s n = true → ∀ sel : Fin 4, sel ≠ 3 → sel.val ≠ (getSq s n).active →
      (bankValid s n sel = true → ∃ t, exec (.bankSwitchRequest n sel) s = .next t ∧ (getSq t n).pend = some sel.val ∧
        (getSq t n).active = (getSq s n).active ∧ t = { s with regs := t.regs, seq := t.seq } ∧ RegsKept [aSeqBankSel n] s t) ∧
      (bankValid s n sel = false → ∃ t, exec (.bankSwitchRequest n sel) s = .next t ∧ (getSq t n).pend = none ∧
        reg t (aSeqCount n 7) = min (reg s (aSeqCount n 7) + 1) 0xFFFFFFFF ∧
        t = { s with regs := t.regs, seq := t.seq, strata := t.strata } ∧
        RegsKept (aSeqCount n 7 :: aSeqBankSel n :: recordCounts) s t)) ∧
    (∀ sel, (getSq s n).pend = some sel → (getSq s n).inOp = false → switchHeld s = false → regB s (aSeqCtl n) 0 = true →
      ∃ t, exec (.bankSwitch n) s = .next t ∧ (getSq t n).active = sel ∧ (getSq t n).pend = none ∧ (getSq t n).stack = [] ∧
        (getSq t n).pc = entryOf t n ∧ reg t (aSeqCount n 6) = min (reg s (aSeqCount n 6) + 1) 0xFFFFFFFF) ∧
    ((getSq s n).pend = none ∨ (getSq s n).inOp = true ∨ switchHeld s = true ∨ regB s (aSeqCtl n) 0 = false → exec (.bankSwitch n) s = .next s) ∧
    (∀ a : Fin 8192, actPresent s n = true → ∃ t, exec (.csSnapshot n a) s = .next t ∧ reg t (aSeqCsAddr n) = a ∧
      reg t (aSeqCsDataLo n) = csWord s n a % 2 ^ 32 ∧ reg t (aSeqCsDataHi n) = csWord s n a / 2 ^ 32 % 65536 ∧
      t = { s with regs := t.regs } ∧ RegsKept [aSeqCsAddr n, aSeqCsDataLo n, aSeqCsDataHi n] s t)

/-- The deferred ring, the shock write-inhibit, and what reaches the channel (R245–R300, R310). -/
def Obligations.ChannelRingShockAndArrivals : Prop := DeferredRingAndShockInhibit ∧ FragmentsAndPositionsArrive

/-! ### Energy assist and calibration (R341–R366) -/

/-- The registers that a loop tick may write: demand, set-point and the counts of R365, of every actuator. -/
abbrev tickRegs : List Nat :=
  (List.range 4).flatMap fun n => [aAstDem n, aAstSp n, aAstCount n 2, aAstCount n 3, aAstCount n 4]

/-- Ticks, temperature and sensors (R285, R342–R346, R352, R354, R355): a tick uses up the fresh mark, follows the head in force,
runs a loop where its interval, its enables and the head's block and trips have it so, and sends the loops' demand codes, none for a
head without a block; a loop that has no record is off; T_D follows the override, the mean of the
valid sensors, or holds; a sensor read changes its value, and its validity at the third in a row of the other kind; EN
sends the sensors' set-up. Stated without a fresh sense word, since a trip may end an operation. -/
def Obligations.LoopsAndTemperature : Prop :=
  ∀ s : State, Awake s → Quiet s →
    (∀ ins, (∀ n, n < 4 → (getAst s n).fresh = false) → ∃ t, exec (.loopTick ins) s = .next t ∧
      (∀ n, n < 4 → actPresent s n = true → (getAst t n).fresh = false ∧ (getAst t n).head = (getHsl s n).head ∧
        (getAst t n).ast.en = (assistDue (getCh s n).wset (ins.getD n {}) && writingHead s n (getHsl s n).head && (getCh s n).inw &&
          !inhibited s n && loopMay s n (8 * n + (getHsl s n).head) 0) ∧
        (getAst t n).htr.en = (regB s (aAstCtl n) 2 && !(getAst s n).noRec && loopMay s n (8 * n + (getHsl s n).head) 1) ∧
        reg t (aAstDem n) % 65536 =
          demandCode (regF s (aAstFs n) 0 16) (cal16 s false (8 * n + (getHsl s n).head) 0x34) (getAst t n).ast ∧
        reg t (aAstDem n) / 65536 =
          demandCode (regF s (aAstFs n) 16 16) (cal16 s false (8 * n + (getHsl s n).head) 0x36) (getAst t n).htr ∧
        (cal8 s false (8 * n + (getHsl s n).head) 0 = 0 → reg t (aAstDem n) = 0 ∧ (getAst t n).ast.en = false ∧ (getAst t n).htr.en = false)) ∧
      t = { s with cal := t.cal, regs := t.regs } ∧ RegsKept tickRegs s t) ∧
    (∀ n : Fin 4, ∃ t, exec (.heaterRecordTimeout n) s = .next t ∧ (getAst t n).noRec = true ∧ (getAst t n).htr.en = false ∧
      (getAst t n).ast = (getAst s n).ast ∧ (∀ m, m ≠ n.val → getAst t m = getAst s m) ∧ t = { s with cal := t.cal }) ∧
    (∃ t, exec .tDUpdate s = .next t ∧ t.cal.td = (tempNow s).1 ∧ t.cal.tsrc = (tempNow s).2 ∧
      (regB s aCalCfg 8 = true → t.cal.td = sgn 16 (reg s aCalTempOvr) ∧ t.cal.tsrc = 1) ∧
      (regB s aCalCfg 8 = false → validReadings s = [] → t.cal.td = s.cal.td ∧ t.cal.tsrc = 2 ∧ t.cal.due = s.cal.due) ∧
      t = { s with cal := { s.cal with td := t.cal.td, tsrc := t.cal.tsrc, due := t.cal.due }, regs := t.regs, strata := t.strata } ∧
      RegsKept recordCounts s t) ∧
    (∀ (k : Fin 4) (raw : Option (BitVec 16)), regB s (aI3cCfg k) 0 = true → regB s aI3cCtl 0 = true →
      let v := sensorAfter (smGet (fun _ => {}) s.cal.sens k) (goodReading (regF s (aI3cCfg k) 24 4) raw)
      ∃ t, exec (.i3cSensorRead k raw) s = .next t ∧ smGet (fun _ => {}) t.cal.sens k = v ∧
        reg t (aI3cVal k) = unsgn 16 v.t + (if v.valid = true then 65536 else 0) ∧
        t.out = .i3cRead k (regF s (aI3cCfg k) 8 7) (regF s (aI3cCfg k) 16 8) :: s.out ∧
        (goodReading (regF s (aI3cCfg k) 24 4) raw = none → reg t aI3cErr = min (reg s aI3cErr + 1) 0xFFFFFFFF) ∧
        t = { s with cal := { s.cal with sens := t.cal.sens }, regs := t.regs, out := t.out } ∧ RegsKept [aI3cVal k, aI3cErr] s t) ∧
    (∀ (k : Fin 4) (raw : Option (BitVec 16)), regB s (aI3cCfg k) 0 = false ∨ regB s aI3cCtl 0 = false →
      exec (.i3cSensorRead k raw) s = .next s) ∧
    (∀ scl : Fin 16, scl.val ≤ 0xB → regB s aI3cCtl 0 = false → ∃ t, exec (.i3cEn true scl) s = .next t ∧
      t.out = (((List.range 4).filter fun k => regB s (aI3cCfg k) 0).map fun k =>
        Out.i3c k (regF s (aI3cCfg k) 1 7) (regF s (aI3cCfg k) 8 7)).reverse ++ s.out ∧
      regB t aI3cCtl 0 = true ∧ regF t aI3cCtl 4 4 = scl ∧ t = { s with out := t.out, regs := t.regs } ∧ RegsKept [aI3cCtl] s t) ∧
    (∀ scl : Fin 16, scl.val ≤ 0xB → ∃ t, exec (.i3cEn false scl) s = .next t ∧ regB t aI3cCtl 0 = false ∧
      t = { s with regs := t.regs } ∧ RegsKept [aI3cCtl] s t)

/-- Calibration blocks (R352, R357, R359, R360): a commit starts its check, or is refused with a record while one runs; a
block that is accepted is pending, one that breaks a rule is counted; at a boundary the two views exchange their blocks,
and but for a restore the active one's bookkeeping is set; a trip is cleared by its bit. -/
def Obligations.CalibrationBlocksAreExchanged : Prop :=
  ∀ (s : State) (h : Fin 32), Awake s →
    (∀ restore, s.cal.check = none → ∃ t, exec (.calCommit h restore) s = .next t ∧ t.cal.check = some (h.val, restore) ∧
      regB t aCalCommitStatus 0 = true ∧ t = { s with cal := { s.cal with check := t.cal.check }, regs := t.regs } ∧
      RegsKept [aCalCommit, aCalCommitStatus] s t) ∧
    (∀ restore, s.cal.check.isSome = true → ∃ t, exec (.calCommit h restore) s = .next t ∧
      t = { s with regs := t.regs, strata := t.strata } ∧ RegsKept recordCounts s t) ∧
    (∀ restore, s.cal.check = some (h.val, restore) →
      (commitResult s h restore = 0 → ∃ t, exec .commitCheckDone s = .next t ∧ bit t.cal.pending h = true ∧
        bit t.cal.restore h = restore ∧ t.cal.check = none ∧ reg t aCalCommitStatus = h * 65536 ∧
        t = { s with cal := { s.cal with check := none, pending := t.cal.pending, restore := t.cal.restore }, regs := t.regs } ∧
        RegsKept [aCalCommitStatus] s t) ∧
      (commitResult s h restore ≠ 0 → ∃ t, exec .commitCheckDone s = .next t ∧
        reg t aCalCommitStatus = commitResult s h restore * 256 + h * 65536 ∧
        reg t aCalReject = min (reg s aCalReject + 1) 0xFFFFFFFF ∧
        t = { s with cal := { s.cal with check := none }, regs := t.regs, strata := t.strata } ∧
        RegsKept (aCalCommitStatus :: aCalReject :: recordCounts) s t)) ∧
    (s.cal.check = none → exec .commitCheckDone s = .next s) ∧
    (∀ field, bit s.cal.pending h = true → writingHead s (h / 8) (h % 8) = false ∨ field = true →
      smWf (fun _ => (0 : Word)) s.cal.tab = true → ∃ t, exec (.calExchange h field) s = .next t ∧
        (∀ off, off < 0x1000 → calWord t true h off = calWord s false h off) ∧
        (∀ off, off < 0x1000 → bit s.cal.restore h = true ∨ off ∉ [8, 0xC, 0x10, 0x14, 0x18, 0x1C] →
          calWord t false h off = calWord s true h off) ∧
        (bit s.cal.restore h = false → calWord t false h 8 = min (calWord s false h 8 + 1) 0xFFFFFFFF ∧
          calWord t false h 0xC = unsgn 16 s.cal.td ∧ calWord t false h 0x10 = s.now % 2 ^ 32 ∧
          reg t aCalApplied = min (reg s aCalApplied + 1) 0xFFFFFFFF) ∧
        bit t.cal.pending h = false ∧ t.cal.generation = s.cal.generation + 1 ∧ reg t (aCalCount h) = calWord t false h 8 ∧
        t = { s with cal := t.cal, regs := t.regs, wide := t.wide, strata := t.strata } ∧
        RegsKept (aCalLastT h :: aCalCount h :: aCalApplied :: recordCounts) s t) ∧
    (∀ field, bit s.cal.pending h = false ∨ (writingHead s (h / 8) (h % 8) = true ∧ field = false) →
      exec (.calExchange h field) s = .next s) ∧
    (∀ ast htr, ∃ t, exec (.calTripClr h ast htr) s = .next t ∧
      bit (smGet (fun _ => 0) t.cal.trips h) 0 = (bit (smGet (fun _ => 0) s.cal.trips h) 0 && !ast) ∧
      bit (smGet (fun _ => 0) t.cal.trips h) 1 = (bit (smGet (fun _ => 0) s.cal.trips h) 1 && !htr) ∧
      (∀ g, g ≠ h.val → smGet (fun _ => 0) t.cal.trips g = smGet (fun _ => 0) s.cal.trips g) ∧
      t = { s with cal := t.cal, regs := t.regs, strata := t.strata } ∧ RegsKept recordCounts s t)

/-! ### Continuous capture and replay (R438–R448) -/

/-- Capture streams (R438, R439, R441, R447): enabling a stream starts it afresh; FIRE freezes every running stream after
its span, which then is frozen, with a record once all are; REARM lets it run again; a sync item goes to the BRANCH
stream for every sequencer. -/
def StreamsAreCapturedAndFrozen : Prop :=
  ∀ s : State, Awake s →
    (∀ (k : Fin 4) (acts : Fin 16), capEnabled s k = false → ∃ t, exec (.captureEnable k acts) s = .next t ∧
      capEnabled t k = true ∧ regF t (aCapCtl k) 4 4 = acts ∧ (getStream t k).frozen = false ∧
      (k.val ≠ 0 → wide t (aCapWrLo k) = 0 ∧ getStream t k = {} ∧ t = { s with cap := t.cap, regs := t.regs, wide := t.wide } ∧
        RegsKept [aCapCtl k] s t)) ∧
    (∀ k : Fin 4, (getStream s k).frozen = true → ∃ t, exec (.rearm k) s = .next t ∧ (getStream t k).frozen = false ∧
      (getStream t k).freezing = false ∧ (getStream t k).trigger = 0 ∧ capEnabled t k = capEnabled s k ∧
      t.cap.generation = s.cap.generation + 1) ∧
    (∃ t, exec .fire s = .next t ∧ (∀ k, k < 4 →
        (capEnabled s k = true → (getStream s k).frozen = false → (getStream s k).freezing = false →
          (getStream t k).freezing = true ∧ (getStream t k).left = postSpan s k ∧ (getStream t k).trigger = 128) ∧
        (capEnabled s k = false ∨ (getStream s k).frozen = true → getStream t k = getStream s k)) ∧
      t = { s with cap := t.cap, regs := t.regs, strata := t.strata } ∧ RegsKept recordCounts s t) ∧
    (∀ k : Fin 4, capEnabled s k = true → (getStream s k).freezing = true → (getStream s k).left = 0 →
      ∃ t, exec (.captureFrozen k) s = .next t ∧ (getStream t k).frozen = true ∧ (getStream t k).freezing = false ∧
        (∀ j, j ≠ k.val → getStream t j = getStream s j) ∧
        t = { s with cap := t.cap, regs := t.regs, strata := t.strata } ∧ RegsKept recordCounts s t ∧
        t.cap.freezes = (if (∀ j, j < 4 → j ≠ k.val → capEnabled s j = true → (getStream s j).frozen = true)
          then min (s.cap.freezes + 1) 0xFFFFFFFF else s.cap.freezes)) ∧
    (∀ k : Fin 4, capEnabled s k = false ∨ (getStream s k).freezing = false ∨ (getStream s k).left ≠ 0 →
      exec (.captureFrozen k) s = .next s) ∧
    (capEnabled s 2 = false ∨ capSize s 2 = 0 → exec .branchSyncItem s = .next s) ∧
    (capEnabled s 2 = true → capSize s 2 ≠ 0 → (getStream s 2).frozen = false → (getStream s 2).freezing = false →
      ∃ t, exec .branchSyncItem s = .next t ∧ wide t (aCapWrLo 2) = (wide s (aCapWrLo 2) + 8 * actCount s) % 2 ^ 64 ∧
        WidesKept [aCapWrLo 2] s t ∧ t.regs = s.regs ∧ t.jrn = s.jrn ∧ (MemInv s → MemInv t))

/-- Replay (R443, R444, R447): a lane replay takes up its first entry, and a servo replay its checkpoint, where the unit is
free and the input is whole; a unit in service makes it DONE with result 2 and an entry that is not of this layout with
result 3; a running one ends with its result, after no more output items than its wedges, and REPLAY_ACK makes a DONE one idle. -/
def ReplaysRunAndEnd : Prop :=
  ∀ s : State, Awake s →
    (∀ (n : Fin 4) (defer : Bool) (count : Fin 65536), s.cap.rplState = 0 → count.val ≠ 0 →
      (actPresent s n = false ∨ regB s (aChlCtl n) 0 = true → ∃ t, exec (.laneReplay n defer count) s = .next t ∧
        t.cap.rplState = 2 ∧ t.cap.rplResult = 2 ∧ t.cap.rpl = none ∧ t.mem = s.mem) ∧
      (actPresent s n = true → regB s (aChlCtl n) 0 = false → regB s (aWrCtl n) 0 = false → (getCh s n).busy = false →
        let off := reg s aRplSrc * 64
        (entryBad s off (dramBytes s off 0x240) = true → ∃ t, exec (.laneReplay n defer count) s = .next t ∧
          t.cap.rplState = 2 ∧ t.cap.rplResult = 3 ∧ t.mem = s.mem) ∧
        (entryBad s off (dramBytes s off 0x240) = false → poisoned s off 262144 = false → ∃ t, exec (.laneReplay n defer count) s = .next t ∧
          t.cap.rplState = 1 ∧ t.cap.rplKind = 1 ∧ t.cap.rplUnit = n ∧ t.cap.rplCount = count ∧ t.cap.rplDone = 0 ∧
          t.cap.rplDefer = defer ∧ t.cap.rpl = some (readEntry s off (dramBytes s off 0x240)) ∧ reg t aRplMismatch = 0 ∧
          t = { s with cap := t.cap, regs := t.regs } ∧ RegsKept [aRplCtl, aRplMismatch] s t))) ∧
    (∀ (x : Fin 2) (n : Fin 4) (count : Fin 65536), s.cap.rplState = 0 → count.val ≠ 0 →
      (actPresent s n = false ∨ servoIdle s x n = false → ∃ t, exec (.servoReplay x n count) s = .next t ∧
        t.cap.rplState = 2 ∧ t.cap.rplResult = 2 ∧ t.mem = s.mem) ∧
      (actPresent s n = true → servoIdle s x n = true → servoInput s x n = false → ∃ t, exec (.servoReplay x n count) s = .next t ∧
        t.cap.rplState = 2 ∧ t.cap.rplResult = 3 ∧ t.mem = s.mem) ∧
      (actPresent s n = true → servoIdle s x n = true → servoInput s x n = true → ∃ t, exec (.servoReplay x n count) s = .next t ∧
        t.cap.rplState = 1 ∧ t.cap.rplKind = 2 ∧ t.cap.rplUnit = n ∧ t.cap.rplIsl = x ∧ t.cap.rplCount = count ∧
        reg t aRplMismatch = 0 ∧ t = { s with cap := t.cap, regs := t.regs } ∧ RegsKept [aRplCtl, aRplMismatch] s t)) ∧
    (∀ (wedges k : Nat), s.cap.rplState = 1 → s.cap.rplKind = 1 → s.cap.rplDue = some k → ∃ t, exec (.replayDone wedges) s = .next t ∧
      t.cap.rplState = 2 ∧ t.cap.rplResult = k ∧ t.cap.rpl = none ∧ t = { s with cap := t.cap, regs := t.regs, strata := t.strata } ∧
      RegsKept recordCounts s t) ∧
    (∀ wedges : Nat, s.cap.rplState = 1 → s.cap.rplKind ≠ 1 → ∃ t, exec (.replayDone wedges) s = .next t ∧
      t.cap.rplState = 2 ∧ t.cap.rplResult ∈ [0, 1, 3, 4, 5] ∧
      t.cap.rplDone ≤ s.cap.rplDone + (if s.cap.rplStopped = true ∨ islHealthy s s.cap.rplIsl = false then min wedges s.cap.rplCount
        else s.cap.rplCount) ∧
      (s.cap.rplStopped = true → t.cap.rplResult ∈ [3, 4, 5]) ∧ t.jrn = s.jrn ∧ t.cmd = s.cmd ∧ (MemInv s → MemInv t)) ∧
    (∀ wedges : Nat, s.cap.rplState ≠ 1 → exec (.replayDone wedges) s = .next s) ∧
    (s.cap.rplState = 2 → exec .replayAck s = .next { s with cap := { s.cap with rplState := 0 } }) ∧
    (s.cap.rplState ≠ 2 → exec .replayAck s = .next s)

/-- Capture streams and replays (R438–R448). -/
def Obligations.CaptureAndReplay : Prop := StreamsAreCapturedAndFrozen ∧ ReplaysRunAndEnd

/-! ### The Strata recorder (R421–R437) -/

/-- Records (R421, R424–R430): firmware's record is queued with its source's next number, or counted as bad; the recorder
takes the front record to the ring, or in mirror mode to the mirror; the copy goes on with the oldest record not in the
mirror, and a read of it that is uncorrectable begins mirror mode (R436); a bucket with suppressed events reports them once it holds a token. -/
def RecordsAreNumberedQueuedAndCopied : Prop :=
  ∀ s : State, Awake s →
    (∀ (h : Fin 64) (v : Nat), bits v 0 12 < 0x800 ∨ bits v 16 6 % 2 = 1 ∨ 60 < bits v 16 6 → ∃ t, exec (.fwRecord h v) s = .next t ∧
      reg t (aStrataCount 5) = min (reg s (aStrataCount 5) + 1) 0xFFFFFFFF ∧ t = { s with regs := t.regs } ∧
      RegsKept [aStrataCount 5] s t) ∧
    (∀ (h : Fin 64) (v : Nat), 0x800 ≤ bits v 0 12 → bits v 16 6 % 2 = 0 → bits v 16 6 ≤ 60 →
      rateOf s (bits v 0 12) = 0 → (getBucket s (srcClu (h / 8)) (bits v 0 12)).suppressed = 0 →
      (s.strata.queue.filter fun r => r.src == srcClu (h / 8)).length < 8 → ∃ t, exec (.fwRecord h v) s = .next t ∧
        t.strata.queue = s.strata.queue ++ [Rec.mk (srcClu (h / 8)) (bits v 0 12) s.wall.epoch (nextSeq s (srcClu (h / 8)) % 2 ^ 32)
          s.now ((fwArgs s h (bits v 16 6)).map (· % 2 ^ 64))] ∧
        nextSeq t (srcClu (h / 8)) = nextSeq s (srcClu (h / 8)) + 1 ∧ t = { s with strata := t.strata }) ∧
    (∀ (h : Fin 64) (v : Nat), 0x800 ≤ bits v 0 12 → bits v 16 6 % 2 = 0 → bits v 16 6 ≤ 60 →
      rateOf s (bits v 0 12) ≠ 0 → bucketTokens s (srcClu (h / 8)) (bits v 0 12) < oneToken → ∃ t, exec (.fwRecord h v) s = .next t ∧
        t.strata.queue = s.strata.queue ∧ t.strata.seqs = s.strata.seqs ∧
        (getBucket t (srcClu (h / 8)) (bits v 0 12)).suppressed = (getBucket s (srcClu (h / 8)) (bits v 0 12)).suppressed + 1 ∧
        reg t (aStrataCount 1) = min (reg s (aStrataCount 1) + 1) 0xFFFFFFFF ∧ t = { s with strata := t.strata, regs := t.regs } ∧
        RegsKept [aStrataCount 1] s t) ∧
    (∀ (r : Rec) (q : List Rec), s.strata.queue = r :: q → s.strata.stopped = false → s.strata.onMirror = false → r.args.length ≤ 30 →
      ∃ t, exec .recorderTake s = .next t ∧ t.strata.queue = q ∧ t.strata.head = placeRec s.strata.head r.len + r.len ∧
        (placeRec s.strata.head r.len, r) ∈ t.strata.ring ∧ t = { s with strata := t.strata, regs := t.regs } ∧
        RegsKept [aStrataCount 2] s t) ∧
    (∀ (r : Rec) (q : List Rec), s.strata.queue = r :: q → s.strata.stopped = false → s.strata.onMirror = true →
      s.strata.mirrorRun = true → r.args.length ≤ 30 → ∃ t, exec .recorderTake s = .next t ∧ t.strata.queue = q ∧
        t.mirror.mhead = placeRec s.mirror.mhead r.len + r.len ∧ (placeRec s.mirror.mhead r.len, r) ∈ t.mirror.ring ∧
        t = { s with strata := t.strata, mirror := t.mirror }) ∧
    (s.strata.stopped = true ∨ s.strata.queue = [] → exec .recorderTake s = .next s) ∧
    (∀ (p : Nat) (r : Rec), nextUncopied s = some (p, r) → s.strata.mirrorRun = true → s.strata.onMirror = false → s.strata.stopped = false →
      r.args.length ≤ 30 →
      (∃ t, exec (.mirrorCopy .good) s = .next t ∧ t.strata.copied = p + r.len ∧
        t.mirror.mhead = s.strata.mbase + p + r.len ∧ (s.strata.mbase + p, r) ∈ t.mirror.ring ∧
        t = { s with strata := { s.strata with copied := t.strata.copied }, mirror := { s.mirror with mhead := t.mirror.mhead, ring := t.mirror.ring } }) ∧
      (∃ t, exec (.mirrorCopy .corrected) s = .next t ∧ t.strata.copied = p + r.len ∧
        reg t (aStrataCount 3) = min (reg s (aStrataCount 3) + 1) 0xFFFFFFFF ∧ RegsKept [aStrataCount 3] s t ∧
        t = { s with regs := t.regs, strata := { s.strata with copied := t.strata.copied }, mirror := { s.mirror with mhead := t.mirror.mhead, ring := t.mirror.ring } }) ∧
      (s.host.ctrls = [] → ∃ t f q, exec (.mirrorCopy .uncorrectable) s = .next t ∧ t.strata.onMirror = true ∧
        t.strata.copied = s.strata.copied ∧ t.strata.queue = f :: q ∧ f.code = 0xC1 ∧ f.args.head? = some (p % sramSize) ∧
        faultPresent t 0x44 0 = true ∧ t.mirror = s.mirror ∧ t = { s with strata := t.strata, red := t.red, regs := t.regs })) ∧
    (∀ err, s.strata.mirrorRun = false ∨ nextUncopied s = none → exec (.mirrorCopy err) s = .next s) ∧
    (∀ (src : Fin 64) (code : Fin 4096), (getBucket s src code).suppressed ≠ 0 →
      (oneToken ≤ bucketTokens s src code ∨ rateOf s code = 0 →
        (s.strata.queue.filter fun r => r.src == src.val).length < 8 → ∃ t, exec (.suppressed src code) s = .next t ∧
          (getBucket t src code).suppressed = 0 ∧ nextSeq t src = nextSeq s src + 1 ∧
          t.strata.queue = s.strata.queue ++ [Rec.mk src 0xC0 s.wall.epoch (nextSeq s src % 2 ^ 32) s.now
            [code % 2 ^ 64, (getBucket s src code).suppressed % 2 ^ 64, (getBucket s src code).firstTb % 2 ^ 64]] ∧
          t = { s with strata := t.strata }) ∧
      (bucketTokens s src code < oneToken → rateOf s code ≠ 0 → exec (.suppressed src code) s = .next s))

/-- The registers of a snapshot. -/
abbrev snapRegs : List Nat := aSnapHeadLo :: aSnapHeadHi :: (List.range 64).map aSnapSeq

/-- Snapshots, the wall clock and the recorder's memory (R432, R434, R436, R437): SNAP shows the ring's head and every
source's last number, WSET opens a new epoch at the value given; an uncorrectable error moves the recorder to the
mirror, with its record first and its fault present, and a retest that passes brings it back. -/
def SnapshotsWallClockAndMirrorMode : Prop :=
  ∀ s : State, Awake s →
    (∃ t, exec .snap s = .next t ∧ reg t aSnapHeadLo = s.strata.head % 2 ^ 32 ∧ reg t aSnapHeadHi = s.strata.head / 2 ^ 32 % 2 ^ 32 ∧
      (∀ k, k < 64 → reg t (aSnapSeq k) = (if nextSeq s k = 0 then 2 ^ 32 - 1 else (nextSeq s k - 1) % 2 ^ 32)) ∧
      t = { s with regs := t.regs } ∧ RegsKept snapRegs s t) ∧
    (∃ t, exec .wset s = .next t ∧ wallNow t = reg s aWallNewLo + reg s aWallNewHi * 2 ^ 32 ∧ t.wall.valid = true ∧
      t.wall.epoch = (s.mirror.epoch + 1) % 256 ∧ t.mirror.epoch = t.wall.epoch ∧
      t = { s with wall := t.wall, mirror := t.mirror, strata := t.strata, regs := t.regs } ∧ RegsKept recordCounts s t) ∧
    (∀ corrected, s.strata.onMirror = false → ∃ t, exec (.sramScrub corrected none) s = .next t ∧
      reg t (aStrataCount 3) = min (reg s (aStrataCount 3) + corrected) 0xFFFFFFFF ∧ t = { s with regs := t.regs } ∧
      RegsKept [aStrataCount 3] s t) ∧
    (∀ (corrected : Nat) (off : Fin 4194304), s.strata.onMirror = false → s.host.ctrls = [] →
      ∃ t r q, exec (.sramScrub corrected (some off)) s = .next t ∧ t.strata.onMirror = true ∧ t.strata.queue = r :: q ∧
        r.src = srcStrata ∧ r.code = 0xC1 ∧ r.args.head? = some off.val ∧ faultPresent t 0x44 0 = true ∧
        reg t (aStrataCount 4) = min (reg s (aStrataCount 4) + 1) 0xFFFFFFFF ∧
        t = { s with strata := t.strata, red := t.red, regs := t.regs }) ∧
    (∀ corrected bad, s.strata.onMirror = true → exec (.sramScrub corrected bad) s = .next s) ∧
    (s.strata.onMirror = true → ∃ t, exec .retestStrata s = .next t ∧ t.strata.retest = true ∧
      t = { s with strata := { s.strata with retest := true }, regs := t.regs } ∧ RegsKept [] s t) ∧
    (s.strata.onMirror = false → ∃ t, exec .retestStrata s = .next t ∧ t = { s with regs := t.regs } ∧ RegsKept [] s t) ∧
    (s.strata.retest = true → exec (.retestStrataDone false) s = .next { s with strata := { s.strata with retest := false } }) ∧
    (s.strata.retest = true → s.host.ctrls = [] → ∃ t r q, exec (.retestStrataDone true) s = .next t ∧ t.strata.onMirror = false ∧
      t.strata.retest = false ∧ t.strata.ring = [] ∧ t.strata.head = up64k s.mirror.mhead ∧ t.strata.queue = r :: q ∧
      r.src = srcStrata ∧ r.code = 0xC2 ∧ faultPresent t 0x44 0 = false ∧
      t = { s with strata := t.strata, red := t.red, regs := t.regs }) ∧
    (∀ pass, s.strata.retest = false → exec (.retestStrataDone pass) s = .next s)

/-- The Strata recorder (R421–R437). -/
def Obligations.StrataRecordsAndModes : Prop := RecordsAreNumberedQueuedAndCopied ∧ SnapshotsWallClockAndMirrorMode

/-! ### Microwords (R367–R397) -/

/-- The word stands at the sequencer's address, is good, waits for nothing, and goes on to an address that holds a word. -/
abbrev Runs (n : Fin 4) (op : Nat) (w : MWord) (s : State) : Prop :=
  actPresent s n = true ∧ regB s (aSeqCtl n) 0 = true ∧ wordAt s n (wordBits op w) = true ∧ w.err = .good ∧
  wordGood (wordBits op w) = true ∧ w.wait = 0 ∧ addrGood s n w.next = true

/-- The sequencer has gone to an address, and no other has changed. -/
def WentTo (n : Fin 4) (a : Nat) (s t : State) : Prop :=
  (getSq t n).pc = a ∧ (getSq t n).waiting = false ∧ (∀ m, m ≠ n.val → getSq t m = getSq s m)

/-- Register Gd alone has a new value, and nothing but the sequencer has changed; its flags, stack, timers and latches
are as they were. -/
def WritesG (n : Fin 4) (w : MWord) (v : Nat) (s t : State) : Prop :=
  WentTo n w.next s t ∧ (∀ k, getG t n k = if k = opGd w then v % 2 ^ 32 else getG s n k) ∧
  getSq t n = { getSq s n with pc := w.next, waiting := false, g := (getSq t n).g } ∧ t = { s with seq := t.seq }

/-- As `WritesG`, with Z and LT those of the result. -/
def WritesGAndFlags (n : Fin 4) (w : MWord) (v : Nat) (s t : State) : Prop :=
  WentTo n w.next s t ∧ (∀ k, getG t n k = if k = opGd w then v % 2 ^ 32 else getG s n k) ∧
  getSq t n = { getSq s n with
    pc := w.next
    waiting := false
    g := (getSq t n).g
    z := decide (v % 2 ^ 32 = 0)
    lt := decide (2 ^ 31 ≤ v % 2 ^ 32) } ∧ t = { s with seq := t.seq }

/-- Only Z and LT have changed, and the address. -/
def Compares (n : Fin 4) (w : MWord) (a b : Nat) (s t : State) : Prop :=
  getSq t n = { getSq s n with
    pc := w.next
    waiting := false
    z := decide (a = b)
    lt := decide (sgn 32 a < sgn 32 b) } ∧
  (∀ m, m ≠ n.val → getSq t m = getSq s m) ∧ t = { s with seq := t.seq }

/-- The plain microwords (R379, R380, R383): loads, moves, sums, logic and comparisons put their result in Gd with its
flags, LDF reads a field of the descriptor, TMR starts or stops a timer and clears its latch, CLR clears a latch, SETSECT
sets the layout pointer, SLOT reads the slot map, and NOP only goes on. -/
def Obligations.PlainMicrowordsCompute : Prop :=
  ∀ (s : State) (n : Fin 4) (w : MWord), Awake s → Quiet s →
    (Runs n 0x00 w s → ∃ t, exec (.mwNop n w) s = .next t ∧ WentTo n w.next s t ∧
      getSq t n = { getSq s n with pc := w.next, waiting := false } ∧ t = { s with seq := t.seq }) ∧
    (Runs n 0x01 w s → ∃ t, exec (.mwLdi n w) s = .next t ∧ WritesG n w (bits w.opd 0 17) s t) ∧
    (Runs n 0x02 w s → ∃ t, exec (.mwLdhi n w) s = .next t ∧
      WritesG n w (bits w.opd 0 16 * 65536 + getG s n (opGd w) % 65536) s t) ∧
    (Runs n 0x03 w s → ∃ t, exec (.mwMov n w) s = .next t ∧ WritesG n w (getG s n (opGa w)) s t) ∧
    (Runs n 0x04 w s → ∃ t, exec (.mwAddi n w) s = .next t ∧ WritesGAndFlags n w (getG s n (opGa w) + opImm w) s t) ∧
    (Runs n 0x05 w s → ∃ t, exec (.mwAdd n w) s = .next t ∧ WritesGAndFlags n w (getG s n (opGa w) + getG s n (opGb w)) s t) ∧
    (Runs n 0x06 w s → ∃ t, exec (.mwSub n w) s = .next t ∧
      WritesGAndFlags n w (getG s n (opGa w) + 2 ^ 32 - getG s n (opGb w)) s t) ∧
    (Runs n 0x07 w s → ∃ t, exec (.mwAnd n w) s = .next t ∧ WritesGAndFlags n w (getG s n (opGa w) &&& getG s n (opGb w)) s t) ∧
    (Runs n 0x08 w s → ∃ t, exec (.mwOr n w) s = .next t ∧ WritesGAndFlags n w (getG s n (opGa w) ||| getG s n (opGb w)) s t) ∧
    (Runs n 0x09 w s → ∃ t, exec (.mwCmp n w) s = .next t ∧ Compares n w (getG s n (opGa w)) (getG s n (opGb w)) s t) ∧
    (Runs n 0x0A w s → ∃ t, exec (.mwCmpi n w) s = .next t ∧ Compares n w (getG s n (opGa w)) (opImm w) s t) ∧
    (Runs n 0x0F w s → ∃ t, exec (.mwLdf n w) s = .next t ∧ WritesG n w (ldfField (getCh s n).dsc (bits w.opd 0 8)) s t) ∧
    (Runs n 0x10 w s → ∃ t, exec (.mwTmr n w) s = .next t ∧ WentTo n w.next s t ∧ t = { s with seq := t.seq } ∧
      (bit w.opd 20 = true → (getSq t n).t0 = (getSq s n).t0 ∧ 0x0E ∉ (getSq t n).latch ∧
        (bits w.opd 0 17 = 0 → (getSq t n).t1 = none) ∧
        (bits w.opd 0 17 ≠ 0 → ∃ x, (getSq t n).t1 = some x ∧ x.left = bits w.opd 0 17 ∧ x.wedges = bit w.opd 19 ∧ x.from_ = s.now)) ∧
      (bit w.opd 20 = false → (getSq t n).t1 = (getSq s n).t1 ∧ 0x0D ∉ (getSq t n).latch ∧
        (bits w.opd 0 17 = 0 → (getSq t n).t0 = none) ∧
        (bits w.opd 0 17 ≠ 0 → ∃ x, (getSq t n).t0 = some x ∧ x.left = bits w.opd 0 17 ∧ x.wedges = bit w.opd 19 ∧ x.from_ = s.now))) ∧
    (Runs n 0x11 w s → ∃ t, exec (.mwClr n w) s = .next t ∧ WentTo n w.next s t ∧
      getSq t n = { getSq s n with
        pc := w.next
        waiting := false
        latch := (getSq s n).latch.filter (fun c => c != w.cond.val) } ∧ t = { s with seq := t.seq }) ∧
    (Runs n 0x19 w s → ∃ t, exec (.mwSetsect n w) s = .next t ∧ WentTo n w.next s t ∧
      (getSq t n).ptr = dFirst (getCh s n).dsc + getG s n (opGa w) ∧ t = { s with seq := t.seq }) ∧
    (Runs n 0x18 w s → ((getSq s n).inOp = false ∨ (getCh s n).write = true) → ∃ t, exec (.mwSlot n w) s = .next t ∧
      WritesG n w (getW (getCh s n) (getG s n (opGa w))).st s t)

/-- A microcode fault outside an operation with ROM only (R386, R387): counted, and execution resumes at 0. -/
def Faulted (n : Fin 4) (s t : State) : Prop :=
  WentTo n 0 s t ∧ reg t (aSeqCount n 3) = min (reg s (aSeqCount n 3) + 1) 0xFFFFFFFF ∧
  t = { s with seq := t.seq, regs := t.regs, strata := t.strata } ∧ RegsKept (aSeqCount n 3 :: recordCounts) s t

/-- Control flow, waits and faults (R378, R379, R381, R382, R386–R388): branches go to their target as their condition
says, CALL and RET keep a stack of four; a wait whose condition does not hold holds the word, and one that it satisfies
clears the event; a corrected word is counted, an uncorrectable one and a reserved one are microcode faults. -/
def Obligations.MicrowordsBranchAndWait : Prop :=
  ∀ (s : State) (n : Fin 4) (w : MWord), Awake s → Quiet s → capEnabled s 2 = false →
    (∀ i op taken, (i, op, taken) ∈ [(Instr.mwBrt n w, 0x0B, condTrue s n w.cond), (.mwBrf n w, 0x0C, !condTrue s n w.cond)] →
      Runs n op w s → addrGood s n (opTarget w) = true → ∃ t, exec i s = .next t ∧
        WentTo n (if taken then opTarget w else w.next) s t ∧
        getSq t n = { getSq s n with pc := (getSq t n).pc, waiting := false } ∧ t = { s with seq := t.seq }) ∧
    (Runs n 0x0D w s → addrGood s n (opTarget w) = true → (getSq s n).stack.length < 4 → ∃ t, exec (.mwCall n w) s = .next t ∧
      WentTo n (opTarget w) s t ∧ (getSq t n).stack = w.next.val :: (getSq s n).stack ∧ t = { s with seq := t.seq }) ∧
    (Runs n 0x0D w s → 4 ≤ (getSq s n).stack.length → (getSq s n).inOp = false → (getSq s n).active = 0 →
      ∃ t, exec (.mwCall n w) s = .next t ∧ Faulted n s t) ∧
    (∀ a rest, Runs n 0x0E w s → (getSq s n).stack = a :: rest → addrGood s n a = true → ∃ t, exec (.mwRet n w) s = .next t ∧
      WentTo n a s t ∧ (getSq t n).stack = rest ∧ t = { s with seq := t.seq }) ∧
    (Runs n 0x0E w s → (getSq s n).stack = [] → (getSq s n).inOp = false → (getSq s n).active = 0 →
      ∃ t, exec (.mwRet n w) s = .next t ∧ Faulted n s t) ∧
    (actPresent s n = true → regB s (aSeqCtl n) 0 = true → wordAt s n (wordBits 0 w) = true → wordGood (wordBits 0 w) = true →
      addrGood s n w.next = true →
      (w.err = .good → w.wait = 1 → condTrue s n w.cond = false → ∃ t, exec (.mwNop n w) s = .next t ∧
        getSq t n = { getSq s n with waiting := true, wcond := w.cond.val } ∧ t = { s with seq := t.seq }) ∧
      (w.err = .good → w.wait = 1 → condTrue s n w.cond = true → ∃ t, exec (.mwNop n w) s = .next t ∧ WentTo n w.next s t ∧
        (isEvent w.cond = true → w.cond.val ∉ (getSq t n).latch) ∧ t = { s with seq := t.seq }) ∧
      (w.err = .good → w.wait = 2 → condTrue s n w.cond = false → ∃ t, exec (.mwNop n w) s = .next t ∧ WentTo n w.next s t ∧
        t = { s with seq := t.seq }) ∧
      (w.err = .good → w.wait = 2 → condTrue s n w.cond = true → ∃ t, exec (.mwNop n w) s = .next t ∧
        (getSq t n).pc = (getSq s n).pc ∧ (getSq t n).waiting = true ∧ t = { s with seq := t.seq }) ∧
      (w.err = .good → w.wait = 3 → condTrue s n w.cond = false → condTrue s n 0x0D = true → ∃ t, exec (.mwNop n w) s = .next t ∧
        WentTo n w.next s t ∧ 0x0D ∉ (getSq t n).latch ∧ t = { s with seq := t.seq }) ∧
      (w.err = .corrected → w.wait = 0 → ∃ t, exec (.mwNop n w) s = .next t ∧ WentTo n w.next s t ∧
        reg t (aSeqCount n 5) = min (reg s (aSeqCount n 5) + 1) 0xFFFFFFFF ∧ t = { s with seq := t.seq, regs := t.regs } ∧
        RegsKept [aSeqCount n 5] s t)) ∧
    (actPresent s n = true → regB s (aSeqCtl n) 0 = true → wordAt s n (wordBits 0 w) = true → (getSq s n).inOp = false →
      (getSq s n).active = 0 → (w.err = .uncorrectable ∨ (w.err = .good ∧ wordGood (wordBits 0 w) = false)) →
      ∃ t, exec (.mwNop n w) s = .next t ∧ Faulted n s t) ∧
    (regB s (aSeqCtl n) 0 = false → exec (.mwNop n w) s = .next s)

/-- The track operations' microwords (R125, R252, R268, R289, R292, R368–R376, R385): SELHD requests a head, but no absent or
faulty one; LDSECT loads the layout entry at the pointer; ARMF hands the next fragment, and with the first the sector, to the
lane, which abandons one beyond RA_MAX at once; POPRES takes a result to
Gd and to the result array; REV and RDBACK begin their revolutions; SIGNAL makes a record; DONE ends the operation; FETCH
waits for a descriptor, rejects one that fails a check, and accepts one that passes before its handler runs. -/
def Obligations.TrackOperationsAreFetchedAndRun : Prop :=
  ∀ (s : State) (n : Fin 4) (w : MWord), Awake s → Quiet s →
    (Runs n 0x12 w s → (getHsl s n).writeEn = false → headBad s n (getG s n (opGa w) % 8) = true → ∃ t,
      exec (.mwSelhd n w) s = .next t ∧ WentTo n w.next s t ∧ (getSq t n).head = (getSq s n).head ∧ t = { s with seq := t.seq }) ∧
    (Runs n 0x12 w s → (getHsl s n).writeEn = false → headBad s n (getG s n (opGa w) % 8) = false → ∃ t, exec (.mwSelhd n w) s = .next t ∧ WentTo n w.next s t ∧
      (getHsl t n).head = getG s n (opGa w) % 8 ∧ (getSq t n).head = getG s n (opGa w) % 8 ∧ t = { s with seq := t.seq, hsl := t.hsl }) ∧
    (Runs n 0x13 w s → (getSq s n).inOp = true → (getSq s n).ptr < dFirst (getCh s n).dsc + dCount (getCh s n).dsc →
      let a := dLayout (getCh s n).dsc + 32 * (getSq s n).ptr
      poisoned s a 32 = false → layoutGood (dramBytes s a 32) (fieldN (getCh s n).pset 1 1 == 1) = true →
      ∃ t, exec (.mwLdsect n w) s = .next t ∧ WentTo n w.next s t ∧ (getSq t n).ptr = (getSq s n).ptr + 1 ∧
        (getSq t n).loaded = some (loadSector s n (getSq s n).ptr (dramBytes s a 32)) ∧ t = { s with seq := t.seq }) ∧
    (∀ x, Runs n 0x14 w s → (getSq s n).inOp = true → (getSq s n).loaded = some x → x.armed < x.frags.length →
      (getCh s n).arm.length < 4 → (getCh s n).write = false → rereadSpent s x = false → beyondReach s n x = false → ∃ t, exec (.mwArmf n w) s = .next t ∧
        WentTo n w.next s t ∧ (getCh t n).arm = (getCh s n).arm ++ [(x.slot, x.armed)] ∧
        (getSq t n).loaded = some { x with armed := x.armed + 1 } ∧
        (x.armed = 0 → (getCh t n).sectors = (getCh s n).sectors ++ [{ x with res := 0, posted := false, rb := false }]) ∧
        (x.armed ≠ 0 → (getCh t n).sectors = (getCh s n).sectors) ∧ t = { s with seq := t.seq, chan := t.chan }) ∧
    (∀ x, Runs n 0x14 w s → (getSq s n).inOp = true → (getSq s n).loaded = some x → x.armed = 0 → x.frags ≠ [] →
      (getCh s n).arm.length < 4 → (getCh s n).write = false → beyondReach s n x = true → (getCh s n).results.length < 64 →
      ∃ t, exec (.mwArmf n w) s = .next t ∧ WentTo n w.next s t ∧ (getCh t n).aband = (getCh s n).aband + 1 ∧
        (getCh t n).results = (getCh s n).results ++ [x.slot % 2048 + 5 * 65536 + 4095 * 2 ^ 20] ∧
        reg t (aChl n 12) = min (reg s (aChl n 12) + 1) 0xFFFFFFFF ∧ t = { s with seq := t.seq, chan := t.chan, regs := t.regs } ∧
        RegsKept [aChl n 12] s t) ∧
    (∀ v rest, Runs n 0x15 w s → (getCh s n).write = false → (getCh s n).results = v :: rest →
      dRes (getCh s n).dsc + 4 * (v % 2048) + 4 ≤ dramUsable s → ∃ t, exec (.mwPopres n w) s = .next t ∧ WentTo n w.next s t ∧
        (getCh t n).results = rest ∧ (∀ k, getG t n k = if k = opGd w then v % 2 ^ 32 else getG s n k) ∧
        dramNat t (dRes (getCh s n).dsc + 4 * (v % 2048)) 4 = v % 2 ^ 32 ∧
        MemKeptBut (dramBase + dRes (getCh s n).dsc + 4 * (v % 2048)) 4 s t ∧ (MemInv s → MemInv t) ∧
        t = { s with seq := t.seq, chan := t.chan, mem := t.mem, bad := t.bad }) ∧
    (Runs n 0x16 w s → (getSq s n).inOp = true → (getCh s n).write = true → (getCh s n).revs < wsRevMax (getCh s n).wset →
      (∀ i, i < dCount (getCh s n).dsc → (getW (getCh s n) i).recopy = false) → ∃ t, exec (.mwRev n w) s = .next t ∧
        WentTo n w.next s t ∧ (getCh t n).revs = (getCh s n).revs + 1 ∧ (getCh t n).slots = (getCh s n).slots ∧
        t = { s with seq := t.seq, chan := t.chan }) ∧
    (Runs n 0x16 w s → (getSq s n).inOp = true → (getCh s n).write = true → wsRevMax (getCh s n).wset ≤ (getCh s n).revs →
      ∃ t, exec (.mwRev n w) s = .next t ∧ (getCh t n).revs = (getCh s n).revs ∧ t.mem = s.mem ∧
        (∀ i, i < dCount (getCh s n).dsc → (getW (getCh t n) i).st =
          if (getW (getCh s n) i).isOpen = true then 4 else (getW (getCh s n) i).st)) ∧
    (Runs n 0x17 w s → (getSq s n).inOp = true → (getCh s n).write = true → (getCh s n).rdback = false →
      ∃ t, exec (.mwRdback n w) s = .next t ∧ WentTo n w.next s t ∧ (getCh t n).rdback = true ∧ (getCh t n).revs = (getCh s n).revs + 1 ∧
        reg t (aWr n 7) = min (reg s (aWr n 7) + 1) 0xFFFFFFFF ∧ t = { s with seq := t.seq, chan := t.chan, regs := t.regs } ∧
        RegsKept [aWr n 7] s t) ∧
    (Runs n 0x1A w s → ∃ t, exec (.mwSignal n w) s = .next t ∧ WentTo n w.next s t ∧
      t = { s with seq := t.seq, strata := t.strata, regs := t.regs } ∧ RegsKept recordCounts s t) ∧
    (Runs n 0x1B w s → (getSq s n).inOp = true → (getCh s n).write = false → (getCh s n).sectors = [] → s.chan.jobs = [] →
      ∃ t, exec (.mwDone n w) s = .next t ∧ WentTo n w.next s t ∧ (getSq t n).inOp = false ∧ (getCh t n).busy = false ∧
        (getSched t n).running = [] ∧ reg t (aSeqCount n 0) = min (reg s (aSeqCount n 0) + 1) 0xFFFFFFFF ∧
        regB t (aSeqCtl n) 1 = false) ∧
    (Runs n 0x1C w s → (getSq s n).inOp = false →
      (opAvail s n = false → ∃ t, exec (.mwFetch n w) s = .next t ∧
        getSq t n = { getSq s n with waiting := true, wcond := w.cond.val } ∧ t = { s with seq := t.seq }) ∧
      (opAvail s n = true →
        let i := regF s (aSeqOpqIdx n) 16 8
        let a := reg s (aSeqOpqBase n) * 4096 + 128 * i
        let d := dramBytes s a 128
        (poisoned s a 128 = true ∨ descGood s n d = false → ∃ t, exec (.mwFetch n w) s = .next t ∧ (getSq t n).waiting = true ∧
          (getSq t n).inOp = false ∧ regF t (aSeqOpqIdx n) 16 8 = (i + 1) % ringSize s n % 256 ∧
          reg t (aSeqCount n 2) = min (reg s (aSeqCount n 2) + 1) 0xFFFFFFFF ∧ t.chan = s.chan ∧ (MemInv s → MemInv t)) ∧
        (poisoned s a 128 = false → descGood s n d = true → dFlag d 4 = false → regB s (aChlCtl n) 0 = true → capEnabled s 2 = false →
          psetGood (regBytes s (aPset (dPset d)) 48) = true → addrGood s n ((opTarget w + dKind d) % 8192) = true →
          ∃ t, exec (.mwFetch n w) s = .next t ∧ WentTo n ((opTarget w + dKind d) % 8192) s t ∧ (getSq t n).inOp = true ∧
            (getSq t n).ptr = dFirst d ∧ (getCh t n).busy = true ∧ (getCh t n).write = false ∧ (getCh t n).dsc = d ∧
            (getCh t n).sectors = [] ∧ (getHsl t n).head = dHead d ∧ (getSq t n).head = dHead d ∧
            regF t (aSeqOpqIdx n) 16 8 = (i + 1) % ringSize s n % 256 ∧ t.mem = s.mem ∧ t.jrn = s.jrn)))

/-- R387: a patch bank whose microcode faults the fourth time within 1 s is left at once for ROM only, at the boundary of
the forced end; SEQ_BANK_SEL reads 0 and a record of it is made. The fourth fault is shown by a word that the control
store's code cannot correct. -/
def Obligations.PatchBanksFallBackToRom : Prop :=
  ∀ (s : State) (n : Fin 4) (w : MWord), Awake s → Quiet s → actPresent s n = true → regB s (aSeqCtl n) 0 = true →
    wordAt s n (wordBits 0 w) = true → w.err = .uncorrectable → (getSq s n).active ≠ 0 →
    3 ≤ ((getSq s n).faultAt.filter fun a => decide (s.now - a < 1000000000)).length →
    rateOf s 0x142 = 0 → (s.strata.queue.filter fun r => r.src == srcSeq n).length ≤ 2 →
    ∃ t, exec (.mwNop n w) s = .next t ∧ (getSq t n).active = 0 ∧ viewReg t (aSeqBankSel n) = 0 ∧ (getSq t n).pc = 0 ∧
      (getSq t n).inOp = false ∧ (getSq t n).stack = [] ∧ ∃ r ∈ t.strata.queue, r.src = srcSeq n ∧ r.code = 0x142

/-! ### The Basalt islands and the Tandem link (R301–R339) -/

/-- What a write to BAS_ACTn_CMD arms (R317): the mode, the bank, the targets as they stand, and the wedge at which it
falls due. An apply wedge that is not 1 to 64 wedges ahead falls due at the next wedge and is late. -/
def Arms (x : Fin 2) (n : Fin 4) (mode : Nat) (bank now : Bool) (apply : Fin 1024) (s t : State) : Prop :=
  let ahead := ((apply.val : Int) - (getAct s x n).wedge) % basWedges s x
  ∃ k : ActCmd, getAct t x n = { getAct s x n with armed := some k } ∧ k.mode = mode ∧ k.bank = bnat bank ∧
    k.tgt = reg s (aBasTgt x n) ∧ k.ofs = reg s (aBasOfs x n) ∧ k.man = reg s (aBasMan x n) ∧
    (now = true → k.due = none ∧ k.late = false) ∧
    (now = false → 1 ≤ ahead → ahead ≤ 64 → k.due = some (apply % basWedges s x) ∧ k.late = false) ∧
    (now = false → ahead < 1 ∨ 64 < ahead → k.due = none ∧ k.late = true) ∧
    t = { s with regs := t.regs, bas := t.bas } ∧ RegsKept [aBasCmd x n] s t ∧
    (∀ m, m ≠ n.val → getAct t x m = getAct s x m) ∧ getBas t (1 - x.val) = getBas s (1 - x.val)

/-- The three commands of an actuator are armed by an island that is not held in block reset, for an actuator of the
variant; otherwise the write does nothing (R2, R317, R400). -/
def Obligations.ServoCommandsAreArmed : Prop :=
  ∀ (s : State) (x : Fin 2) (n : Fin 4) (bank now : Bool) (apply : Fin 1024), Awake s →
    (islHeld s x = false → actPresent s n = true →
      (∃ t, exec (.parkedCommand x n bank now apply) s = .next t ∧ Arms x n 0 bank now apply s t) ∧
      (∃ t, exec (.manualCommand x n bank now apply) s = .next t ∧ Arms x n 1 bank now apply s t) ∧
      (∃ t, exec (.seekCommand x n bank now apply) s = .next t ∧ Arms x n 2 bank now apply s t)) ∧
    (islHeld s x = true ∨ actPresent s n = false →
      exec (.parkedCommand x n bank now apply) s = .next s ∧ exec (.manualCommand x n bank now apply) s = .next s ∧
      exec (.seekCommand x n bank now apply) s = .next s)

/-- The output frame of an actuator sent (R326, R330, R339): the frame the island holds is the one made of its loop's
state, and it is on the island's lane when the island is HEALTHY and the lane enabled. -/
def SentFrame (x : Fin 2) (n : Fin 4) (coast : Bool) (s t : State) : Prop :=
  (getAct t x n).frame = frameBytes x n (getAct t x n) coast ∧ (getAct t x n).lateRun = 0 ∧
  (islHealthy s x = true → regB s (aTdmCtl) x = true →
    t.tdm.wire = s.tdm.wire ++ [(x.val, (getAct t x n).frame ++ leBytes 2 (crc16 (getAct t x n).frame).toNat)] ∧
    wide t (aTdmFramesLo x) = min (wide s (aTdmFramesLo x) + 1) (2 ^ 64 - 1)) ∧
  (islHealthy s x = false ∨ regB s (aTdmCtl) x = false → t.tdm = s.tdm ∧ t.wide = s.wide)

/-- What an island that has failed looks like (R400, R401, R406): FAILED, or LOCKED_OUT, with its cause present, its
sequencers of state cleared. -/
def IslandFailed (x code : Nat) (t : State) : Prop :=
  ((getIsl t x).st = 2 ∨ (getIsl t x).st = 5) ∧ (getIsl t x).code = code ∧ faultPresent t code x = true ∧ getBas t x = {}

/-- An actuator's streams in an island, as a wedge whose observation is `o` leaves them. -/
abbrev rxAfter (s : State) (x : Fin 2) (n : Fin 4) (d : Demod) : Rx :=
  rxNext d.found (samsSeen (servoOf s x n (headEntry s x n)) (getAct s x n) (getRx s x n)) (getRx s x n)

/-- The wedge computation (R304–R308, R324, R326, R334), on what the island makes of the samples it has: a wedge that an island in
service of a LOCKED actuator has found
takes the number it carries, any other the next in order; a wedge without a position coasts and is counted; the frame
goes out. An uncorrectable coefficient word fails the island. A PARKED actuator, and one the island does not serve, searches nothing; a HUNTING actuator in MANUAL that finds
nothing stays HUNTING. A late computation sends nothing yet, and its cutoff sends the MISSED frame. -/
def WedgesAreComputedAndSent : Prop :=
  ∀ (s : State) (x : Fin 2) (n : Fin 4), Awake s → Quiet s →
    (∀ (samTime : Nat) (late : Bool) (err : MemErr), serves s x n = false ∨ (getAct s x n).mode = mParked →
      exec (.wedgeComputation x n samTime late err) s = .next s) ∧
    (∀ (samTime : Nat) (o : WedgeObs) (d : Demod), o = seenWedge s n (observe s x n samTime (headEntry s x n)) → d = demodNow x n o s →
      serves s x n = true → (getAct s x n).mode ≠ mParked → capEnabled s 0 = false →
      ((getAct s x n).locked = true → o.inBurst = false → (getAct s x n).coast < 15 →
        ∃ t, exec (.wedgeComputation x n samTime false .good) s = .next t ∧
          (getAct t x n).wedge = (if d.found then (obsReader o).wedge.getD 0 else ((getAct s x n).wedge + 1) % basWedges s x) ∧
          (getAct t x n).coast = (if d.y.isSome then 0 else (getAct s x n).coast + 1) ∧
          reg t (aBasCount x n 1) = (if d.y.isSome then reg s (aBasCount x n 1) else min (reg s (aBasCount x n 1) + 1) 0xFFFFFFFF) ∧
          getRx t x n = rxAfter s x n d ∧ SentFrame x n d.y.isNone s t ∧
          t.mem = s.mem ∧ t.jrn = s.jrn ∧ t.pwr = s.pwr ∧ t.strata = s.strata ∧ getBas t (1 - x.val) = getBas s (1 - x.val) ∧
          RegsKept (aBasTrack x n :: aBasPes x n :: (List.range 9).map (aBasCount x n)) s t) ∧
      ((getAct s x n).mode = mManual → (getAct s x n).locked = false → d.found = false →
        ∃ t, exec (.wedgeComputation x n samTime false .good) s = .next t ∧
          getAct t x n = { getAct s x n with run := 0 } ∧ getRx t x n = rxAfter s x n d ∧ t = { s with bas := t.bas })) ∧
    (∀ (samTime : Nat) (late : Bool), serves s x n = true → (getAct s x n).mode ≠ mParked → islHealthy s x = true →
      ∃ t, exec (.wedgeComputation x n samTime late .uncorrectable) s = .next t ∧ IslandFailed x 4 t) ∧
    (∀ hd coast, (getAct s x n).late = some (hd, coast) → hd.length = 3 → (getAct s x n).lateRun = 0 →
      ∃ t, exec (.deadlineCutoff x n) s = .next t ∧ (getAct t x n).late = none ∧ (getAct t x n).lateRun = 1 ∧
        (getAct t x n).deadline = (getAct s x n).deadline ∧ bit (fieldN (getAct t x n).frame 0 1) 7 = true ∧
        seg (getAct t x n).frame 1 2 = hd.drop 1 ∧ seg (getAct t x n).frame 3 4 = seg (padTo 8 (getAct s x n).frame) 3 4 ∧
        t.mem = s.mem ∧ t.jrn = s.jrn) ∧
    (∀ hd coast, (getAct s x n).late = some (hd, coast) → (getAct s x n).lateRun = 1 → s.pwr.phase = .running →
      islHealthy s x = true → peerOnTime s x n = true → ∃ t, exec (.deadlineCutoff x n) s = .next t ∧ IslandFailed x 3 t) ∧
    ((getAct s x n).late = none → exec (.deadlineCutoff x n) s = .next s)

/-- The frames of actuators that follow no wedge (R310, R325): a PARKED actuator in service gets a frame at each wedge
period, the count of wedges going on by itself, no demand on VCM or MA and no position record; an actuator that is not
in service, or whose frames follow wedges, gets none. -/
def FreeRunningFramesAreSent : Prop :=
  ∀ (s : State) (x : Fin 2) (n : Fin 4), Awake s →
    (serves s x n = true → (getAct s x n).mode = mParked → (getAct s x n).armed = none → capEnabled s 0 = false →
      (getSq s n).clkMove = none →
      ∃ t, exec (.freeRunningFrame x n) s = .next t ∧ (getAct t x n).mode = mParked ∧
        (getAct t x n).wedge = ((getAct s x n).wedge + 1) % basWedges s x ∧ (getAct t x n).uv = 0 ∧ (getAct t x n).um = 0 ∧
        SentFrame x n false s t ∧ getCh t n = getCh s n ∧ t.mem = s.mem ∧ t.jrn = s.jrn ∧ t.strata = s.strata ∧
        getBas t (1 - x.val) = getBas s (1 - x.val) ∧ RegsKept [] s t) ∧
    (serves s x n = false ∨ ((getAct s x n).mode ≠ mParked ∧ (getAct s x n).mode ≠ mManual) ∨
        ((getAct s x n).mode = mManual ∧ (getAct s x n).locked = true) → exec (.freeRunningFrame x n) s = .next s)

/-- Output frames on wedges and without them (R304–R328, R330). -/
def Obligations.ServoFramesAreComputedAndSent : Prop := WedgesAreComputedAndSent ∧ FreeRunningFramesAreSent

/-- An island's registers (R309, R334, R338, R400, R415): BAS_CFG takes WEDGES and RPM until LOCKED, and LOCKED sets the
spindle clock's N; a locked configuration takes no other; EN makes an island HEALTHY while its rail and clock are good; a
scrub counts what it corrected, and an uncorrectable word fails the island. -/
def Obligations.IslandRegistersAndScrub : Prop :=
  ∀ (s : State) (x : Fin 2), Awake s →
    (∀ (w : Fin 2048) (rpm : Fin 8192), islHeld s x = false → regB s (aBasCfg x) 31 = false → (getIsl s x).st = 0 →
      regB s (aBasCtl x) 0 = false → 256 ≤ w.val → w.val ≤ 1024 → 5400 ≤ rpm.val → rpm.val ≤ 7200 →
      ∃ t, exec (.basCfgLock x w rpm) s = .next t ∧ basWedges t x = w ∧ regF t (aBasCfg x) 11 13 = rpm ∧
        regB t (aBasCfg x) 31 = true ∧ reg t (aBasSpinN x) = spinN rpm w ∧ t = { s with regs := t.regs } ∧
        RegsKept [aBasCfg x, aBasSpinN x] s t) ∧
    (∀ (w : Fin 2048) (rpm : Fin 8192), islHeld s x = false → regB s (aBasCfg x) 31 = true →
      bits (reg s (aBasCfg x)) 0 24 ≠ w + rpm * 2048 → ∃ t, exec (.basCfgLock x w rpm) s = .next t ∧
        reg t aLockViol = min (reg s aLockViol + 1) 0xFFFFFFFF ∧ t = { s with regs := t.regs, strata := t.strata } ∧
        RegsKept (aLockViol :: recordCounts) s t) ∧
    (∀ acts : Fin 16, regB s (aBasCfg x) 31 = true → (getIsl s x).st = 0 → (getIsl s x).code = 0 → railOk s x = true →
      (getIsl s x).clockBad = false → s.host.ctrls = [] → ∃ t, exec (.basCtlEn x true acts) s = .next t ∧
        islHealthy t x = true ∧ islOn t x = true ∧ bits (reg t (aBasCtl x)) 4 4 = acts ∧
        t = { s with regs := t.regs, red := { s.red with isl := t.red.isl } } ∧ RegsKept [aBasCtl x] s t) ∧
    (∀ acts : Fin 16, islHeld s x = false → ∃ t, exec (.basCtlEn x false acts) s = .next t ∧ (getIsl t x).st = 0 ∧
      islOn t x = false ∧ t.mem = s.mem ∧ t.jrn = s.jrn) ∧
    (∀ corrected : Nat, islHeld s x = false → ∃ t, exec (.coefficientMemoryScrub x corrected 0) s = .next t ∧
      reg t (aBasCmemCe x) = min (reg s (aBasCmemCe x) + corrected) 0xFFFFFFFF ∧ t = { s with regs := t.regs } ∧
      RegsKept [aBasCmemCe x] s t) ∧
    (∀ corrected bad : Nat, bad ≠ 0 → s.pwr.phase = .running → islHealthy s x = true →
      ∃ t, exec (.coefficientMemoryScrub x corrected bad) s = .next t ∧ IslandFailed x 4 t) ∧
    (∀ corrected bad, islHeld s x = true → exec (.coefficientMemoryScrub x corrected bad) s = .next s)

/-- The Tandem link and the power driver (R330–R332, R339, R414): lanes are enabled by TDM_CTL; an island sends its spindle
word; the driver takes the frames of a lane in order, drops one that is not good, answers a new SEQ with a status frame
and tells a mismatch of two frames of one SEQ; an actuator without frames is held; status frames bring the driver's
registers, and a lane not seen for three frames is a fault. -/
def Obligations.TandemFramesAreSentAndTaken : Prop :=
  ∀ s : State, Awake s →
    (∀ tl0 tl1 tls, ∃ t, exec (.tandemLaneEnable tl0 tl1 tls) s = .next t ∧ regB t aTdmCtl 0 = tl0 ∧ regB t aTdmCtl 1 = tl1 ∧
      regB t aTdmCtl 2 = tls ∧ t.tls = (if tls then s.tls else { s.tls with at_ := none }) ∧
      t = { s with regs := t.regs, tls := t.tls } ∧ RegsKept [aTdmCtl] s t) ∧
    (∀ x : Fin 2, islOn s x = true → islHealthy s x = true → regB s aTdmCtl x = true → ∃ t bs, exec (.spindleFrame x) s = .next t ∧
      bs.length = 8 ∧ fieldN bs 0 1 = x * 4 + 8 ∧ fieldN bs 3 2 = regF s (aBasSpinCmd x) 0 13 * 8 ∧
      t.tdm.wire = s.tdm.wire ++ [(x.val, bs ++ leBytes 2 (crc16 bs).toNat)] ∧
      t = { s with tdm := { s.tdm with wire := t.tdm.wire }, wide := t.wide } ∧
      wide t (aTdmFramesLo x) = min (wide s (aTdmFramesLo x) + 1) (2 ^ 64 - 1)) ∧
    (∀ x : Fin 2, islOn s x = false ∨ islHealthy s x = false ∨ regB s aTdmCtl x = false → exec (.spindleFrame x) s = .next s) ∧
    (∀ (lane : Fin 2) (good : Bool) (m : DrvMeas), takeFirst (fun e => e.1 == lane.val) s.tdm.wire = none →
      exec (.driverFrame lane good m) s = .next s) ∧
    (∀ (lane : Fin 2) (good : Bool) (m : DrvMeas) (bs : List Byte) (rest : List (Nat × List Byte)),
      takeFirst (fun e => e.1 == lane.val) s.tdm.wire = some ((lane.val, bs), rest) →
      (good = false ∨ fieldN bs 8 2 ≠ (crc16 (bs.take 8)).toNat →
        exec (.driverFrame lane good m) s = .next { s with tdm := { s.tdm with wire := rest } }) ∧
      (good = true → fieldN bs 8 2 = (crc16 (bs.take 8)).toNat → bit (fieldN bs 0 1) 3 = true →
        exec (.driverFrame lane good m) s = .next { s with tdm := { s.tdm with
          wire := rest
          lastOn := smSet (fun _ => none) s.tdm.lastOn lane.val (some s.now)
          spin := fieldN bs 3 2 } }) ∧
      (good = true → fieldN bs 8 2 = (crc16 (bs.take 8)).toNat → bit (fieldN bs 0 1) 3 = false →
        (getDrv s (fieldN bs 0 1 % 4)).frame = [] ∨ seg (getDrv s (fieldN bs 0 1 % 4)).frame 1 2 ≠ seg bs 1 2 →
        ∃ t b, exec (.driverFrame lane good m) s = .next t ∧ t.tdm.wire = rest ∧
          (getDrv t (fieldN bs 0 1 % 4)).frame = bs.take 8 ∧ (getDrv t (fieldN bs 0 1 % 4)).lane = lane ∧
          (getDrv t (fieldN bs 0 1 % 4)).lastAt = s.now ∧ t.tdm.status = s.tdm.status ++ [b] ∧
          fieldN b 0 1 % 4 = fieldN bs 0 1 % 4 ∧ fieldN b 8 2 = (crc16 (b.take 8)).toNat ∧
          (∀ k, k ≠ fieldN bs 0 1 % 4 → getDrv t k = getDrv s k) ∧ t = { s with tdm := t.tdm }) ∧
      (good = true → fieldN bs 8 2 = (crc16 (bs.take 8)).toNat → bit (fieldN bs 0 1) 3 = false →
        (getDrv s (fieldN bs 0 1 % 4)).frame ≠ [] → seg (getDrv s (fieldN bs 0 1 % 4)).frame 1 2 = seg bs 1 2 →
        ∃ t, exec (.driverFrame lane good m) s = .next t ∧ t.tdm.wire = rest ∧ t.tdm.status = s.tdm.status ∧
          (getDrv t (fieldN bs 0 1 % 4)).frame = (getDrv s (fieldN bs 0 1 % 4)).frame ∧
          (getDrv t (fieldN bs 0 1 % 4)).mismatch = ((getDrv s (fieldN bs 0 1 % 4)).mismatch ||
            withoutIsl (getDrv s (fieldN bs 0 1 % 4)).frame != withoutIsl bs) ∧
          t = { s with tdm := t.tdm })) ∧
    (∀ n : Fin 4, exec (.driverFrameTimeout n) s = .next (setDrv n { getDrv s n with held := true } s)) ∧
    (∀ m : List DrvMeas, m.length = actCount s → ∃ t, exec (.driverStatusPeriod m) s = .next t ∧
      t.tdm.status.length = s.tdm.status.length + actCount s ∧ (∀ n, (getDrv t n).frame = (getDrv s n).frame) ∧
      t = { s with tdm := { s.tdm with drv := t.tdm.drv, status := t.tdm.status } }) ∧
    (∀ good, s.tdm.status = [] → exec (.statusFrame good) s = .next s) ∧
    (∀ (bs : List Byte) (rest : List (List Byte)), s.tdm.status = bs :: rest →
      (∀ good, regB s aTdmCtl 2 = false ∨ islHeld s 1 = true →
        exec (.statusFrame good) s = .next { s with tdm := { s.tdm with status := rest } }) ∧
      (regB s aTdmCtl 2 = true → islHeld s 1 = false → ∃ t, exec (.statusFrame false) s = .next t ∧
        reg t aTdmTlsErr = min (reg s aTdmTlsErr + 1) 0xFFFFFFFF ∧
        t = { s with tdm := { s.tdm with status := rest }, regs := t.regs } ∧ RegsKept [aTdmTlsErr] s t) ∧
      (regB s aTdmCtl 2 = true → islHeld s 1 = false → bits (fieldN bs 0 1) 3 3 = 6 → actPresent s (fieldN bs 0 1 % 4) = true →
        ∃ t, exec (.statusFrame true) s = .next t ∧ t.tdm.status = rest ∧
          t.tls = { at_ := some s.now, last7 := fieldN bs 7 1, spin := fieldN bs 5 2 } ∧
          reg t aTdmTlsFrames = min (reg s aTdmTlsFrames + 1) 0xFFFFFFFF ∧
          regF t (aTdmDrv (fieldN bs 0 1 % 4)) 0 16 = fieldN bs 3 2 ∧
          regF t (aTdmDrv (fieldN bs 0 1 % 4)) 16 6 = bits (fieldN bs 0 1) 2 6 ∧
          t = { s with tdm := { s.tdm with status := rest }, tls := t.tls, regs := t.regs, red := { s.red with tlBad := t.red.tlBad } } ∧
          RegsKept [aTdmTlsFrames, aTdmDrv (fieldN bs 0 1 % 4)] s t) ∧
      (∀ x : Fin 2, regB s aTdmCtl 2 = true → islHeld s 1 = false → bit (fieldN bs 0 1) (4 + x) = false → bit (fieldN bs 0 1) 3 = false →
        islHealthy s x = true → regB s aTdmCtl x = true → smGet (fun _ => 0) s.red.tlBad x = 2 → s.pwr.phase = .running →
        ∃ t, exec (.statusFrame true) s = .next t ∧ faultPresent t 0x10 x = true)) ∧
    (∀ r0 r1 : AccRaw, Quiet s → regB s aAccCfg 0 = false → regB s aAccCfg 1 = false → exec (.accelerometerPeriod r0 r1) s = .next s) ∧
    (∀ r0 r1 : AccRaw, Quiet s → regB s aAccCfg 0 = true → regB s aAccCfg 1 = false → capEnabled s 0 = false →
      regB s aShockCfg 16 = false → regB s aShockCfg 18 = false ∨ s.chan.shock.ints = 0 → ∃ t, exec (.accelerometerPeriod r0 r1) s = .next t ∧
        t.acc.s0 = [r0.x, r0.y, r0.z].map (scaleAxis (regF s aAccScale 0 16)) ∧ t.acc.s1 = s.acc.s1 ∧
        regF t (aAccXY 0) 0 16 = unsgn 16 (scaleAxis (regF s aAccScale 0 16) r0.x) ∧
        regF t (aAccXY 0) 16 16 = unsgn 16 (scaleAxis (regF s aAccScale 0 16) r0.y) ∧
        regF t (aAccZ 0) 0 16 = unsgn 16 (scaleAxis (regF s aAccScale 0 16) r0.z) ∧
        reg t aAccSeq = (reg s aAccSeq + 1) % 2 ^ 32 ∧
        t.chan.shock.cfg = reg s aShockCfg ∧
        t.out = .spiRead 0 (regB s aAccCfg 2) (regF s aAccCfg 8 8) (regF s aAccCfg 16 8) :: s.out ∧
        t = { s with acc := t.acc, regs := t.regs, out := t.out, chan := { s.chan with
          shock := { s.chan.shock with cfg := t.chan.shock.cfg, above := t.chan.shock.above } } } ∧
        RegsKept [aAccXY 0, aAccZ 0, aAccSeq, aAccFaults] s t)

/-! ### Redundancy (R398–R407, R414, R415) -/

/-- A fault table event of this instant stands in the history (R399). -/
def NewEvent (code unit event : Nat) (s t : State) : Prop :=
  ∃ h ∈ t.red.hist, h.tb = s.now ∧ h.code = code ∧ h.unit = unit ∧ h.event = event

/-- Islands fail and are declared failed (R23, R52, R401, R402, R404, R414): a rail or a clock that leaves its range fails the
island, whose registers show what last crossed from its clock while it stands still, as does a golden check that fails; FAIL_x does so while the peer is HEALTHY, and is refused with an event
otherwise. A condition that returns to good only shows. -/
def Obligations.IslandsFailAndAreDeclaredFailed : Prop :=
  ∀ (s : State) (x : Fin 2), Awake s →
    (∃ t, exec (.islandRailFault x true) s = .next t ∧ railOk t x = true ∧ t = { s with pwr := t.pwr, crossed := t.crossed } ∧
      t.pwr.phase = s.pwr.phase ∧ ((getIsl s x).clockStopped = false → getCrossed t x = none)) ∧
    (s.pwr.phase = .running → islHealthy s x = true →
      (∃ t, exec (.islandRailFault x false) s = .next t ∧ railOk t x = false ∧ IslandFailed x 1 t) ∧
      (∀ stopped, ∃ t, exec (.islandClockFault x false stopped) s = .next t ∧ (getIsl t x).clockBad = true ∧
        (getIsl t x).clockStopped = stopped ∧ IslandFailed x 2 t)) ∧
    ((getIsl s x).st = 0 ∨ islHeld s x = true → ∃ t, exec (.islandRailFault x false) s = .next t ∧ railOk t x = false ∧
      (getCrossed t x).isSome = true ∧ t = { s with pwr := t.pwr, crossed := t.crossed }) ∧
    (∀ stopped, s.host.ctrls = [] → ∃ t, exec (.islandClockFault x true stopped) s = .next t ∧
      getIsl t x = { getIsl s x with clockBad := false, clockStopped := false } ∧
      t = { s with red := { s.red with isl := t.red.isl }, crossed := t.crossed }) ∧
    (s.pwr.phase = .running → islHealthy s x = true → (getIsl s x).golden = true ∨ (getIsl s x).goldenOrdered = true →
      ∃ t, exec (.goldenCheckDone x false) s = .next t ∧ IslandFailed x 5 t ∧
        reg t (aRedCount 5) = min (reg s (aRedCount 5) + 1) 0xFFFFFFFF) ∧
    (s.pwr.phase = .running → islHealthy s (1 - x.val) = true → (getIsl s x).st ≠ 0 → islHeld s x = false →
      ∃ t, exec (.failIsland x) s = .next t ∧ IslandFailed x 6 t) ∧
    ((getIsl s x).st = 0 ∨ islHealthy s (1 - x.val) = false → ∃ t, exec (.failIsland x) s = .next t ∧
      NewEvent 6 x 4 s t ∧ reg t aRedEvents = (reg s aRedEvents + 1) % 2 ^ 32 ∧ t.red.isl = s.red.isl ∧ t.bas = s.bas ∧
      t.red.faults = s.red.faults ∧ t.mem = s.mem ∧ t.jrn = s.jrn ∧ RegsKept (aRedEvents :: recordCounts) s t)

/-- An island rejoins its peer (R405, R407): a held island is released to RESETTING by REJOIN_x, or by itself once its cause
has gone and AUTO_REJOIN stands; it copies the peer, then shadows it, and is HEALTHY without its fault once the shadow
has gone on for REJOIN_REVS revolutions of every actuator it serves. Out of their states these events do nothing. -/
def Obligations.IslandsRejoin : Prop :=
  ∀ (s : State) (x : Fin 2), Awake s →
    (islHeld s x = true → ∃ t, exec (.rejoinIsland x) s = .next t ∧ getIsl t x = { getIsl s x with st := 3, step := 0 } ∧
      getIsl t (1 - x.val) = getIsl s (1 - x.val) ∧ t.bas = s.bas ∧ t.mem = s.mem ∧ t.jrn = s.jrn ∧ RegsKept [] s t) ∧
    (islHeld s x = false → exec (.rejoinIsland x) s = .next s) ∧
    (s.pwr.phase = .running → (getIsl s x).st = 2 → regB s aRedCfg 12 = true → causeGone s x = true →
      ∃ t, exec (.autoRejoin x) s = .next t ∧ getIsl t x = { getIsl s x with st := 3, step := 0 } ∧
        getIsl t (1 - x.val) = getIsl s (1 - x.val) ∧ t.mem = s.mem ∧ t.jrn = s.jrn ∧ RegsKept [] s t) ∧
    ((getIsl s x).st ≠ 2 ∨ regB s aRedCfg 12 = false ∨ causeGone s x = false → exec (.autoRejoin x) s = .next s) ∧
    (s.pwr.phase = .running → (getIsl s x).st = 3 → railOk s x = true → (getIsl s x).clockBad = false → s.red.xlinkUp = true →
      islHealthy s (1 - x.val) = true → ∃ t, exec (.rejoining x) s = .next t ∧
        getIsl t x = { getIsl s x with st := 4, step := 1 } ∧ getIsl t (1 - x.val) = getIsl s (1 - x.val) ∧
        t.mem = s.mem ∧ t.jrn = s.jrn ∧ RegsKept [] s t) ∧
    ((getIsl s x).st ≠ 3 ∨ railOk s x = false ∨ (getIsl s x).clockBad = true ∨ s.red.xlinkUp = false ∨
      islHealthy s (1 - x.val) = false → exec (.rejoining x) s = .next s) ∧
    ((getIsl s x).st = 4 → (getIsl s x).step = 1 → smWf regReset s.regs = true → ∃ t, exec (.rejoinCopyDone x) s = .next t ∧
      getIsl t x = { getIsl s x with step := 2, revs := (List.range 4).map fun n => (getAct s (1 - x.val) n).rev } ∧ (∀ off, cmWord t x off = cmWord s (1 - x.val) off) ∧
      (∀ n, getAct t x n = { getAct s (1 - x.val) n with late := none }) ∧ reg t (aBasCfg x) = reg s (aBasCfg (1 - x.val)) ∧
      (∀ n, n < 4 → reg t (aBasTgt x n) = reg s (aBasTgt (1 - x.val) n)) ∧ getBas t (1 - x.val) = getBas s (1 - x.val) ∧
      t.mem = s.mem ∧ t.jrn = s.jrn) ∧
    ((getIsl s x).st ≠ 4 ∨ (getIsl s x).step ≠ 1 → exec (.rejoinCopyDone x) s = .next s) ∧
    (s.pwr.phase = .running → (getIsl s x).st = 4 → (getIsl s x).step = 2 → (getIsl s x).code ≠ 0 → shadowDone s x = true →
      ∃ t, exec (.shadowComplete x) s = .next t ∧ islHealthy t x = true ∧ (getIsl t x).code = 0 ∧
        faultPresent t (getIsl s x).code x = false ∧ reg t (aRedCount 2) = min (reg s (aRedCount 2) + 1) 0xFFFFFFFF ∧
        (faultPresent s (getIsl s x).code x = true → NewEvent (getIsl s x).code x 2 s t) ∧ t.mem = s.mem ∧ t.jrn = s.jrn) ∧
    ((getIsl s x).st ≠ 4 ∨ (getIsl s x).step ≠ 2 ∨ shadowDone s x = false → exec (.shadowComplete x) s = .next s)

/-- Comparison, golden checks, lane faults and decoders (R404, R407, R414, R415): frames of one SEQ are compared, a
difference between HEALTHY islands orders golden checks in both and one in a shadow ends it; a periodic check that
passes leaves nothing, and an ordered one passed by both raises DISAGREE; the cross-link and the lanes have faults
that their return clears; two golden decodes that fail in a row retire the decoder. -/
def Obligations.ChecksLanesAndDecodersAreJudged : Prop :=
  ∀ s : State, Awake s →
    (∀ (x : Fin 2) (n : Fin 4), s.red.xlinkUp = false ∨ smGet (fun _ => []) s.red.sent (4 * (1 - x.val) + n.val) = [] ∨
        seg (smGet (fun _ => []) s.red.sent (4 * (1 - x.val) + n.val)) 1 2 ≠ seg (getAct s x n).frame 1 2 →
      exec (.crosslinkFrame x n) s = .next s) ∧
    (∀ (x : Fin 2) (n : Fin 4) (f : List Byte), s.red.xlinkUp = true → smGet (fun _ => []) s.red.sent (4 * (1 - x.val) + n.val) = f →
      f ≠ [] → seg f 1 2 = seg (getAct s x n).frame 1 2 → bit (fieldN f 0 1) 7 = false → bit (fieldN (getAct s x n).frame 0 1) 7 = false →
      (withoutIsl f = withoutIsl (getAct s x n).frame → exec (.crosslinkFrame x n) s =
        .next { s with red := { s.red with sent := smSet (fun _ => []) s.red.sent (4 * (1 - x.val) + n.val) [] } }) ∧
      (withoutIsl f ≠ withoutIsl (getAct s x n).frame → s.pwr.phase = .running → islHealthy s 0 = true → islHealthy s 1 = true →
        (getIsl s 0).goldenOrdered = false → (getIsl s 1).goldenOrdered = false → ∃ t, exec (.crosslinkFrame x n) s = .next t ∧
          (∀ y, y < 2 → getIsl t y = { getIsl s y with goldenOrdered := true, goldenResult := none }) ∧
          t.mem = s.mem ∧ t.jrn = s.jrn ∧ t.bas = s.bas ∧ RegsKept [] s t) ∧
      (withoutIsl f ≠ withoutIsl (getAct s x n).frame → (getIsl s x).st = 4 → (getIsl s x).step = 2 →
        ∃ t, exec (.crosslinkFrame x n) s = .next t ∧ ((getIsl t x).st = 3 ∨ (getIsl t x).st = 5) ∧
          reg t (aRedCount 3) = min (reg s (aRedCount 3) + 1) 0xFFFFFFFF)) ∧
    (∀ x : Fin 2, islHealthy s x = true → exec (.periodicGoldenCheck x) s = .next (setIsl x { getIsl s x with golden := true } s)) ∧
    (∀ x : Fin 2, islHealthy s x = false → exec (.periodicGoldenCheck x) s = .next s) ∧
    (∀ x : Fin 2, islHealthy s x = true → (getIsl s x).golden = true → (getIsl s x).goldenOrdered = false →
      ∃ t, exec (.goldenCheckDone x true) s = .next t ∧ getIsl t x = { getIsl s x with golden := false } ∧ islHealthy t x = true ∧
        t.bas = s.bas ∧ t.mem = s.mem ∧ t.jrn = s.jrn ∧ RegsKept [] s t) ∧
    (∀ x : Fin 2, islHealthy s x = true → (getIsl s x).goldenOrdered = true → (getIsl s (1 - x.val)).goldenOrdered = true →
      (getIsl s (1 - x.val)).goldenResult = some true → ∃ t, exec (.goldenCheckDone x true) s = .next t ∧
        reg t (aRedCount 4) = min (reg s (aRedCount 4) + 1) 0xFFFFFFFF ∧ (getIsl t 0).goldenOrdered = false ∧
        (getIsl t 1).goldenOrdered = false ∧ islHealthy t x = true ∧ t.mem = s.mem ∧ RegsKept [aRedCount 4] s t) ∧
    (s.pwr.phase = .running → s.red.xlinkUp = true → (∀ x, x < 2 → (getIsl s x).st ≠ 0 ∧ islHeld s x = false) →
      ∃ t, exec .crosslinkDown s = .next t ∧ t.red.xlinkUp = false ∧ t.red.sent = [] ∧ faultPresent t 0x12 0 = true ∧
        reg t (aRedCount 6) = min (reg s (aRedCount 6) + 1) 0xFFFFFFFF ∧
        (∀ x, x < 2 → (getIsl s x).st = 4 → (getIsl t x).st = 3 ∨ (getIsl t x).st = 5) ∧
        (∀ x, x < 2 → (getIsl s x).st ≠ 4 → getIsl t x = getIsl s x) ∧ t.mem = s.mem ∧ t.jrn = s.jrn) ∧
    (s.red.xlinkUp = false ∨ (getIsl s 0).st = 0 ∨ (getIsl s 1).st = 0 ∨ islHeld s 0 = true ∨ islHeld s 1 = true →
      exec .crosslinkDown s = .next s) ∧
    (faultPresent s 0x12 0 = true → ∃ t, exec .crosslinkFailback s = .next t ∧ t.red.xlinkUp = true ∧
      faultPresent t 0x12 0 = false ∧ NewEvent 0x12 0 2 s t ∧ t.red.isl = s.red.isl ∧ t.mem = s.mem ∧ t.jrn = s.jrn ∧
      RegsKept (aRedEvents :: recordCounts) s t) ∧
    (∀ x : Fin 2, smGet (fun _ => 0) s.red.tlBad x = 0 → faultPresent s 0x10 x = true → ∃ t, exec (.tandemLaneFailback x) s = .next t ∧
      faultPresent t 0x10 x = false ∧ NewEvent 0x10 x 2 s t ∧ t.red.isl = s.red.isl ∧ t.mem = s.mem ∧
      RegsKept (aRedEvents :: recordCounts) s t) ∧
    (∀ x : Fin 2, smGet (fun _ => 0) s.red.tlBad x ≠ 0 ∨ faultPresent s 0x10 x = false → exec (.tandemLaneFailback x) s = .next s) ∧
    (s.pwr.phase = .running → regB s aTdmCtl 2 = true → islHealthy s 1 = true → tlsLock s = false → faultPresent s 0x11 2 = false →
      ∃ t, exec .statusLaneFault s = .next t ∧ faultPresent t 0x11 2 = true ∧ NewEvent 0x11 2 1 s t ∧ t.red.isl = s.red.isl ∧
        t.mem = s.mem ∧ RegsKept (aRedEvents :: recordCounts) s t) ∧
    (tlsLock s = true ∨ regB s aTdmCtl 2 = false ∨ islHealthy s 1 = false → exec .statusLaneFault s = .next s) ∧
    (tlsLock s = true → faultPresent s 0x11 2 = true → ∃ t, exec .statusLaneFailback s = .next t ∧ faultPresent t 0x11 2 = false ∧
      NewEvent 0x11 2 2 s t ∧ t.red.isl = s.red.isl ∧ t.mem = s.mem ∧ RegsKept (aRedEvents :: recordCounts) s t) ∧
    (tlsLock s = false ∨ faultPresent s 0x11 2 = false → exec .statusLaneFailback s = .next s) ∧
    (∀ (k : Fin 12) (pass : Bool), regB s aRedCfg 13 = false ∨ (freeDecs s).contains k.val = false ∨
      (freeDecs s).length < rtReserve s + 1 → exec (.decoderGoldenDecode k pass) s = .next s) ∧
    (∀ k : Fin 12, regB s aRedCfg 13 = true → (freeDecs s).contains k.val = true → rtReserve s + 1 ≤ (freeDecs s).length →
      (∃ t, exec (.decoderGoldenDecode k true) s = .next t ∧ smGet (fun _ => 0) t.red.decFails k = 0 ∧
        t = { s with red := { s.red with decFails := t.red.decFails } }) ∧
      (smGet (fun _ => 0) s.red.decFails k = 0 → ∃ t, exec (.decoderGoldenDecode k false) s = .next t ∧
        smGet (fun _ => 0) t.red.decFails k = 1 ∧ reg t (aRedCount 11) = min (reg s (aRedCount 11) + 1) 0xFFFFFFFF ∧
        t = { s with regs := t.regs, red := { s.red with decFails := t.red.decFails } } ∧ RegsKept [aRedCount 11] s t) ∧
      (smGet (fun _ => 0) s.red.decFails k = 1 → s.pwr.phase = .running → s.host.ctrls = [] →
        ∃ t, exec (.decoderGoldenDecode k false) s = .next t ∧ bit t.red.decRetired k = true ∧ (freeDecs t).contains k.val = false ∧
          NewEvent 0x40 k 1 s t ∧ NewEvent 0x40 k 2 s t ∧ reg t (aRedCount 11) = min (reg s (aRedCount 11) + 1) 0xFFFFFFFF ∧
          t = { s with regs := t.regs, red := t.red, strata := t.strata } ∧
          RegsKept (aRedCount 11 :: aRedEvents :: recordCounts) s t))

/-! ### The SEC block (R449–R466) and patch loads (R389, R390) -/

/-- A SEC command of a code has started, and what it will report is decided (R465); nothing but the SEC block, the OTP, the
recorder and the counts of verifications has changed, and the DRAM's count of uncorrectable errors only if what the
command reads is poisoned (R88). -/
def SecStarted (op : Nat) (c : SecCmd) (s t : State) : Prop :=
  t.sec.cmd = some c ∧ c.op = op ∧ c.at_ = secOut s ∧ t.sec.done = false ∧ t.sec.lc = s.sec.lc ∧
  t = { s with sec := t.sec, otp := t.otp, regs := t.regs, strata := t.strata, free := t.free } ∧
  RegsKept (aSecCmd :: aSecCount 0 :: aSecCount 1 :: aDramUe :: recordCounts) s t ∧
  (poisoned s (secIn s) (secReads s op (regF t aSecCmd 8 16)) = false → reg t aDramUe = reg s aDramUe)

/-- Images, reports and the identity (R118, R460–R462, R465): a slot is verified in the order of R118; ACTIVATED takes a
verified slot's measurement as RUN; a report is the body of R462 and its signature; the identity is derived from the
secret of the OTP, made once in VENDOR; a challenge is given out; a GO while a command runs is recorded and counted
(its result stands until the command ends, and then shows with DONE, its output in DRAM). -/
def Obligations.SecCommandsRunAndEnd : Prop :=
  ∀ s : State, Awake s →
    (s.sec.cmd = none →
      (∀ k, k < 2 → slotCode s k = 0 → ∃ t c, exec (.verifySlot k) s = .next t ∧ SecStarted 1 c s t ∧ c.result = 0 ∧ c.boot = 2 ∧
        smGet (fun _ => none) t.sec.verified k = some (measure s k) ∧ t.otp = s.otp) ∧
      (∀ k, k < 2 → slotCode s k ≠ 0 → ∃ t c, exec (.verifySlot k) s = .next t ∧ SecStarted 1 c s t ∧ c.result ≠ 0 ∧
        c.boot = slotCode s k ∧ t.sec.verified = s.sec.verified ∧ t.otp = s.otp) ∧
      (∀ k, 2 ≤ k → k < 65536 → ∃ t c, exec (.verifySlot k) s = .next t ∧ SecStarted 1 c s t ∧ c.result = 1 ∧
        t.sec.verified = s.sec.verified) ∧
      (∀ k m, k < 65536 → smGet (fun _ => none) s.sec.verified k = some m → ∃ t c, exec (.activated k) s = .next t ∧
        SecStarted 2 c s t ∧ c.result = 0 ∧ t.sec.run = some m ∧ t.sec.activated = true ∧
        t.sec.activations = s.sec.activations + 1) ∧
      (∀ k, k < 65536 → smGet (fun _ => none) s.sec.verified k = none → ∃ t c, exec (.activated k) s = .next t ∧
        SecStarted 2 c s t ∧ c.result = 1 ∧ t.sec.run = s.sec.run) ∧
      (s.sec.idReady = true → s.sec.lc ≠ 3 → areaBad s (secIn s) 96 = false → areaBad s (secOut s) 36224 = false →
        ∃ t c, exec .signReport s = .next t ∧ SecStarted 3 c s t ∧ c.result = 0 ∧ c.nonce = dramBytes s (secIn s) 32 ∧
          c.out.length = 36224 ∧ c.out.take 512 = reportBody s (dramBytes s (secIn s) 32) (dramBytes s (secIn s + 32) 64)) ∧
      (s.sec.idReady = false → s.sec.lc ≠ 3 → ∃ t c, exec .signReport s = .next t ∧ SecStarted 3 c s t ∧ c.result = 0xA ∧ c.out = []) ∧
      (s.sec.lc = 0 → s.otp.dus = none → areaBad s (secOut s) 48 = false → ∃ t c d, exec (.genIdentity true) s = .next t ∧
        SecStarted 8 c s t ∧ c.result = 0 ∧ t.otp = { s.otp with dus := some d } ∧ d.length = 32 ∧
        c.out = padTo 48 (Config.slhPublic (idSeed d))) ∧
      (∀ ok, s.sec.lc ≠ 0 ∨ s.otp.dus.isSome = true → ∃ t c, exec (.genIdentity ok) s = .next t ∧ SecStarted 8 c s t ∧
        c.result = 4 ∧ t.otp = s.otp) ∧
      (areaBad s (secOut s) 32 = false → ∃ t c, exec .challenge s = .next t ∧ SecStarted 9 c s t ∧ c.result = 0 ∧
        c.out = s.sec.challenge ∧ t.otp = s.otp) ∧
      (areaBad s (secOut s) 32 = true → ∃ t c, exec .challenge s = .next t ∧ SecStarted 9 c s t ∧ c.result = 8 ∧ c.out = [])) ∧
    (s.sec.cmd.isSome = true → ∀ i v, (i, v) ∈ [(Instr.signReport, secGo 3 0), (.debugUnlock, secGo 7 0), (.challenge, secGo 9 0),
        (.verifySlot 0, secGo 1 0), (.activated 1, secGo 2 1), (.keyMgmt true, secGo 4 0), (.genIdentity true, secGo 8 0)] →
      exec i s = .next (record srcSec 0xA4 [v] (incReg (aSecCount 3) s))) ∧
    (s.sec.cmd = none → exec .secCommandDone s = .next s) ∧
    (∀ c : SecCmd, s.sec.cmd = some c → c.op ∈ [1, 2, 5, 8, 9] → c.result < 256 → c.boot < 256 →
      (c.result = 0 → c.at_ + c.out.length ≤ dramUsable s → ∃ t, exec .secCommandDone s = .next t ∧
        t.sec = { s.sec with cmd := none, done := true } ∧ reg t aSecCmdStatus = c.boot * 65536 ∧
        memBytes t (dramBase + c.at_) c.out.length = c.out ∧ MemKeptBut (dramBase + c.at_) c.out.length s t ∧
        t = { s with sec := t.sec, regs := t.regs, mem := t.mem, bad := t.bad } ∧ RegsKept [aSecCmdStatus] s t) ∧
      (c.result ≠ 0 → ∃ t, exec .secCommandDone s = .next t ∧ t.sec = { s.sec with cmd := none, done := true } ∧
        reg t aSecCmdStatus = c.result * 256 + c.boot * 65536 ∧ t = { s with sec := t.sec, regs := t.regs } ∧
        RegsKept [aSecCmdStatus] s t)) ∧
    (s.sec.seen.dus = none ∨ s.sec.lc = 3 ∨ otpBad s.sec.seen 4 = true → exec .identityDerivation s = .next s) ∧
    (∀ d, s.sec.seen.dus = some d → s.sec.lc ≠ 3 → otpBad s.sec.seen 4 = false → exec .identityDerivation s =
      .next { s with sec := { s.sec with idReady := true, idPk := padTo 48 (Config.slhPublic (idSeed d)) } })

/-- The fields of a key management object that every action shares are good (R458). -/
abbrev KeyObject (s : State) (action k : Nat) : Prop :=
  areaBad s (secIn s) 128 = false ∧ fieldN (objBody s) 0 4 = 0x4D4B515A ∧ fieldN (objBody s) 4 2 = 1 ∧
  fieldN (objBody s) 6 1 = action ∧ fieldN (objBody s) 7 1 = k ∧ k ≤ 3 ∧
  (seg (objBody s) 8 32 = zeros 32 ∨ seg (objBody s) 8 32 = deviceId s) ∧ allZero (objBody s) 0x48 56 = true

/-- Keys, floors, the lifecycle and debug (R452–R459): key management, unsigned before SECURED, provisions an owner slot that
is empty and revokes one; floors rise to no more than what runs; the lifecycle advances in its directions alone, from
what the OTP holds, and takes effect at the next reset; a field that does not read back is uncorrectable; an accepted
token opens debug and draws a new challenge, and any other changes nothing of the OTP. -/
def Obligations.KeysFloorsLifecycleAndDebug : Prop :=
  ∀ s : State, Awake s → s.sec.cmd = none →
    (∀ k, s.sec.lc < 2 → KeyObject s 1 k → ownerSet s.otp k = false → ∃ t c, exec (.keyMgmt true) s = .next t ∧ SecStarted 4 c s t ∧
      c.result = 0 ∧ t.otp = { s.otp with owner := smSet (fun _ => []) s.otp.owner k (seg (objBody s) 0x28 32) }) ∧
    (∀ k ok, s.sec.lc < 2 → KeyObject s 1 k → ownerSet s.otp k = true → ∃ t c, exec (.keyMgmt ok) s = .next t ∧ SecStarted 4 c s t ∧
      c.result = 9 ∧ t.otp = s.otp) ∧
    (∀ k, s.sec.lc < 2 → KeyObject s 2 k → allZero (objBody s) 0x28 32 = true → bit s.otp.ownerRevoked k = false →
      ∃ t c, exec (.keyMgmt true) s = .next t ∧ SecStarted 4 c s t ∧ c.result = 0 ∧
        t.otp = { s.otp with ownerRevoked := setBits s.otp.ownerRevoked k 1 1 }) ∧
    (∀ ok, s.sec.lc = 3 → ∃ t c, exec (.keyMgmt ok) s = .next t ∧ SecStarted 4 c s t ∧ c.result = 4 ∧ t.otp = s.otp) ∧
    (∀ ok, s.sec.lc ≠ 3 → areaBad s (secIn s) (if s.sec.lc = 2 then 128 + sigLen else 128) = false →
      fieldN (objBody s) 0 4 ≠ 0x4D4B515A → ∃ t c, exec (.keyMgmt ok) s = .next t ∧ SecStarted 4 c s t ∧ c.result = 1 ∧ t.otp = s.otp) ∧
    (∀ (i m : Fin 128) (ok : Bool), i.val = imageFloor s.otp → m.val = mcFloor s.otp → ∃ t c, exec (.svnRaise i m ok) s = .next t ∧
      SecStarted 5 c s t ∧ c.result = 0 ∧ t.otp = s.otp) ∧
    (∀ (i m : Fin 128) (r : Meas), s.sec.run = some r → imageFloor s.otp < i.val → i.val ≤ min 64 r.svn → m.val = mcFloor s.otp →
      ∃ t c, exec (.svnRaise i m true) s = .next t ∧ SecStarted 5 c s t ∧ c.result = 0 ∧ t.otp = { s.otp with imageFloor := i } ) ∧
    (∀ (i m : Fin 128) (ok : Bool), i.val < imageFloor s.otp ∨ m.val < mcFloor s.otp ∨ (64 < i.val ∧ i.val ≠ imageFloor s.otp) →
      ∃ t c, exec (.svnRaise i m ok) s = .next t ∧ SecStarted 5 c s t ∧ c.result = 5 ∧ t.otp = s.otp) ∧
    (s.otp.lc = 0 → s.sec.idReady = true → s.otp.vendorSet = true → ∃ t c, exec (.lcAdvance 1 true) s = .next t ∧
      SecStarted 6 c s t ∧ c.result = 0 ∧ t.otp = { s.otp with lc := 1 }) ∧
    (s.otp.lc = 1 → anyOwner s.otp = true → ∃ t c, exec (.lcAdvance 2 true) s = .next t ∧ SecStarted 6 c s t ∧ c.result = 0 ∧
      t.otp = { s.otp with lc := 2 }) ∧
    (s.otp.lc = 1 → anyOwner s.otp = true → ∃ t c, exec (.lcAdvance 2 false) s = .next t ∧ SecStarted 6 c s t ∧ c.result = 7 ∧
      otpBad t.otp 5 = true) ∧
    ((s.otp.lc = 1 ∨ s.otp.lc = 2) → s.sec.lc = 1 → journalEmpty s = true → ∃ t c, exec (.lcAdvance 3 true) s = .next t ∧
      SecStarted 6 c s t ∧ c.result = 0 ∧ t.otp = { s.otp with lc := 3 }) ∧
    (∀ target ok, target < 65536 → (target = 1 ∧ (s.otp.lc ≠ 0 ∨ s.sec.idReady = false ∨ s.otp.vendorSet = false)) ∨
        (target = 2 ∧ (s.otp.lc ≠ 1 ∨ anyOwner s.otp = false)) ∨
        (target = 3 ∧ (s.otp.lc = 0 ∨ s.otp.lc = 3 ∨ journalEmpty s = false)) ∨ target = 0 ∨ 3 < target →
      ∃ t c, exec (.lcAdvance target ok) s = .next t ∧ SecStarted 6 c s t ∧ c.result = 4 ∧ t.otp = s.otp) ∧
    (tokenCheck s 1 4 ≠ 0 → ∃ t c, exec .debugUnlock s = .next t ∧ SecStarted 7 c s t ∧ c.result = tokenCheck s 1 4 ∧
      t.sec.debugOpen = s.sec.debugOpen ∧ t.sec.challenge = s.sec.challenge ∧ t.otp = s.otp) ∧
    (tokenCheck s 1 4 = 0 → s.sec.lc = 2 → s.sec.debugOpen = false → ∃ t c, exec .debugUnlock s = .next t ∧ SecStarted 7 c s t ∧ c.result = 0 ∧
      t.sec.debugOpen = true ∧ t.sec.debugSeen = true ∧ t.sec.challenge.length = 32 ∧ t.otp = s.otp)

/-- Security Send and Receive (R461, R463): a nonce is held for its controller; objects go to DRAM for firmware and their
commands wait; a report waits for its turn with the nonce it takes, sixteen at most, and goes to the request that waits
for it; the certificate and the challenge are returned, as is the list of protocols in the layout that log 51
presumes; a protocol that is not listed is turned away. -/
def Obligations.SecuritySendAndReceiveAreServed : Prop :=
  ∀ (s : State) (c : Cmd) (x : Nat) (d : Ctrl), Awake s →
    (Alone c x s → getCtrl s c.ctrl = some d →
      (isAdmin 0x81 c = true → secProtocol c = 0xF00001 → c.cap.cdw11 = 32 → c.cap.data.length = 32 →
        ∃ t, exec .secSendNonce s = .next t ∧ Completed c x stOk 0 0 s t ∧
          getCtrl t c.ctrl = some { d with nonce := some c.cap.data } ∧ t.sec = s.sec) ∧
      (isAdmin 0x81 c = true → secProtocol c = 0xF00001 → c.cap.cdw11 ≠ 32 → ∃ t, exec .secSendNonce s = .next t ∧
        Completed c x stInvalidField 0 0 s t ∧ ErrorLogged c stInvalidField d t ∧ t.sec = s.sec) ∧
      (isAdmin 0x81 c = true → sendProtocol (secProtocol c) = false → ∃ t, exec .secSendNonce s = .next t ∧
        Completed c x stInvalidField 0 0 s t ∧ ErrorLogged c stInvalidField d t ∧ t.sec = s.sec) ∧
      (∀ i p, (i, p) ∈ [(Instr.secSendKeyMgmt, 3), (.secSendToken, 4)] → isAdmin 0x81 c = true → secProtocol c = 0xF00000 + p →
        secIn s + c.cap.data.length ≤ dramUsable s → ∃ t, exec i s = .next t ∧
          t.sec = { s.sec with sends := s.sec.sends ++ [(c.seq, p)] } ∧ t.cmd.cmds = [{ c with phase := .waiting }] ∧
          memBytes t (dramBase + secIn s) c.cap.data.length = c.cap.data ∧
          MemKeptBut (dramBase + secIn s) c.cap.data.length s t ∧ t.out = s.out ∧ t.regs = s.regs ∧ t.host = s.host) ∧
      (isAdmin 0x82 c = true → secProtocol c = 0 → ∃ t, exec .secRecvProtocols s = .next t ∧
        Returned c x ((zeros 6 ++ [0, 2, 0x00, 0xF0]).take c.cap.cdw11) s t) ∧
      (isAdmin 0x82 c = true → receiveProtocol (secProtocol c) = false → ∃ t, exec .secRecvProtocols s = .next t ∧
        Completed c x stInvalidField 0 0 s t ∧ ErrorLogged c stInvalidField d t ∧ t.sec = s.sec) ∧
      (isAdmin 0x82 c = true → secProtocol c = 0xF00001 → reportsWaiting s < 16 → ∃ t, exec .secRecvReport s = .next t ∧
        t.cmd.cmds = [{ c with phase := .waiting }] ∧ t.out = s.out ∧ getCtrl t c.ctrl = some { d with nonce := none } ∧
        t.sec = { s.sec with waiting := s.sec.waiting ++ [ReportWait.mk (some c.seq) c.cap.cdw11 (d.nonce.getD (zeros 32))] } ∧
        t.mem = s.mem ∧ t.regs = s.regs) ∧
      (isAdmin 0x82 c = true → secProtocol c = 0xF00001 → 16 ≤ reportsWaiting s → ∃ t, exec .secRecvReport s = .next t ∧
        Completed c x stInterrupted 0 0 s t ∧ ErrorLogged c stInterrupted d t ∧ t.sec = s.sec) ∧
      (isAdmin 0x82 c = true → secProtocol c = 0xF00002 → fieldN (flashBytes s 0x20000 30400) 0 4 = 0x4349515A →
        ∃ t, exec .secRecvCertificate s = .next t ∧ Returned c x ((flashBytes s 0x20000 30400).take c.cap.cdw11) s t) ∧
      (isAdmin 0x82 c = true → secProtocol c = 0xF00004 → ∃ t, exec .secRecvChallenge s = .next t ∧
        Returned c x (s.sec.challenge.take c.cap.cdw11) s t)) ∧
    (∀ (k : SecCmd) (w : ReportWait) (y : Ctx), s.cmd.cmds = [c] → s.cmd.waits = [] → c.ctx = some x → capEnabled s 1 = false →
      s.sec.cmd = some k → k.op = 3 → k.result = 0 → s.sec.waiting = [w] → w.cmd = some c.seq → w.nonce = k.nonce →
      getCtx s x = some y → k.out ≠ [] → c.cap.cdw11 ≠ 0 →
      ∃ t segs, exec .secCommandDone s = .next t ∧ t.sec.waiting = [] ∧ t.sec.cmd = none ∧ t.sec.done = true ∧ t.cmd.cmds = [] ∧
        (∀ o, o ∈ segs → ∃ e n tag hdr, o = .segment x e n tag hdr) ∧
        t.out = .completion x c.cap.cid stOk false 0 0 ::
          (segs ++ .c2hData x c.cap.cid (c2hPad y) (k.out.take c.cap.cdw11) :: s.out)) ∧
    (∀ (k : SecCmd) (p : Nat), s.cmd.cmds = [c] → s.cmd.waits = [] → c.ctx = some x → capEnabled s 1 = false → s.sec.cmd = some k →
      (k.op = 4 ∧ p = 3) ∨ (k.op = 6 ∧ p = 4) ∨ (k.op = 7 ∧ p = 4) → s.sec.sends = [(c.seq, p)] → k.result ≠ 0 →
      ∃ t, exec .secCommandDone s = .next t ∧ t.sec.sends = [] ∧ t.cmd.cmds = [] ∧
        t.out = .completion x c.cap.cid stInvalidField false 0 0 :: s.out)

/-- A load into a bank has failed before its words were taken: besides the bank's STATE, the count of failed loads and the recorder, only the DRAM's
count of uncorrectable errors has changed, and that only if what was read is poisoned (R88, R390). -/
def LoadFailed (n : Fin 4) (k : Fin 2) (s t : State) : Prop :=
  t = { s with seq := t.seq, regs := t.regs, strata := t.strata } ∧
  RegsKept (aSeqBankState n k :: aSeqCount n 8 :: aDramUe :: recordCounts) s t ∧
  (poisoned s (reg s (aSeqPloadOfs n) * 4096)
      (patchSigAt (fieldN (dramBytes s (reg s (aSeqPloadOfs n) * 4096) 64) 6 2) + sigLen) = false → reg t aDramUe = reg s aDramUe)

/-- Patch loads (R389, R390, R396): a load begins in a bank that is neither active nor about to be, and is refused in one
that is; its end checks the object in DRAM in order, and a bank is VALID with the words that were verified, or FAILED
with its result and a count. -/
def Obligations.PatchLoadsAreVerified : Prop :=
  ∀ (s : State) (n : Fin 4) (k : Fin 2), Awake s → actPresent s n = true →
    ((getSq s n).loading = none → (getSq s n).active ≠ k + 1 → (getSq s n).pend ≠ some (k.val + 1) → ∃ t, exec (.patchLoad n k) s = .next t ∧
      (getSq t n).loading = some k.val ∧ reg t (aSeqBankState n k) = 1 ∧ (getSq t n).banks = (getSq s n).banks ∧
      t = { s with seq := t.seq, regs := t.regs } ∧ RegsKept [aSeqPloadCtl n, aSeqBankState n k] s t) ∧
    ((getSq s n).loading = none → (getSq s n).active = k + 1 ∨ (getSq s n).pend = some (k.val + 1) → ∃ t, exec (.patchLoad n k) s = .next t ∧
      regF t (aSeqBankState n k) 4 4 = 8 ∧ regF t (aSeqBankState n k) 0 4 = regF s (aSeqBankState n k) 0 4 ∧
      reg t (aSeqCount n 8) = min (reg s (aSeqCount n 8) + 1) 0xFFFFFFFF ∧ t = { s with regs := t.regs } ∧
      RegsKept [aSeqPloadCtl n, aSeqBankState n k, aSeqCount n 8] s t) ∧
    ((getSq s n).loading.isSome = true → exec (.patchLoad n k) s = .next (record (srcSeq n) 0x145 [k.val + 2 ^ 31] s)) ∧
    ((getSq s n).loading = none → exec (.patchLoadComplete n) s = .next s) ∧
    ((getSq s n).loading = some k.val →
      (areaBad s (reg s (aSeqPloadOfs n) * 4096) 64 = true → ∃ t, exec (.patchLoadComplete n) s = .next t ∧
        (getSq t n).loading = none ∧ regF t (aSeqBankState n k) 0 8 = 3 + 9 * 16 ∧
        reg t (aSeqCount n 8) = min (reg s (aSeqCount n 8) + 1) 0xFFFFFFFF ∧ LoadFailed n k s t) ∧
      (areaBad s (reg s (aSeqPloadOfs n) * 4096) 64 = false →
        patchHeader s n (dramBytes s (reg s (aSeqPloadOfs n) * 4096) 64) ≠ 0 → ∃ t, exec (.patchLoadComplete n) s = .next t ∧
          (getSq t n).loading = none ∧
          regF t (aSeqBankState n k) 0 8 = 3 + patchHeader s n (dramBytes s (reg s (aSeqPloadOfs n) * 4096) 64) * 16 ∧
          (getSq t n).banks = (getSq s n).banks ∧ LoadFailed n k s t) ∧
      (∀ w b sig, areaBad s (reg s (aSeqPloadOfs n) * 4096) 64 = false →
        patchHeader s n (dramBytes s (reg s (aSeqPloadOfs n) * 4096) 64) = 0 →
        w = fieldN (dramBytes s (reg s (aSeqPloadOfs n) * 4096) 64) 6 2 →
        areaBad s (reg s (aSeqPloadOfs n) * 4096) (patchSigAt w + sigLen) = false →
        b = dramBytes s (reg s (aSeqPloadOfs n) * 4096) (patchSigAt w) →
        sig = dramBytes s (reg s (aSeqPloadOfs n) * 4096 + patchSigAt w) sigLen →
        (patchWords b w).all wordGood = true → (∀ i, i < w → allZero b (0x46 + 8 * i) 2 = true) →
        (sigCheck s 2 b sig = 0 → mcFloor s.otp ≤ fieldN (dramBytes s (reg s (aSeqPloadOfs n) * 4096) 64) 0x14 4 →
          ∃ t, exec (.patchLoadComplete n) s = .next t ∧ (getSq t n).loading = none ∧
            smGet (fun _ => []) (getSq t n).banks k = patchWords b w ∧ reg t (aSeqBankState n k) = 2 + w * 256 ∧
            reg t (aSeqBankVer n k) = fieldN (dramBytes s (reg s (aSeqPloadOfs n) * 4096) 64) 8 4 ∧
            reg t (aSeqBankEntry n k) = fieldN (dramBytes s (reg s (aSeqPloadOfs n) * 4096) 64) 0x12 2 ∧
            t = { s with seq := t.seq, regs := t.regs, sec := { s.sec with patches := t.sec.patches } } ∧
            RegsKept [aSeqBankState n k, aSeqBankVer n k, aSeqBankEntry n k, aSecCount 0] s t) ∧
        (sigCheck s 2 b sig ≠ 0 → ∃ t, exec (.patchLoadComplete n) s = .next t ∧ (getSq t n).loading = none ∧
          regF t (aSeqBankState n k) 0 8 = 3 + 5 * 16 ∧ t.sec = s.sec ∧ t.mem = s.mem ∧
          RegsKept (aSeqBankState n k :: aSeqCount n 8 :: aSecCount 1 :: recordCounts) s t)))

/-! ### The canonical forms -/

/-- Every command keeps memory and the calibration tables in their canonical form. -/
def Obligations.CanonicalFormsAreKept : Prop :=
  ∀ s t : State, FormsInv s → step s = .next t → FormsInv t
end

