-- ==== Sys2Proof/Laws/Sparse.lean ====
section
/-! SUPPORT. What reading and writing a sparse map say of each other, for any map, and that writing keeps the canonical
form. -/

namespace Sys2Proof.Machine

variable {α : Type}

theorem smGet_smInsert (d : Nat → α) (m : SMap α) (k : Nat) (v : α) (j : Nat) :
    smGet d (smInsert m k v) j = if j = k then v else smGet d m j := by
  induction m with
  | nil => simp only [smInsert, smGet]; grind
  | cons e m ih => simp only [smInsert]; split <;> (try split) <;> simp only [smGet] <;> grind

theorem smGet_smErase (d : Nat → α) (m : SMap α) (k j : Nat) :
    smGet d (smErase m k) j = if j = k then d k else smGet d m j := by
  induction m with
  | nil => simp only [smErase, smGet]; grind
  | cons e m ih => simp only [smErase]; split <;> (try simp only [smGet]) <;> grind

/-- A read after a write to the same key gives the value written, and a write leaves every other key alone. -/
theorem smGet_smSet [DecidableEq α] (d : Nat → α) (m : SMap α) (k : Nat) (v : α) (j : Nat) :
    smGet d (smSet d m k v) j = if j = k then v else smGet d m j := by
  simp only [smSet]; split
  · rw [smGet_smErase]; grind
  · rw [smGet_smInsert]

@[simp] theorem smGet_smSet_self [DecidableEq α] (d : Nat → α) (m : SMap α) (k : Nat) (v : α) :
    smGet d (smSet d m k v) k = v := by simp [smGet_smSet]

theorem smGet_smSet_ne [DecidableEq α] (d : Nat → α) (m : SMap α) {k j : Nat} (v : α) (h : j ≠ k) :
    smGet d (smSet d m k v) j = smGet d m j := by simp [smGet_smSet, h]

@[simp] theorem smGet_nil (d : Nat → α) (k : Nat) : smGet d [] k = d k := rfl

/-! ### The canonical form -/

theorem smWfFrom_mono [DecidableEq α] (d : Nat → α) {lo lo' : Nat} {m : SMap α} (h : lo' ≤ lo)
    (hm : smWfFrom d lo m = true) : smWfFrom d lo' m = true := by
  cases m with
  | nil => rfl
  | cons e m => simp only [smWfFrom, Bool.and_eq_true, decide_eq_true_eq] at *; exact ⟨⟨by omega, hm.1.2⟩, hm.2⟩

theorem smWfFrom_smInsert [DecidableEq α] (d : Nat → α) {m : SMap α} {lo k : Nat} {v : α} (hk : lo ≤ k)
    (hv : v ≠ d k) (hm : smWfFrom d lo m = true) : smWfFrom d lo (smInsert m k v) = true := by
  induction m generalizing lo with
  | nil => simp [smInsert, smWfFrom, hk, hv]
  | cons e m ih =>
    simp only [smWfFrom, Bool.and_eq_true, decide_eq_true_eq] at hm
    simp only [smInsert]; split
    · simp only [smWfFrom, Bool.and_eq_true, decide_eq_true_eq]; exact ⟨⟨hk, hv⟩, ⟨by omega, hm.1.2⟩, hm.2⟩
    · split
      · subst k; simp only [smWfFrom, Bool.and_eq_true, decide_eq_true_eq]; exact ⟨⟨hk, hv⟩, hm.2⟩
      · simp only [smWfFrom, Bool.and_eq_true, decide_eq_true_eq]
        exact ⟨hm.1, ih (by omega) hm.2⟩

theorem smWfFrom_smErase [DecidableEq α] (d : Nat → α) {m : SMap α} {lo : Nat} (k : Nat)
    (hm : smWfFrom d lo m = true) : smWfFrom d lo (smErase m k) = true := by
  induction m generalizing lo with
  | nil => rfl
  | cons e m ih =>
    simp only [smWfFrom, Bool.and_eq_true, decide_eq_true_eq] at hm
    simp only [smErase]; split
    · exact smWfFrom_mono d (by omega) (ih hm.2)
    · simp only [smWfFrom, Bool.and_eq_true, decide_eq_true_eq]; exact ⟨hm.1, ih hm.2⟩

/-- Writing a key keeps the canonical form. -/
theorem smWf_smSet [DecidableEq α] (d : Nat → α) {m : SMap α} (k : Nat) (v : α) (hm : smWf d m = true) :
    smWf d (smSet d m k v) = true := by
  simp only [smWf, smSet] at *; split
  · exact smWfFrom_smErase d k hm
  · exact smWfFrom_smInsert d (Nat.zero_le _) (by assumption) hm

theorem smWfFrom_filter [DecidableEq α] (d : Nat → α) (p : Nat × α → Bool) {m : SMap α} {lo : Nat}
    (hm : smWfFrom d lo m = true) : smWfFrom d lo (m.filter p) = true := by
  induction m generalizing lo with
  | nil => rfl
  | cons e m ih =>
    simp only [smWfFrom, Bool.and_eq_true, decide_eq_true_eq] at hm
    simp only [List.filter_cons]; split
    · simp only [smWfFrom, Bool.and_eq_true, decide_eq_true_eq]; exact ⟨hm.1, ih hm.2⟩
    · exact smWfFrom_mono d (by omega) (ih hm.2)

/-- Dropping listed keys keeps the canonical form. -/
theorem smWf_filter [DecidableEq α] (d : Nat → α) (p : Nat × α → Bool) {m : SMap α} (hm : smWf d m = true) :
    smWf d (m.filter p) = true := smWfFrom_filter d p hm

end Sys2Proof.Machine
end

