-- ==== Sys2Proof/Laws/State.lean ====
section
/-! SUPPORT. What each update of the state leaves in each field, one lemma a field, so that no proof unfolds a record
update; and what reading gives after writing. -/

namespace Sys2Proof.Machine

/-! ### An ordinary command's frame: the queue, the timebase and the variant come from the state before -/

@[simp] theorem keep_pending (s t : State) : (keep s t).pending = s.pending := rfl
@[simp] theorem keep_out (s t : State) : (keep s t).out = t.out := rfl
@[simp] theorem keep_free (s t : State) : (keep s t).free = t.free := rfl
@[simp] theorem keep_variant (s t : State) : (keep s t).variant = s.variant := rfl
@[simp] theorem keep_now (s t : State) : (keep s t).now = s.now := rfl
@[simp] theorem keep_pwr (s t : State) : (keep s t).pwr = t.pwr := rfl
@[simp] theorem keep_wall (s t : State) : (keep s t).wall = t.wall := rfl
@[simp] theorem keep_regs (s t : State) : (keep s t).regs = t.regs := rfl
@[simp] theorem keep_wide (s t : State) : (keep s t).wide = t.wide := rfl
@[simp] theorem keep_mem (s t : State) : (keep s t).mem = t.mem := rfl
@[simp] theorem keep_bad (s t : State) : (keep s t).bad = t.bad := rfl
@[simp] theorem keep_mtimecmp (s t : State) : (keep s t).mtimecmp = t.mtimecmp := rfl
@[simp] theorem keep_hartStart (s t : State) : (keep s t).hartStart = t.hartStart := rfl
@[simp] theorem keep_hart (s t : State) : (keep s t).hart = t.hart := rfl
@[simp] theorem keep_unfenced (s t : State) : (keep s t).unfenced = t.unfenced := rfl
@[simp] theorem keep_crossed (s t : State) : (keep s t).crossed = t.crossed := rfl
@[simp] theorem keep_reserve (s t : State) : (keep s t).reserve = t.reserve := rfl
@[simp] theorem keep_l2 (s t : State) : (keep s t).l2 = t.l2 := rfl
@[simp] theorem keep_l1 (s t : State) : (keep s t).l1 = t.l1 := rfl
@[simp] theorem keep_ind (s t : State) : (keep s t).ind = t.ind := rfl
@[simp] theorem keep_red (s t : State) : (keep s t).red = t.red := rfl
@[simp] theorem keep_strata (s t : State) : (keep s t).strata = t.strata := rfl
@[simp] theorem keep_mirror (s t : State) : (keep s t).mirror = t.mirror := rfl
@[simp] theorem keep_cap (s t : State) : (keep s t).cap = t.cap := rfl
@[simp] theorem keep_host (s t : State) : (keep s t).host = t.host := rfl
@[simp] theorem keep_cmd (s t : State) : (keep s t).cmd = t.cmd := rfl
@[simp] theorem keep_jrn (s t : State) : (keep s t).jrn = t.jrn := rfl
@[simp] theorem keep_flash (s t : State) : (keep s t).flash = t.flash := rfl
@[simp] theorem keep_hsl (s t : State) : (keep s t).hsl = t.hsl := rfl
@[simp] theorem keep_pre (s t : State) : (keep s t).pre = t.pre := rfl
@[simp] theorem keep_chan (s t : State) : (keep s t).chan = t.chan := rfl
@[simp] theorem keep_seq (s t : State) : (keep s t).seq = t.seq := rfl
@[simp] theorem keep_cal (s t : State) : (keep s t).cal = t.cal := rfl
@[simp] theorem keep_bas (s t : State) : (keep s t).bas = t.bas := rfl
@[simp] theorem keep_acc (s t : State) : (keep s t).acc = t.acc := rfl
@[simp] theorem keep_tdm (s t : State) : (keep s t).tdm = t.tdm := rfl
@[simp] theorem keep_tls (s t : State) : (keep s t).tls = t.tls := rfl
@[simp] theorem keep_flashBig (s t : State) : (keep s t).flashBig = t.flashBig := rfl
@[simp] theorem keep_otp (s t : State) : (keep s t).otp = t.otp := rfl
@[simp] theorem keep_sec (s t : State) : (keep s t).sec = t.sec := rfl
@[simp] theorem keep_boot (s t : State) : (keep s t).boot = t.boot := rfl

/-! ### emit -/

@[simp] theorem emit_pending (o : Out) (s : State) : (emit o s).pending = s.pending := rfl
@[simp] theorem emit_free (o : Out) (s : State) : (emit o s).free = s.free := rfl
@[simp] theorem emit_variant (o : Out) (s : State) : (emit o s).variant = s.variant := rfl
@[simp] theorem emit_now (o : Out) (s : State) : (emit o s).now = s.now := rfl
@[simp] theorem emit_pwr (o : Out) (s : State) : (emit o s).pwr = s.pwr := rfl
@[simp] theorem emit_wall (o : Out) (s : State) : (emit o s).wall = s.wall := rfl
@[simp] theorem emit_regs (o : Out) (s : State) : (emit o s).regs = s.regs := rfl
@[simp] theorem emit_wide (o : Out) (s : State) : (emit o s).wide = s.wide := rfl
@[simp] theorem emit_mem (o : Out) (s : State) : (emit o s).mem = s.mem := rfl
@[simp] theorem emit_bad (o : Out) (s : State) : (emit o s).bad = s.bad := rfl
@[simp] theorem emit_mtimecmp (o : Out) (s : State) : (emit o s).mtimecmp = s.mtimecmp := rfl
@[simp] theorem emit_hartStart (o : Out) (s : State) : (emit o s).hartStart = s.hartStart := rfl
@[simp] theorem emit_hart (o : Out) (s : State) : (emit o s).hart = s.hart := rfl
@[simp] theorem emit_unfenced (o : Out) (s : State) : (emit o s).unfenced = s.unfenced := rfl
@[simp] theorem emit_crossed (o : Out) (s : State) : (emit o s).crossed = s.crossed := rfl
@[simp] theorem emit_reserve (o : Out) (s : State) : (emit o s).reserve = s.reserve := rfl
@[simp] theorem emit_l2 (o : Out) (s : State) : (emit o s).l2 = s.l2 := rfl
@[simp] theorem emit_l1 (o : Out) (s : State) : (emit o s).l1 = s.l1 := rfl
@[simp] theorem emit_ind (o : Out) (s : State) : (emit o s).ind = s.ind := rfl
@[simp] theorem emit_red (o : Out) (s : State) : (emit o s).red = s.red := rfl
@[simp] theorem emit_strata (o : Out) (s : State) : (emit o s).strata = s.strata := rfl
@[simp] theorem emit_mirror (o : Out) (s : State) : (emit o s).mirror = s.mirror := rfl
@[simp] theorem emit_cap (o : Out) (s : State) : (emit o s).cap = s.cap := rfl
@[simp] theorem emit_host (o : Out) (s : State) : (emit o s).host = s.host := rfl
@[simp] theorem emit_cmd (o : Out) (s : State) : (emit o s).cmd = s.cmd := rfl
@[simp] theorem emit_jrn (o : Out) (s : State) : (emit o s).jrn = s.jrn := rfl
@[simp] theorem emit_flash (o : Out) (s : State) : (emit o s).flash = s.flash := rfl
@[simp] theorem emit_hsl (o : Out) (s : State) : (emit o s).hsl = s.hsl := rfl
@[simp] theorem emit_pre (o : Out) (s : State) : (emit o s).pre = s.pre := rfl
@[simp] theorem emit_chan (o : Out) (s : State) : (emit o s).chan = s.chan := rfl
@[simp] theorem emit_seq (o : Out) (s : State) : (emit o s).seq = s.seq := rfl
@[simp] theorem emit_cal (o : Out) (s : State) : (emit o s).cal = s.cal := rfl
@[simp] theorem emit_bas (o : Out) (s : State) : (emit o s).bas = s.bas := rfl
@[simp] theorem emit_acc (o : Out) (s : State) : (emit o s).acc = s.acc := rfl
@[simp] theorem emit_tdm (o : Out) (s : State) : (emit o s).tdm = s.tdm := rfl
@[simp] theorem emit_tls (o : Out) (s : State) : (emit o s).tls = s.tls := rfl
@[simp] theorem emit_flashBig (o : Out) (s : State) : (emit o s).flashBig = s.flashBig := rfl
@[simp] theorem emit_otp (o : Out) (s : State) : (emit o s).otp = s.otp := rfl
@[simp] theorem emit_sec (o : Out) (s : State) : (emit o s).sec = s.sec := rfl
@[simp] theorem emit_boot (o : Out) (s : State) : (emit o s).boot = s.boot := rfl

/-! ### setReg -/

@[simp] theorem setReg_pending (a v : Nat) (s : State) : (setReg a v s).pending = s.pending := rfl
@[simp] theorem setReg_out (a v : Nat) (s : State) : (setReg a v s).out = s.out := rfl
@[simp] theorem setReg_free (a v : Nat) (s : State) : (setReg a v s).free = s.free := rfl
@[simp] theorem setReg_variant (a v : Nat) (s : State) : (setReg a v s).variant = s.variant := rfl
@[simp] theorem setReg_now (a v : Nat) (s : State) : (setReg a v s).now = s.now := rfl
@[simp] theorem setReg_pwr (a v : Nat) (s : State) : (setReg a v s).pwr = s.pwr := rfl
@[simp] theorem setReg_wall (a v : Nat) (s : State) : (setReg a v s).wall = s.wall := rfl
@[simp] theorem setReg_wide (a v : Nat) (s : State) : (setReg a v s).wide = s.wide := rfl
@[simp] theorem setReg_mem (a v : Nat) (s : State) : (setReg a v s).mem = s.mem := rfl
@[simp] theorem setReg_bad (a v : Nat) (s : State) : (setReg a v s).bad = s.bad := rfl
@[simp] theorem setReg_mtimecmp (a v : Nat) (s : State) : (setReg a v s).mtimecmp = s.mtimecmp := rfl
@[simp] theorem setReg_hartStart (a v : Nat) (s : State) : (setReg a v s).hartStart = s.hartStart := rfl
@[simp] theorem setReg_hart (a v : Nat) (s : State) : (setReg a v s).hart = s.hart := rfl
@[simp] theorem setReg_unfenced (a v : Nat) (s : State) : (setReg a v s).unfenced = s.unfenced := rfl
@[simp] theorem setReg_crossed (a v : Nat) (s : State) : (setReg a v s).crossed = s.crossed := rfl
@[simp] theorem setReg_reserve (a v : Nat) (s : State) : (setReg a v s).reserve = s.reserve := rfl
@[simp] theorem setReg_l2 (a v : Nat) (s : State) : (setReg a v s).l2 = s.l2 := rfl
@[simp] theorem setReg_l1 (a v : Nat) (s : State) : (setReg a v s).l1 = s.l1 := rfl
@[simp] theorem setReg_ind (a v : Nat) (s : State) : (setReg a v s).ind = s.ind := rfl
@[simp] theorem setReg_red (a v : Nat) (s : State) : (setReg a v s).red = s.red := rfl
@[simp] theorem setReg_strata (a v : Nat) (s : State) : (setReg a v s).strata = s.strata := rfl
@[simp] theorem setReg_mirror (a v : Nat) (s : State) : (setReg a v s).mirror = s.mirror := rfl
@[simp] theorem setReg_cap (a v : Nat) (s : State) : (setReg a v s).cap = s.cap := rfl
@[simp] theorem setReg_host (a v : Nat) (s : State) : (setReg a v s).host = s.host := rfl
@[simp] theorem setReg_cmd (a v : Nat) (s : State) : (setReg a v s).cmd = s.cmd := rfl
@[simp] theorem setReg_jrn (a v : Nat) (s : State) : (setReg a v s).jrn = s.jrn := rfl
@[simp] theorem setReg_flash (a v : Nat) (s : State) : (setReg a v s).flash = s.flash := rfl
@[simp] theorem setReg_hsl (a v : Nat) (s : State) : (setReg a v s).hsl = s.hsl := rfl
@[simp] theorem setReg_pre (a v : Nat) (s : State) : (setReg a v s).pre = s.pre := rfl
@[simp] theorem setReg_chan (a v : Nat) (s : State) : (setReg a v s).chan = s.chan := rfl
@[simp] theorem setReg_seq (a v : Nat) (s : State) : (setReg a v s).seq = s.seq := rfl
@[simp] theorem setReg_cal (a v : Nat) (s : State) : (setReg a v s).cal = s.cal := rfl
@[simp] theorem setReg_bas (a v : Nat) (s : State) : (setReg a v s).bas = s.bas := rfl
@[simp] theorem setReg_acc (a v : Nat) (s : State) : (setReg a v s).acc = s.acc := rfl
@[simp] theorem setReg_tdm (a v : Nat) (s : State) : (setReg a v s).tdm = s.tdm := rfl
@[simp] theorem setReg_tls (a v : Nat) (s : State) : (setReg a v s).tls = s.tls := rfl
@[simp] theorem setReg_flashBig (a v : Nat) (s : State) : (setReg a v s).flashBig = s.flashBig := rfl
@[simp] theorem setReg_otp (a v : Nat) (s : State) : (setReg a v s).otp = s.otp := rfl
@[simp] theorem setReg_sec (a v : Nat) (s : State) : (setReg a v s).sec = s.sec := rfl
@[simp] theorem setReg_boot (a v : Nat) (s : State) : (setReg a v s).boot = s.boot := rfl

/-! ### setRegF -/

@[simp] theorem setRegF_pending (a lo len v : Nat) (s : State) : (setRegF a lo len v s).pending = s.pending := rfl
@[simp] theorem setRegF_out (a lo len v : Nat) (s : State) : (setRegF a lo len v s).out = s.out := rfl
@[simp] theorem setRegF_free (a lo len v : Nat) (s : State) : (setRegF a lo len v s).free = s.free := rfl
@[simp] theorem setRegF_variant (a lo len v : Nat) (s : State) : (setRegF a lo len v s).variant = s.variant := rfl
@[simp] theorem setRegF_now (a lo len v : Nat) (s : State) : (setRegF a lo len v s).now = s.now := rfl
@[simp] theorem setRegF_pwr (a lo len v : Nat) (s : State) : (setRegF a lo len v s).pwr = s.pwr := rfl
@[simp] theorem setRegF_wall (a lo len v : Nat) (s : State) : (setRegF a lo len v s).wall = s.wall := rfl
@[simp] theorem setRegF_wide (a lo len v : Nat) (s : State) : (setRegF a lo len v s).wide = s.wide := rfl
@[simp] theorem setRegF_mem (a lo len v : Nat) (s : State) : (setRegF a lo len v s).mem = s.mem := rfl
@[simp] theorem setRegF_bad (a lo len v : Nat) (s : State) : (setRegF a lo len v s).bad = s.bad := rfl
@[simp] theorem setRegF_mtimecmp (a lo len v : Nat) (s : State) : (setRegF a lo len v s).mtimecmp = s.mtimecmp := rfl
@[simp] theorem setRegF_hartStart (a lo len v : Nat) (s : State) : (setRegF a lo len v s).hartStart = s.hartStart := rfl
@[simp] theorem setRegF_hart (a lo len v : Nat) (s : State) : (setRegF a lo len v s).hart = s.hart := rfl
@[simp] theorem setRegF_unfenced (a lo len v : Nat) (s : State) : (setRegF a lo len v s).unfenced = s.unfenced := rfl
@[simp] theorem setRegF_crossed (a lo len v : Nat) (s : State) : (setRegF a lo len v s).crossed = s.crossed := rfl
@[simp] theorem setRegF_reserve (a lo len v : Nat) (s : State) : (setRegF a lo len v s).reserve = s.reserve := rfl
@[simp] theorem setRegF_l2 (a lo len v : Nat) (s : State) : (setRegF a lo len v s).l2 = s.l2 := rfl
@[simp] theorem setRegF_l1 (a lo len v : Nat) (s : State) : (setRegF a lo len v s).l1 = s.l1 := rfl
@[simp] theorem setRegF_ind (a lo len v : Nat) (s : State) : (setRegF a lo len v s).ind = s.ind := rfl
@[simp] theorem setRegF_red (a lo len v : Nat) (s : State) : (setRegF a lo len v s).red = s.red := rfl
@[simp] theorem setRegF_strata (a lo len v : Nat) (s : State) : (setRegF a lo len v s).strata = s.strata := rfl
@[simp] theorem setRegF_mirror (a lo len v : Nat) (s : State) : (setRegF a lo len v s).mirror = s.mirror := rfl
@[simp] theorem setRegF_cap (a lo len v : Nat) (s : State) : (setRegF a lo len v s).cap = s.cap := rfl
@[simp] theorem setRegF_host (a lo len v : Nat) (s : State) : (setRegF a lo len v s).host = s.host := rfl
@[simp] theorem setRegF_cmd (a lo len v : Nat) (s : State) : (setRegF a lo len v s).cmd = s.cmd := rfl
@[simp] theorem setRegF_jrn (a lo len v : Nat) (s : State) : (setRegF a lo len v s).jrn = s.jrn := rfl
@[simp] theorem setRegF_flash (a lo len v : Nat) (s : State) : (setRegF a lo len v s).flash = s.flash := rfl
@[simp] theorem setRegF_hsl (a lo len v : Nat) (s : State) : (setRegF a lo len v s).hsl = s.hsl := rfl
@[simp] theorem setRegF_pre (a lo len v : Nat) (s : State) : (setRegF a lo len v s).pre = s.pre := rfl
@[simp] theorem setRegF_chan (a lo len v : Nat) (s : State) : (setRegF a lo len v s).chan = s.chan := rfl
@[simp] theorem setRegF_seq (a lo len v : Nat) (s : State) : (setRegF a lo len v s).seq = s.seq := rfl
@[simp] theorem setRegF_cal (a lo len v : Nat) (s : State) : (setRegF a lo len v s).cal = s.cal := rfl
@[simp] theorem setRegF_bas (a lo len v : Nat) (s : State) : (setRegF a lo len v s).bas = s.bas := rfl
@[simp] theorem setRegF_acc (a lo len v : Nat) (s : State) : (setRegF a lo len v s).acc = s.acc := rfl
@[simp] theorem setRegF_tdm (a lo len v : Nat) (s : State) : (setRegF a lo len v s).tdm = s.tdm := rfl
@[simp] theorem setRegF_tls (a lo len v : Nat) (s : State) : (setRegF a lo len v s).tls = s.tls := rfl
@[simp] theorem setRegF_flashBig (a lo len v : Nat) (s : State) : (setRegF a lo len v s).flashBig = s.flashBig := rfl
@[simp] theorem setRegF_otp (a lo len v : Nat) (s : State) : (setRegF a lo len v s).otp = s.otp := rfl
@[simp] theorem setRegF_sec (a lo len v : Nat) (s : State) : (setRegF a lo len v s).sec = s.sec := rfl
@[simp] theorem setRegF_boot (a lo len v : Nat) (s : State) : (setRegF a lo len v s).boot = s.boot := rfl

/-! ### incRegBy -/

@[simp] theorem incRegBy_pending (a k : Nat) (s : State) : (incRegBy a k s).pending = s.pending := rfl
@[simp] theorem incRegBy_out (a k : Nat) (s : State) : (incRegBy a k s).out = s.out := rfl
@[simp] theorem incRegBy_free (a k : Nat) (s : State) : (incRegBy a k s).free = s.free := rfl
@[simp] theorem incRegBy_variant (a k : Nat) (s : State) : (incRegBy a k s).variant = s.variant := rfl
@[simp] theorem incRegBy_now (a k : Nat) (s : State) : (incRegBy a k s).now = s.now := rfl
@[simp] theorem incRegBy_pwr (a k : Nat) (s : State) : (incRegBy a k s).pwr = s.pwr := rfl
@[simp] theorem incRegBy_wall (a k : Nat) (s : State) : (incRegBy a k s).wall = s.wall := rfl
@[simp] theorem incRegBy_wide (a k : Nat) (s : State) : (incRegBy a k s).wide = s.wide := rfl
@[simp] theorem incRegBy_mem (a k : Nat) (s : State) : (incRegBy a k s).mem = s.mem := rfl
@[simp] theorem incRegBy_bad (a k : Nat) (s : State) : (incRegBy a k s).bad = s.bad := rfl
@[simp] theorem incRegBy_mtimecmp (a k : Nat) (s : State) : (incRegBy a k s).mtimecmp = s.mtimecmp := rfl
@[simp] theorem incRegBy_hartStart (a k : Nat) (s : State) : (incRegBy a k s).hartStart = s.hartStart := rfl
@[simp] theorem incRegBy_hart (a k : Nat) (s : State) : (incRegBy a k s).hart = s.hart := rfl
@[simp] theorem incRegBy_unfenced (a k : Nat) (s : State) : (incRegBy a k s).unfenced = s.unfenced := rfl
@[simp] theorem incRegBy_crossed (a k : Nat) (s : State) : (incRegBy a k s).crossed = s.crossed := rfl
@[simp] theorem incRegBy_reserve (a k : Nat) (s : State) : (incRegBy a k s).reserve = s.reserve := rfl
@[simp] theorem incRegBy_l2 (a k : Nat) (s : State) : (incRegBy a k s).l2 = s.l2 := rfl
@[simp] theorem incRegBy_l1 (a k : Nat) (s : State) : (incRegBy a k s).l1 = s.l1 := rfl
@[simp] theorem incRegBy_ind (a k : Nat) (s : State) : (incRegBy a k s).ind = s.ind := rfl
@[simp] theorem incRegBy_red (a k : Nat) (s : State) : (incRegBy a k s).red = s.red := rfl
@[simp] theorem incRegBy_strata (a k : Nat) (s : State) : (incRegBy a k s).strata = s.strata := rfl
@[simp] theorem incRegBy_mirror (a k : Nat) (s : State) : (incRegBy a k s).mirror = s.mirror := rfl
@[simp] theorem incRegBy_cap (a k : Nat) (s : State) : (incRegBy a k s).cap = s.cap := rfl
@[simp] theorem incRegBy_host (a k : Nat) (s : State) : (incRegBy a k s).host = s.host := rfl
@[simp] theorem incRegBy_cmd (a k : Nat) (s : State) : (incRegBy a k s).cmd = s.cmd := rfl
@[simp] theorem incRegBy_jrn (a k : Nat) (s : State) : (incRegBy a k s).jrn = s.jrn := rfl
@[simp] theorem incRegBy_flash (a k : Nat) (s : State) : (incRegBy a k s).flash = s.flash := rfl
@[simp] theorem incRegBy_hsl (a k : Nat) (s : State) : (incRegBy a k s).hsl = s.hsl := rfl
@[simp] theorem incRegBy_pre (a k : Nat) (s : State) : (incRegBy a k s).pre = s.pre := rfl
@[simp] theorem incRegBy_chan (a k : Nat) (s : State) : (incRegBy a k s).chan = s.chan := rfl
@[simp] theorem incRegBy_seq (a k : Nat) (s : State) : (incRegBy a k s).seq = s.seq := rfl
@[simp] theorem incRegBy_cal (a k : Nat) (s : State) : (incRegBy a k s).cal = s.cal := rfl
@[simp] theorem incRegBy_bas (a k : Nat) (s : State) : (incRegBy a k s).bas = s.bas := rfl
@[simp] theorem incRegBy_acc (a k : Nat) (s : State) : (incRegBy a k s).acc = s.acc := rfl
@[simp] theorem incRegBy_tdm (a k : Nat) (s : State) : (incRegBy a k s).tdm = s.tdm := rfl
@[simp] theorem incRegBy_tls (a k : Nat) (s : State) : (incRegBy a k s).tls = s.tls := rfl
@[simp] theorem incRegBy_flashBig (a k : Nat) (s : State) : (incRegBy a k s).flashBig = s.flashBig := rfl
@[simp] theorem incRegBy_otp (a k : Nat) (s : State) : (incRegBy a k s).otp = s.otp := rfl
@[simp] theorem incRegBy_sec (a k : Nat) (s : State) : (incRegBy a k s).sec = s.sec := rfl
@[simp] theorem incRegBy_boot (a k : Nat) (s : State) : (incRegBy a k s).boot = s.boot := rfl

/-! ### incReg -/

@[simp] theorem incReg_pending (a : Nat) (s : State) : (incReg a s).pending = s.pending := rfl
@[simp] theorem incReg_out (a : Nat) (s : State) : (incReg a s).out = s.out := rfl
@[simp] theorem incReg_free (a : Nat) (s : State) : (incReg a s).free = s.free := rfl
@[simp] theorem incReg_variant (a : Nat) (s : State) : (incReg a s).variant = s.variant := rfl
@[simp] theorem incReg_now (a : Nat) (s : State) : (incReg a s).now = s.now := rfl
@[simp] theorem incReg_pwr (a : Nat) (s : State) : (incReg a s).pwr = s.pwr := rfl
@[simp] theorem incReg_wall (a : Nat) (s : State) : (incReg a s).wall = s.wall := rfl
@[simp] theorem incReg_wide (a : Nat) (s : State) : (incReg a s).wide = s.wide := rfl
@[simp] theorem incReg_mem (a : Nat) (s : State) : (incReg a s).mem = s.mem := rfl
@[simp] theorem incReg_bad (a : Nat) (s : State) : (incReg a s).bad = s.bad := rfl
@[simp] theorem incReg_mtimecmp (a : Nat) (s : State) : (incReg a s).mtimecmp = s.mtimecmp := rfl
@[simp] theorem incReg_hartStart (a : Nat) (s : State) : (incReg a s).hartStart = s.hartStart := rfl
@[simp] theorem incReg_hart (a : Nat) (s : State) : (incReg a s).hart = s.hart := rfl
@[simp] theorem incReg_unfenced (a : Nat) (s : State) : (incReg a s).unfenced = s.unfenced := rfl
@[simp] theorem incReg_crossed (a : Nat) (s : State) : (incReg a s).crossed = s.crossed := rfl
@[simp] theorem incReg_reserve (a : Nat) (s : State) : (incReg a s).reserve = s.reserve := rfl
@[simp] theorem incReg_l2 (a : Nat) (s : State) : (incReg a s).l2 = s.l2 := rfl
@[simp] theorem incReg_l1 (a : Nat) (s : State) : (incReg a s).l1 = s.l1 := rfl
@[simp] theorem incReg_ind (a : Nat) (s : State) : (incReg a s).ind = s.ind := rfl
@[simp] theorem incReg_red (a : Nat) (s : State) : (incReg a s).red = s.red := rfl
@[simp] theorem incReg_strata (a : Nat) (s : State) : (incReg a s).strata = s.strata := rfl
@[simp] theorem incReg_mirror (a : Nat) (s : State) : (incReg a s).mirror = s.mirror := rfl
@[simp] theorem incReg_cap (a : Nat) (s : State) : (incReg a s).cap = s.cap := rfl
@[simp] theorem incReg_host (a : Nat) (s : State) : (incReg a s).host = s.host := rfl
@[simp] theorem incReg_cmd (a : Nat) (s : State) : (incReg a s).cmd = s.cmd := rfl
@[simp] theorem incReg_jrn (a : Nat) (s : State) : (incReg a s).jrn = s.jrn := rfl
@[simp] theorem incReg_flash (a : Nat) (s : State) : (incReg a s).flash = s.flash := rfl
@[simp] theorem incReg_hsl (a : Nat) (s : State) : (incReg a s).hsl = s.hsl := rfl
@[simp] theorem incReg_pre (a : Nat) (s : State) : (incReg a s).pre = s.pre := rfl
@[simp] theorem incReg_chan (a : Nat) (s : State) : (incReg a s).chan = s.chan := rfl
@[simp] theorem incReg_seq (a : Nat) (s : State) : (incReg a s).seq = s.seq := rfl
@[simp] theorem incReg_cal (a : Nat) (s : State) : (incReg a s).cal = s.cal := rfl
@[simp] theorem incReg_bas (a : Nat) (s : State) : (incReg a s).bas = s.bas := rfl
@[simp] theorem incReg_acc (a : Nat) (s : State) : (incReg a s).acc = s.acc := rfl
@[simp] theorem incReg_tdm (a : Nat) (s : State) : (incReg a s).tdm = s.tdm := rfl
@[simp] theorem incReg_tls (a : Nat) (s : State) : (incReg a s).tls = s.tls := rfl
@[simp] theorem incReg_flashBig (a : Nat) (s : State) : (incReg a s).flashBig = s.flashBig := rfl
@[simp] theorem incReg_otp (a : Nat) (s : State) : (incReg a s).otp = s.otp := rfl
@[simp] theorem incReg_sec (a : Nat) (s : State) : (incReg a s).sec = s.sec := rfl
@[simp] theorem incReg_boot (a : Nat) (s : State) : (incReg a s).boot = s.boot := rfl

/-! ### incRegF -/

@[simp] theorem incRegF_pending (a lo len : Nat) (s : State) : (incRegF a lo len s).pending = s.pending := rfl
@[simp] theorem incRegF_out (a lo len : Nat) (s : State) : (incRegF a lo len s).out = s.out := rfl
@[simp] theorem incRegF_free (a lo len : Nat) (s : State) : (incRegF a lo len s).free = s.free := rfl
@[simp] theorem incRegF_variant (a lo len : Nat) (s : State) : (incRegF a lo len s).variant = s.variant := rfl
@[simp] theorem incRegF_now (a lo len : Nat) (s : State) : (incRegF a lo len s).now = s.now := rfl
@[simp] theorem incRegF_pwr (a lo len : Nat) (s : State) : (incRegF a lo len s).pwr = s.pwr := rfl
@[simp] theorem incRegF_wall (a lo len : Nat) (s : State) : (incRegF a lo len s).wall = s.wall := rfl
@[simp] theorem incRegF_wide (a lo len : Nat) (s : State) : (incRegF a lo len s).wide = s.wide := rfl
@[simp] theorem incRegF_mem (a lo len : Nat) (s : State) : (incRegF a lo len s).mem = s.mem := rfl
@[simp] theorem incRegF_bad (a lo len : Nat) (s : State) : (incRegF a lo len s).bad = s.bad := rfl
@[simp] theorem incRegF_mtimecmp (a lo len : Nat) (s : State) : (incRegF a lo len s).mtimecmp = s.mtimecmp := rfl
@[simp] theorem incRegF_hartStart (a lo len : Nat) (s : State) : (incRegF a lo len s).hartStart = s.hartStart := rfl
@[simp] theorem incRegF_hart (a lo len : Nat) (s : State) : (incRegF a lo len s).hart = s.hart := rfl
@[simp] theorem incRegF_unfenced (a lo len : Nat) (s : State) : (incRegF a lo len s).unfenced = s.unfenced := rfl
@[simp] theorem incRegF_crossed (a lo len : Nat) (s : State) : (incRegF a lo len s).crossed = s.crossed := rfl
@[simp] theorem incRegF_reserve (a lo len : Nat) (s : State) : (incRegF a lo len s).reserve = s.reserve := rfl
@[simp] theorem incRegF_l2 (a lo len : Nat) (s : State) : (incRegF a lo len s).l2 = s.l2 := rfl
@[simp] theorem incRegF_l1 (a lo len : Nat) (s : State) : (incRegF a lo len s).l1 = s.l1 := rfl
@[simp] theorem incRegF_ind (a lo len : Nat) (s : State) : (incRegF a lo len s).ind = s.ind := rfl
@[simp] theorem incRegF_red (a lo len : Nat) (s : State) : (incRegF a lo len s).red = s.red := rfl
@[simp] theorem incRegF_strata (a lo len : Nat) (s : State) : (incRegF a lo len s).strata = s.strata := rfl
@[simp] theorem incRegF_mirror (a lo len : Nat) (s : State) : (incRegF a lo len s).mirror = s.mirror := rfl
@[simp] theorem incRegF_cap (a lo len : Nat) (s : State) : (incRegF a lo len s).cap = s.cap := rfl
@[simp] theorem incRegF_host (a lo len : Nat) (s : State) : (incRegF a lo len s).host = s.host := rfl
@[simp] theorem incRegF_cmd (a lo len : Nat) (s : State) : (incRegF a lo len s).cmd = s.cmd := rfl
@[simp] theorem incRegF_jrn (a lo len : Nat) (s : State) : (incRegF a lo len s).jrn = s.jrn := rfl
@[simp] theorem incRegF_flash (a lo len : Nat) (s : State) : (incRegF a lo len s).flash = s.flash := rfl
@[simp] theorem incRegF_hsl (a lo len : Nat) (s : State) : (incRegF a lo len s).hsl = s.hsl := rfl
@[simp] theorem incRegF_pre (a lo len : Nat) (s : State) : (incRegF a lo len s).pre = s.pre := rfl
@[simp] theorem incRegF_chan (a lo len : Nat) (s : State) : (incRegF a lo len s).chan = s.chan := rfl
@[simp] theorem incRegF_seq (a lo len : Nat) (s : State) : (incRegF a lo len s).seq = s.seq := rfl
@[simp] theorem incRegF_cal (a lo len : Nat) (s : State) : (incRegF a lo len s).cal = s.cal := rfl
@[simp] theorem incRegF_bas (a lo len : Nat) (s : State) : (incRegF a lo len s).bas = s.bas := rfl
@[simp] theorem incRegF_acc (a lo len : Nat) (s : State) : (incRegF a lo len s).acc = s.acc := rfl
@[simp] theorem incRegF_tdm (a lo len : Nat) (s : State) : (incRegF a lo len s).tdm = s.tdm := rfl
@[simp] theorem incRegF_tls (a lo len : Nat) (s : State) : (incRegF a lo len s).tls = s.tls := rfl
@[simp] theorem incRegF_flashBig (a lo len : Nat) (s : State) : (incRegF a lo len s).flashBig = s.flashBig := rfl
@[simp] theorem incRegF_otp (a lo len : Nat) (s : State) : (incRegF a lo len s).otp = s.otp := rfl
@[simp] theorem incRegF_sec (a lo len : Nat) (s : State) : (incRegF a lo len s).sec = s.sec := rfl
@[simp] theorem incRegF_boot (a lo len : Nat) (s : State) : (incRegF a lo len s).boot = s.boot := rfl

/-! ### setWide -/

@[simp] theorem setWide_pending (a v : Nat) (s : State) : (setWide a v s).pending = s.pending := rfl
@[simp] theorem setWide_out (a v : Nat) (s : State) : (setWide a v s).out = s.out := rfl
@[simp] theorem setWide_free (a v : Nat) (s : State) : (setWide a v s).free = s.free := rfl
@[simp] theorem setWide_variant (a v : Nat) (s : State) : (setWide a v s).variant = s.variant := rfl
@[simp] theorem setWide_now (a v : Nat) (s : State) : (setWide a v s).now = s.now := rfl
@[simp] theorem setWide_pwr (a v : Nat) (s : State) : (setWide a v s).pwr = s.pwr := rfl
@[simp] theorem setWide_wall (a v : Nat) (s : State) : (setWide a v s).wall = s.wall := rfl
@[simp] theorem setWide_regs (a v : Nat) (s : State) : (setWide a v s).regs = s.regs := rfl
@[simp] theorem setWide_mem (a v : Nat) (s : State) : (setWide a v s).mem = s.mem := rfl
@[simp] theorem setWide_bad (a v : Nat) (s : State) : (setWide a v s).bad = s.bad := rfl
@[simp] theorem setWide_mtimecmp (a v : Nat) (s : State) : (setWide a v s).mtimecmp = s.mtimecmp := rfl
@[simp] theorem setWide_hartStart (a v : Nat) (s : State) : (setWide a v s).hartStart = s.hartStart := rfl
@[simp] theorem setWide_hart (a v : Nat) (s : State) : (setWide a v s).hart = s.hart := rfl
@[simp] theorem setWide_unfenced (a v : Nat) (s : State) : (setWide a v s).unfenced = s.unfenced := rfl
@[simp] theorem setWide_crossed (a v : Nat) (s : State) : (setWide a v s).crossed = s.crossed := rfl
@[simp] theorem setWide_reserve (a v : Nat) (s : State) : (setWide a v s).reserve = s.reserve := rfl
@[simp] theorem setWide_l2 (a v : Nat) (s : State) : (setWide a v s).l2 = s.l2 := rfl
@[simp] theorem setWide_l1 (a v : Nat) (s : State) : (setWide a v s).l1 = s.l1 := rfl
@[simp] theorem setWide_ind (a v : Nat) (s : State) : (setWide a v s).ind = s.ind := rfl
@[simp] theorem setWide_red (a v : Nat) (s : State) : (setWide a v s).red = s.red := rfl
@[simp] theorem setWide_strata (a v : Nat) (s : State) : (setWide a v s).strata = s.strata := rfl
@[simp] theorem setWide_mirror (a v : Nat) (s : State) : (setWide a v s).mirror = s.mirror := rfl
@[simp] theorem setWide_cap (a v : Nat) (s : State) : (setWide a v s).cap = s.cap := rfl
@[simp] theorem setWide_host (a v : Nat) (s : State) : (setWide a v s).host = s.host := rfl
@[simp] theorem setWide_cmd (a v : Nat) (s : State) : (setWide a v s).cmd = s.cmd := rfl
@[simp] theorem setWide_jrn (a v : Nat) (s : State) : (setWide a v s).jrn = s.jrn := rfl
@[simp] theorem setWide_flash (a v : Nat) (s : State) : (setWide a v s).flash = s.flash := rfl
@[simp] theorem setWide_hsl (a v : Nat) (s : State) : (setWide a v s).hsl = s.hsl := rfl
@[simp] theorem setWide_pre (a v : Nat) (s : State) : (setWide a v s).pre = s.pre := rfl
@[simp] theorem setWide_chan (a v : Nat) (s : State) : (setWide a v s).chan = s.chan := rfl
@[simp] theorem setWide_seq (a v : Nat) (s : State) : (setWide a v s).seq = s.seq := rfl
@[simp] theorem setWide_cal (a v : Nat) (s : State) : (setWide a v s).cal = s.cal := rfl
@[simp] theorem setWide_bas (a v : Nat) (s : State) : (setWide a v s).bas = s.bas := rfl
@[simp] theorem setWide_acc (a v : Nat) (s : State) : (setWide a v s).acc = s.acc := rfl
@[simp] theorem setWide_tdm (a v : Nat) (s : State) : (setWide a v s).tdm = s.tdm := rfl
@[simp] theorem setWide_tls (a v : Nat) (s : State) : (setWide a v s).tls = s.tls := rfl
@[simp] theorem setWide_flashBig (a v : Nat) (s : State) : (setWide a v s).flashBig = s.flashBig := rfl
@[simp] theorem setWide_otp (a v : Nat) (s : State) : (setWide a v s).otp = s.otp := rfl
@[simp] theorem setWide_sec (a v : Nat) (s : State) : (setWide a v s).sec = s.sec := rfl
@[simp] theorem setWide_boot (a v : Nat) (s : State) : (setWide a v s).boot = s.boot := rfl

/-! ### incWideBy -/

@[simp] theorem incWideBy_pending (a k : Nat) (s : State) : (incWideBy a k s).pending = s.pending := rfl
@[simp] theorem incWideBy_out (a k : Nat) (s : State) : (incWideBy a k s).out = s.out := rfl
@[simp] theorem incWideBy_free (a k : Nat) (s : State) : (incWideBy a k s).free = s.free := rfl
@[simp] theorem incWideBy_variant (a k : Nat) (s : State) : (incWideBy a k s).variant = s.variant := rfl
@[simp] theorem incWideBy_now (a k : Nat) (s : State) : (incWideBy a k s).now = s.now := rfl
@[simp] theorem incWideBy_pwr (a k : Nat) (s : State) : (incWideBy a k s).pwr = s.pwr := rfl
@[simp] theorem incWideBy_wall (a k : Nat) (s : State) : (incWideBy a k s).wall = s.wall := rfl
@[simp] theorem incWideBy_regs (a k : Nat) (s : State) : (incWideBy a k s).regs = s.regs := rfl
@[simp] theorem incWideBy_mem (a k : Nat) (s : State) : (incWideBy a k s).mem = s.mem := rfl
@[simp] theorem incWideBy_bad (a k : Nat) (s : State) : (incWideBy a k s).bad = s.bad := rfl
@[simp] theorem incWideBy_mtimecmp (a k : Nat) (s : State) : (incWideBy a k s).mtimecmp = s.mtimecmp := rfl
@[simp] theorem incWideBy_hartStart (a k : Nat) (s : State) : (incWideBy a k s).hartStart = s.hartStart := rfl
@[simp] theorem incWideBy_hart (a k : Nat) (s : State) : (incWideBy a k s).hart = s.hart := rfl
@[simp] theorem incWideBy_unfenced (a k : Nat) (s : State) : (incWideBy a k s).unfenced = s.unfenced := rfl
@[simp] theorem incWideBy_crossed (a k : Nat) (s : State) : (incWideBy a k s).crossed = s.crossed := rfl
@[simp] theorem incWideBy_reserve (a k : Nat) (s : State) : (incWideBy a k s).reserve = s.reserve := rfl
@[simp] theorem incWideBy_l2 (a k : Nat) (s : State) : (incWideBy a k s).l2 = s.l2 := rfl
@[simp] theorem incWideBy_l1 (a k : Nat) (s : State) : (incWideBy a k s).l1 = s.l1 := rfl
@[simp] theorem incWideBy_ind (a k : Nat) (s : State) : (incWideBy a k s).ind = s.ind := rfl
@[simp] theorem incWideBy_red (a k : Nat) (s : State) : (incWideBy a k s).red = s.red := rfl
@[simp] theorem incWideBy_strata (a k : Nat) (s : State) : (incWideBy a k s).strata = s.strata := rfl
@[simp] theorem incWideBy_mirror (a k : Nat) (s : State) : (incWideBy a k s).mirror = s.mirror := rfl
@[simp] theorem incWideBy_cap (a k : Nat) (s : State) : (incWideBy a k s).cap = s.cap := rfl
@[simp] theorem incWideBy_host (a k : Nat) (s : State) : (incWideBy a k s).host = s.host := rfl
@[simp] theorem incWideBy_cmd (a k : Nat) (s : State) : (incWideBy a k s).cmd = s.cmd := rfl
@[simp] theorem incWideBy_jrn (a k : Nat) (s : State) : (incWideBy a k s).jrn = s.jrn := rfl
@[simp] theorem incWideBy_flash (a k : Nat) (s : State) : (incWideBy a k s).flash = s.flash := rfl
@[simp] theorem incWideBy_hsl (a k : Nat) (s : State) : (incWideBy a k s).hsl = s.hsl := rfl
@[simp] theorem incWideBy_pre (a k : Nat) (s : State) : (incWideBy a k s).pre = s.pre := rfl
@[simp] theorem incWideBy_chan (a k : Nat) (s : State) : (incWideBy a k s).chan = s.chan := rfl
@[simp] theorem incWideBy_seq (a k : Nat) (s : State) : (incWideBy a k s).seq = s.seq := rfl
@[simp] theorem incWideBy_cal (a k : Nat) (s : State) : (incWideBy a k s).cal = s.cal := rfl
@[simp] theorem incWideBy_bas (a k : Nat) (s : State) : (incWideBy a k s).bas = s.bas := rfl
@[simp] theorem incWideBy_acc (a k : Nat) (s : State) : (incWideBy a k s).acc = s.acc := rfl
@[simp] theorem incWideBy_tdm (a k : Nat) (s : State) : (incWideBy a k s).tdm = s.tdm := rfl
@[simp] theorem incWideBy_tls (a k : Nat) (s : State) : (incWideBy a k s).tls = s.tls := rfl
@[simp] theorem incWideBy_flashBig (a k : Nat) (s : State) : (incWideBy a k s).flashBig = s.flashBig := rfl
@[simp] theorem incWideBy_otp (a k : Nat) (s : State) : (incWideBy a k s).otp = s.otp := rfl
@[simp] theorem incWideBy_sec (a k : Nat) (s : State) : (incWideBy a k s).sec = s.sec := rfl
@[simp] theorem incWideBy_boot (a k : Nat) (s : State) : (incWideBy a k s).boot = s.boot := rfl

/-! ### memWrite -/

@[simp] theorem memWrite_pending (a : Nat) (bs : List Byte) (s : State) : (memWrite a bs s).pending = s.pending := rfl
@[simp] theorem memWrite_out (a : Nat) (bs : List Byte) (s : State) : (memWrite a bs s).out = s.out := rfl
@[simp] theorem memWrite_free (a : Nat) (bs : List Byte) (s : State) : (memWrite a bs s).free = s.free := rfl
@[simp] theorem memWrite_variant (a : Nat) (bs : List Byte) (s : State) : (memWrite a bs s).variant = s.variant := rfl
@[simp] theorem memWrite_now (a : Nat) (bs : List Byte) (s : State) : (memWrite a bs s).now = s.now := rfl
@[simp] theorem memWrite_pwr (a : Nat) (bs : List Byte) (s : State) : (memWrite a bs s).pwr = s.pwr := rfl
@[simp] theorem memWrite_wall (a : Nat) (bs : List Byte) (s : State) : (memWrite a bs s).wall = s.wall := rfl
@[simp] theorem memWrite_regs (a : Nat) (bs : List Byte) (s : State) : (memWrite a bs s).regs = s.regs := rfl
@[simp] theorem memWrite_wide (a : Nat) (bs : List Byte) (s : State) : (memWrite a bs s).wide = s.wide := rfl
@[simp] theorem memWrite_mtimecmp (a : Nat) (bs : List Byte) (s : State) : (memWrite a bs s).mtimecmp = s.mtimecmp := rfl
@[simp] theorem memWrite_hartStart (a : Nat) (bs : List Byte) (s : State) : (memWrite a bs s).hartStart = s.hartStart := rfl
@[simp] theorem memWrite_hart (a : Nat) (bs : List Byte) (s : State) : (memWrite a bs s).hart = s.hart := rfl
@[simp] theorem memWrite_unfenced (a : Nat) (bs : List Byte) (s : State) : (memWrite a bs s).unfenced = s.unfenced := rfl
@[simp] theorem memWrite_crossed (a : Nat) (bs : List Byte) (s : State) : (memWrite a bs s).crossed = s.crossed := rfl
@[simp] theorem memWrite_reserve (a : Nat) (bs : List Byte) (s : State) : (memWrite a bs s).reserve = s.reserve := rfl
@[simp] theorem memWrite_l2 (a : Nat) (bs : List Byte) (s : State) : (memWrite a bs s).l2 = s.l2 := rfl
@[simp] theorem memWrite_l1 (a : Nat) (bs : List Byte) (s : State) : (memWrite a bs s).l1 = s.l1 := rfl
@[simp] theorem memWrite_ind (a : Nat) (bs : List Byte) (s : State) : (memWrite a bs s).ind = s.ind := rfl
@[simp] theorem memWrite_red (a : Nat) (bs : List Byte) (s : State) : (memWrite a bs s).red = s.red := rfl
@[simp] theorem memWrite_strata (a : Nat) (bs : List Byte) (s : State) : (memWrite a bs s).strata = s.strata := rfl
@[simp] theorem memWrite_mirror (a : Nat) (bs : List Byte) (s : State) : (memWrite a bs s).mirror = s.mirror := rfl
@[simp] theorem memWrite_cap (a : Nat) (bs : List Byte) (s : State) : (memWrite a bs s).cap = s.cap := rfl
@[simp] theorem memWrite_host (a : Nat) (bs : List Byte) (s : State) : (memWrite a bs s).host = s.host := rfl
@[simp] theorem memWrite_cmd (a : Nat) (bs : List Byte) (s : State) : (memWrite a bs s).cmd = s.cmd := rfl
@[simp] theorem memWrite_jrn (a : Nat) (bs : List Byte) (s : State) : (memWrite a bs s).jrn = s.jrn := rfl
@[simp] theorem memWrite_flash (a : Nat) (bs : List Byte) (s : State) : (memWrite a bs s).flash = s.flash := rfl
@[simp] theorem memWrite_hsl (a : Nat) (bs : List Byte) (s : State) : (memWrite a bs s).hsl = s.hsl := rfl
@[simp] theorem memWrite_pre (a : Nat) (bs : List Byte) (s : State) : (memWrite a bs s).pre = s.pre := rfl
@[simp] theorem memWrite_chan (a : Nat) (bs : List Byte) (s : State) : (memWrite a bs s).chan = s.chan := rfl
@[simp] theorem memWrite_seq (a : Nat) (bs : List Byte) (s : State) : (memWrite a bs s).seq = s.seq := rfl
@[simp] theorem memWrite_cal (a : Nat) (bs : List Byte) (s : State) : (memWrite a bs s).cal = s.cal := rfl
@[simp] theorem memWrite_bas (a : Nat) (bs : List Byte) (s : State) : (memWrite a bs s).bas = s.bas := rfl
@[simp] theorem memWrite_acc (a : Nat) (bs : List Byte) (s : State) : (memWrite a bs s).acc = s.acc := rfl
@[simp] theorem memWrite_tdm (a : Nat) (bs : List Byte) (s : State) : (memWrite a bs s).tdm = s.tdm := rfl
@[simp] theorem memWrite_tls (a : Nat) (bs : List Byte) (s : State) : (memWrite a bs s).tls = s.tls := rfl
@[simp] theorem memWrite_flashBig (a : Nat) (bs : List Byte) (s : State) : (memWrite a bs s).flashBig = s.flashBig := rfl
@[simp] theorem memWrite_otp (a : Nat) (bs : List Byte) (s : State) : (memWrite a bs s).otp = s.otp := rfl
@[simp] theorem memWrite_sec (a : Nat) (bs : List Byte) (s : State) : (memWrite a bs s).sec = s.sec := rfl
@[simp] theorem memWrite_boot (a : Nat) (bs : List Byte) (s : State) : (memWrite a bs s).boot = s.boot := rfl

/-! ### setRes -/

@[simp] theorem setRes_pending (h : Nat) (v : Option Nat) (s : State) : (setRes h v s).pending = s.pending := rfl
@[simp] theorem setRes_out (h : Nat) (v : Option Nat) (s : State) : (setRes h v s).out = s.out := rfl
@[simp] theorem setRes_free (h : Nat) (v : Option Nat) (s : State) : (setRes h v s).free = s.free := rfl
@[simp] theorem setRes_variant (h : Nat) (v : Option Nat) (s : State) : (setRes h v s).variant = s.variant := rfl
@[simp] theorem setRes_now (h : Nat) (v : Option Nat) (s : State) : (setRes h v s).now = s.now := rfl
@[simp] theorem setRes_pwr (h : Nat) (v : Option Nat) (s : State) : (setRes h v s).pwr = s.pwr := rfl
@[simp] theorem setRes_wall (h : Nat) (v : Option Nat) (s : State) : (setRes h v s).wall = s.wall := rfl
@[simp] theorem setRes_regs (h : Nat) (v : Option Nat) (s : State) : (setRes h v s).regs = s.regs := rfl
@[simp] theorem setRes_wide (h : Nat) (v : Option Nat) (s : State) : (setRes h v s).wide = s.wide := rfl
@[simp] theorem setRes_mem (h : Nat) (v : Option Nat) (s : State) : (setRes h v s).mem = s.mem := rfl
@[simp] theorem setRes_bad (h : Nat) (v : Option Nat) (s : State) : (setRes h v s).bad = s.bad := rfl
@[simp] theorem setRes_mtimecmp (h : Nat) (v : Option Nat) (s : State) : (setRes h v s).mtimecmp = s.mtimecmp := rfl
@[simp] theorem setRes_hartStart (h : Nat) (v : Option Nat) (s : State) : (setRes h v s).hartStart = s.hartStart := rfl
@[simp] theorem setRes_hart (h : Nat) (v : Option Nat) (s : State) : (setRes h v s).hart = s.hart := rfl
@[simp] theorem setRes_unfenced (h : Nat) (v : Option Nat) (s : State) : (setRes h v s).unfenced = s.unfenced := rfl
@[simp] theorem setRes_crossed (h : Nat) (v : Option Nat) (s : State) : (setRes h v s).crossed = s.crossed := rfl
@[simp] theorem setRes_l2 (h : Nat) (v : Option Nat) (s : State) : (setRes h v s).l2 = s.l2 := rfl
@[simp] theorem setRes_l1 (h : Nat) (v : Option Nat) (s : State) : (setRes h v s).l1 = s.l1 := rfl
@[simp] theorem setRes_ind (h : Nat) (v : Option Nat) (s : State) : (setRes h v s).ind = s.ind := rfl
@[simp] theorem setRes_red (h : Nat) (v : Option Nat) (s : State) : (setRes h v s).red = s.red := rfl
@[simp] theorem setRes_strata (h : Nat) (v : Option Nat) (s : State) : (setRes h v s).strata = s.strata := rfl
@[simp] theorem setRes_mirror (h : Nat) (v : Option Nat) (s : State) : (setRes h v s).mirror = s.mirror := rfl
@[simp] theorem setRes_cap (h : Nat) (v : Option Nat) (s : State) : (setRes h v s).cap = s.cap := rfl
@[simp] theorem setRes_host (h : Nat) (v : Option Nat) (s : State) : (setRes h v s).host = s.host := rfl
@[simp] theorem setRes_cmd (h : Nat) (v : Option Nat) (s : State) : (setRes h v s).cmd = s.cmd := rfl
@[simp] theorem setRes_jrn (h : Nat) (v : Option Nat) (s : State) : (setRes h v s).jrn = s.jrn := rfl
@[simp] theorem setRes_flash (h : Nat) (v : Option Nat) (s : State) : (setRes h v s).flash = s.flash := rfl
@[simp] theorem setRes_hsl (h : Nat) (v : Option Nat) (s : State) : (setRes h v s).hsl = s.hsl := rfl
@[simp] theorem setRes_pre (h : Nat) (v : Option Nat) (s : State) : (setRes h v s).pre = s.pre := rfl
@[simp] theorem setRes_chan (h : Nat) (v : Option Nat) (s : State) : (setRes h v s).chan = s.chan := rfl
@[simp] theorem setRes_seq (h : Nat) (v : Option Nat) (s : State) : (setRes h v s).seq = s.seq := rfl
@[simp] theorem setRes_cal (h : Nat) (v : Option Nat) (s : State) : (setRes h v s).cal = s.cal := rfl
@[simp] theorem setRes_bas (h : Nat) (v : Option Nat) (s : State) : (setRes h v s).bas = s.bas := rfl
@[simp] theorem setRes_acc (h : Nat) (v : Option Nat) (s : State) : (setRes h v s).acc = s.acc := rfl
@[simp] theorem setRes_tdm (h : Nat) (v : Option Nat) (s : State) : (setRes h v s).tdm = s.tdm := rfl
@[simp] theorem setRes_tls (h : Nat) (v : Option Nat) (s : State) : (setRes h v s).tls = s.tls := rfl
@[simp] theorem setRes_flashBig (h : Nat) (v : Option Nat) (s : State) : (setRes h v s).flashBig = s.flashBig := rfl
@[simp] theorem setRes_otp (h : Nat) (v : Option Nat) (s : State) : (setRes h v s).otp = s.otp := rfl
@[simp] theorem setRes_sec (h : Nat) (v : Option Nat) (s : State) : (setRes h v s).sec = s.sec := rfl
@[simp] theorem setRes_boot (h : Nat) (v : Option Nat) (s : State) : (setRes h v s).boot = s.boot := rfl

/-! ### setL2 -/

@[simp] theorem setL2_pending (c : Nat) (v : L2) (s : State) : (setL2 c v s).pending = s.pending := rfl
@[simp] theorem setL2_out (c : Nat) (v : L2) (s : State) : (setL2 c v s).out = s.out := rfl
@[simp] theorem setL2_free (c : Nat) (v : L2) (s : State) : (setL2 c v s).free = s.free := rfl
@[simp] theorem setL2_variant (c : Nat) (v : L2) (s : State) : (setL2 c v s).variant = s.variant := rfl
@[simp] theorem setL2_now (c : Nat) (v : L2) (s : State) : (setL2 c v s).now = s.now := rfl
@[simp] theorem setL2_pwr (c : Nat) (v : L2) (s : State) : (setL2 c v s).pwr = s.pwr := rfl
@[simp] theorem setL2_wall (c : Nat) (v : L2) (s : State) : (setL2 c v s).wall = s.wall := rfl
@[simp] theorem setL2_regs (c : Nat) (v : L2) (s : State) : (setL2 c v s).regs = s.regs := rfl
@[simp] theorem setL2_wide (c : Nat) (v : L2) (s : State) : (setL2 c v s).wide = s.wide := rfl
@[simp] theorem setL2_mem (c : Nat) (v : L2) (s : State) : (setL2 c v s).mem = s.mem := rfl
@[simp] theorem setL2_bad (c : Nat) (v : L2) (s : State) : (setL2 c v s).bad = s.bad := rfl
@[simp] theorem setL2_mtimecmp (c : Nat) (v : L2) (s : State) : (setL2 c v s).mtimecmp = s.mtimecmp := rfl
@[simp] theorem setL2_hartStart (c : Nat) (v : L2) (s : State) : (setL2 c v s).hartStart = s.hartStart := rfl
@[simp] theorem setL2_hart (c : Nat) (v : L2) (s : State) : (setL2 c v s).hart = s.hart := rfl
@[simp] theorem setL2_unfenced (c : Nat) (v : L2) (s : State) : (setL2 c v s).unfenced = s.unfenced := rfl
@[simp] theorem setL2_crossed (c : Nat) (v : L2) (s : State) : (setL2 c v s).crossed = s.crossed := rfl
@[simp] theorem setL2_reserve (c : Nat) (v : L2) (s : State) : (setL2 c v s).reserve = s.reserve := rfl
@[simp] theorem setL2_l1 (c : Nat) (v : L2) (s : State) : (setL2 c v s).l1 = s.l1 := rfl
@[simp] theorem setL2_ind (c : Nat) (v : L2) (s : State) : (setL2 c v s).ind = s.ind := rfl
@[simp] theorem setL2_red (c : Nat) (v : L2) (s : State) : (setL2 c v s).red = s.red := rfl
@[simp] theorem setL2_strata (c : Nat) (v : L2) (s : State) : (setL2 c v s).strata = s.strata := rfl
@[simp] theorem setL2_mirror (c : Nat) (v : L2) (s : State) : (setL2 c v s).mirror = s.mirror := rfl
@[simp] theorem setL2_cap (c : Nat) (v : L2) (s : State) : (setL2 c v s).cap = s.cap := rfl
@[simp] theorem setL2_host (c : Nat) (v : L2) (s : State) : (setL2 c v s).host = s.host := rfl
@[simp] theorem setL2_cmd (c : Nat) (v : L2) (s : State) : (setL2 c v s).cmd = s.cmd := rfl
@[simp] theorem setL2_jrn (c : Nat) (v : L2) (s : State) : (setL2 c v s).jrn = s.jrn := rfl
@[simp] theorem setL2_flash (c : Nat) (v : L2) (s : State) : (setL2 c v s).flash = s.flash := rfl
@[simp] theorem setL2_hsl (c : Nat) (v : L2) (s : State) : (setL2 c v s).hsl = s.hsl := rfl
@[simp] theorem setL2_pre (c : Nat) (v : L2) (s : State) : (setL2 c v s).pre = s.pre := rfl
@[simp] theorem setL2_chan (c : Nat) (v : L2) (s : State) : (setL2 c v s).chan = s.chan := rfl
@[simp] theorem setL2_seq (c : Nat) (v : L2) (s : State) : (setL2 c v s).seq = s.seq := rfl
@[simp] theorem setL2_cal (c : Nat) (v : L2) (s : State) : (setL2 c v s).cal = s.cal := rfl
@[simp] theorem setL2_bas (c : Nat) (v : L2) (s : State) : (setL2 c v s).bas = s.bas := rfl
@[simp] theorem setL2_acc (c : Nat) (v : L2) (s : State) : (setL2 c v s).acc = s.acc := rfl
@[simp] theorem setL2_tdm (c : Nat) (v : L2) (s : State) : (setL2 c v s).tdm = s.tdm := rfl
@[simp] theorem setL2_tls (c : Nat) (v : L2) (s : State) : (setL2 c v s).tls = s.tls := rfl
@[simp] theorem setL2_flashBig (c : Nat) (v : L2) (s : State) : (setL2 c v s).flashBig = s.flashBig := rfl
@[simp] theorem setL2_otp (c : Nat) (v : L2) (s : State) : (setL2 c v s).otp = s.otp := rfl
@[simp] theorem setL2_sec (c : Nat) (v : L2) (s : State) : (setL2 c v s).sec = s.sec := rfl
@[simp] theorem setL2_boot (c : Nat) (v : L2) (s : State) : (setL2 c v s).boot = s.boot := rfl

/-! ### setL1 -/

@[simp] theorem setL1_pending (k : Nat) (v : List L1Line) (s : State) : (setL1 k v s).pending = s.pending := rfl
@[simp] theorem setL1_out (k : Nat) (v : List L1Line) (s : State) : (setL1 k v s).out = s.out := rfl
@[simp] theorem setL1_free (k : Nat) (v : List L1Line) (s : State) : (setL1 k v s).free = s.free := rfl
@[simp] theorem setL1_variant (k : Nat) (v : List L1Line) (s : State) : (setL1 k v s).variant = s.variant := rfl
@[simp] theorem setL1_now (k : Nat) (v : List L1Line) (s : State) : (setL1 k v s).now = s.now := rfl
@[simp] theorem setL1_pwr (k : Nat) (v : List L1Line) (s : State) : (setL1 k v s).pwr = s.pwr := rfl
@[simp] theorem setL1_wall (k : Nat) (v : List L1Line) (s : State) : (setL1 k v s).wall = s.wall := rfl
@[simp] theorem setL1_regs (k : Nat) (v : List L1Line) (s : State) : (setL1 k v s).regs = s.regs := rfl
@[simp] theorem setL1_wide (k : Nat) (v : List L1Line) (s : State) : (setL1 k v s).wide = s.wide := rfl
@[simp] theorem setL1_mem (k : Nat) (v : List L1Line) (s : State) : (setL1 k v s).mem = s.mem := rfl
@[simp] theorem setL1_bad (k : Nat) (v : List L1Line) (s : State) : (setL1 k v s).bad = s.bad := rfl
@[simp] theorem setL1_mtimecmp (k : Nat) (v : List L1Line) (s : State) : (setL1 k v s).mtimecmp = s.mtimecmp := rfl
@[simp] theorem setL1_hartStart (k : Nat) (v : List L1Line) (s : State) : (setL1 k v s).hartStart = s.hartStart := rfl
@[simp] theorem setL1_hart (k : Nat) (v : List L1Line) (s : State) : (setL1 k v s).hart = s.hart := rfl
@[simp] theorem setL1_unfenced (k : Nat) (v : List L1Line) (s : State) : (setL1 k v s).unfenced = s.unfenced := rfl
@[simp] theorem setL1_crossed (k : Nat) (v : List L1Line) (s : State) : (setL1 k v s).crossed = s.crossed := rfl
@[simp] theorem setL1_reserve (k : Nat) (v : List L1Line) (s : State) : (setL1 k v s).reserve = s.reserve := rfl
@[simp] theorem setL1_l2 (k : Nat) (v : List L1Line) (s : State) : (setL1 k v s).l2 = s.l2 := rfl
@[simp] theorem setL1_ind (k : Nat) (v : List L1Line) (s : State) : (setL1 k v s).ind = s.ind := rfl
@[simp] theorem setL1_red (k : Nat) (v : List L1Line) (s : State) : (setL1 k v s).red = s.red := rfl
@[simp] theorem setL1_strata (k : Nat) (v : List L1Line) (s : State) : (setL1 k v s).strata = s.strata := rfl
@[simp] theorem setL1_mirror (k : Nat) (v : List L1Line) (s : State) : (setL1 k v s).mirror = s.mirror := rfl
@[simp] theorem setL1_cap (k : Nat) (v : List L1Line) (s : State) : (setL1 k v s).cap = s.cap := rfl
@[simp] theorem setL1_host (k : Nat) (v : List L1Line) (s : State) : (setL1 k v s).host = s.host := rfl
@[simp] theorem setL1_cmd (k : Nat) (v : List L1Line) (s : State) : (setL1 k v s).cmd = s.cmd := rfl
@[simp] theorem setL1_jrn (k : Nat) (v : List L1Line) (s : State) : (setL1 k v s).jrn = s.jrn := rfl
@[simp] theorem setL1_flash (k : Nat) (v : List L1Line) (s : State) : (setL1 k v s).flash = s.flash := rfl
@[simp] theorem setL1_hsl (k : Nat) (v : List L1Line) (s : State) : (setL1 k v s).hsl = s.hsl := rfl
@[simp] theorem setL1_pre (k : Nat) (v : List L1Line) (s : State) : (setL1 k v s).pre = s.pre := rfl
@[simp] theorem setL1_chan (k : Nat) (v : List L1Line) (s : State) : (setL1 k v s).chan = s.chan := rfl
@[simp] theorem setL1_seq (k : Nat) (v : List L1Line) (s : State) : (setL1 k v s).seq = s.seq := rfl
@[simp] theorem setL1_cal (k : Nat) (v : List L1Line) (s : State) : (setL1 k v s).cal = s.cal := rfl
@[simp] theorem setL1_bas (k : Nat) (v : List L1Line) (s : State) : (setL1 k v s).bas = s.bas := rfl
@[simp] theorem setL1_acc (k : Nat) (v : List L1Line) (s : State) : (setL1 k v s).acc = s.acc := rfl
@[simp] theorem setL1_tdm (k : Nat) (v : List L1Line) (s : State) : (setL1 k v s).tdm = s.tdm := rfl
@[simp] theorem setL1_tls (k : Nat) (v : List L1Line) (s : State) : (setL1 k v s).tls = s.tls := rfl
@[simp] theorem setL1_flashBig (k : Nat) (v : List L1Line) (s : State) : (setL1 k v s).flashBig = s.flashBig := rfl
@[simp] theorem setL1_otp (k : Nat) (v : List L1Line) (s : State) : (setL1 k v s).otp = s.otp := rfl
@[simp] theorem setL1_sec (k : Nat) (v : List L1Line) (s : State) : (setL1 k v s).sec = s.sec := rfl
@[simp] theorem setL1_boot (k : Nat) (v : List L1Line) (s : State) : (setL1 k v s).boot = s.boot := rfl

/-! ### setInd -/

@[simp] theorem setInd_pending (c : Nat) (v : IndPair) (s : State) : (setInd c v s).pending = s.pending := rfl
@[simp] theorem setInd_out (c : Nat) (v : IndPair) (s : State) : (setInd c v s).out = s.out := rfl
@[simp] theorem setInd_free (c : Nat) (v : IndPair) (s : State) : (setInd c v s).free = s.free := rfl
@[simp] theorem setInd_variant (c : Nat) (v : IndPair) (s : State) : (setInd c v s).variant = s.variant := rfl
@[simp] theorem setInd_now (c : Nat) (v : IndPair) (s : State) : (setInd c v s).now = s.now := rfl
@[simp] theorem setInd_pwr (c : Nat) (v : IndPair) (s : State) : (setInd c v s).pwr = s.pwr := rfl
@[simp] theorem setInd_wall (c : Nat) (v : IndPair) (s : State) : (setInd c v s).wall = s.wall := rfl
@[simp] theorem setInd_regs (c : Nat) (v : IndPair) (s : State) : (setInd c v s).regs = s.regs := rfl
@[simp] theorem setInd_wide (c : Nat) (v : IndPair) (s : State) : (setInd c v s).wide = s.wide := rfl
@[simp] theorem setInd_mem (c : Nat) (v : IndPair) (s : State) : (setInd c v s).mem = s.mem := rfl
@[simp] theorem setInd_bad (c : Nat) (v : IndPair) (s : State) : (setInd c v s).bad = s.bad := rfl
@[simp] theorem setInd_mtimecmp (c : Nat) (v : IndPair) (s : State) : (setInd c v s).mtimecmp = s.mtimecmp := rfl
@[simp] theorem setInd_hartStart (c : Nat) (v : IndPair) (s : State) : (setInd c v s).hartStart = s.hartStart := rfl
@[simp] theorem setInd_hart (c : Nat) (v : IndPair) (s : State) : (setInd c v s).hart = s.hart := rfl
@[simp] theorem setInd_unfenced (c : Nat) (v : IndPair) (s : State) : (setInd c v s).unfenced = s.unfenced := rfl
@[simp] theorem setInd_crossed (c : Nat) (v : IndPair) (s : State) : (setInd c v s).crossed = s.crossed := rfl
@[simp] theorem setInd_reserve (c : Nat) (v : IndPair) (s : State) : (setInd c v s).reserve = s.reserve := rfl
@[simp] theorem setInd_l2 (c : Nat) (v : IndPair) (s : State) : (setInd c v s).l2 = s.l2 := rfl
@[simp] theorem setInd_l1 (c : Nat) (v : IndPair) (s : State) : (setInd c v s).l1 = s.l1 := rfl
@[simp] theorem setInd_red (c : Nat) (v : IndPair) (s : State) : (setInd c v s).red = s.red := rfl
@[simp] theorem setInd_strata (c : Nat) (v : IndPair) (s : State) : (setInd c v s).strata = s.strata := rfl
@[simp] theorem setInd_mirror (c : Nat) (v : IndPair) (s : State) : (setInd c v s).mirror = s.mirror := rfl
@[simp] theorem setInd_cap (c : Nat) (v : IndPair) (s : State) : (setInd c v s).cap = s.cap := rfl
@[simp] theorem setInd_host (c : Nat) (v : IndPair) (s : State) : (setInd c v s).host = s.host := rfl
@[simp] theorem setInd_cmd (c : Nat) (v : IndPair) (s : State) : (setInd c v s).cmd = s.cmd := rfl
@[simp] theorem setInd_jrn (c : Nat) (v : IndPair) (s : State) : (setInd c v s).jrn = s.jrn := rfl
@[simp] theorem setInd_flash (c : Nat) (v : IndPair) (s : State) : (setInd c v s).flash = s.flash := rfl
@[simp] theorem setInd_hsl (c : Nat) (v : IndPair) (s : State) : (setInd c v s).hsl = s.hsl := rfl
@[simp] theorem setInd_pre (c : Nat) (v : IndPair) (s : State) : (setInd c v s).pre = s.pre := rfl
@[simp] theorem setInd_chan (c : Nat) (v : IndPair) (s : State) : (setInd c v s).chan = s.chan := rfl
@[simp] theorem setInd_seq (c : Nat) (v : IndPair) (s : State) : (setInd c v s).seq = s.seq := rfl
@[simp] theorem setInd_cal (c : Nat) (v : IndPair) (s : State) : (setInd c v s).cal = s.cal := rfl
@[simp] theorem setInd_bas (c : Nat) (v : IndPair) (s : State) : (setInd c v s).bas = s.bas := rfl
@[simp] theorem setInd_acc (c : Nat) (v : IndPair) (s : State) : (setInd c v s).acc = s.acc := rfl
@[simp] theorem setInd_tdm (c : Nat) (v : IndPair) (s : State) : (setInd c v s).tdm = s.tdm := rfl
@[simp] theorem setInd_tls (c : Nat) (v : IndPair) (s : State) : (setInd c v s).tls = s.tls := rfl
@[simp] theorem setInd_flashBig (c : Nat) (v : IndPair) (s : State) : (setInd c v s).flashBig = s.flashBig := rfl
@[simp] theorem setInd_otp (c : Nat) (v : IndPair) (s : State) : (setInd c v s).otp = s.otp := rfl
@[simp] theorem setInd_sec (c : Nat) (v : IndPair) (s : State) : (setInd c v s).sec = s.sec := rfl
@[simp] theorem setInd_boot (c : Nat) (v : IndPair) (s : State) : (setInd c v s).boot = s.boot := rfl

/-! ### setCmp -/

@[simp] theorem setCmp_pending (h v : Nat) (s : State) : (setCmp h v s).pending = s.pending := rfl
@[simp] theorem setCmp_out (h v : Nat) (s : State) : (setCmp h v s).out = s.out := rfl
@[simp] theorem setCmp_free (h v : Nat) (s : State) : (setCmp h v s).free = s.free := rfl
@[simp] theorem setCmp_variant (h v : Nat) (s : State) : (setCmp h v s).variant = s.variant := rfl
@[simp] theorem setCmp_now (h v : Nat) (s : State) : (setCmp h v s).now = s.now := rfl
@[simp] theorem setCmp_pwr (h v : Nat) (s : State) : (setCmp h v s).pwr = s.pwr := rfl
@[simp] theorem setCmp_wall (h v : Nat) (s : State) : (setCmp h v s).wall = s.wall := rfl
@[simp] theorem setCmp_regs (h v : Nat) (s : State) : (setCmp h v s).regs = s.regs := rfl
@[simp] theorem setCmp_wide (h v : Nat) (s : State) : (setCmp h v s).wide = s.wide := rfl
@[simp] theorem setCmp_mem (h v : Nat) (s : State) : (setCmp h v s).mem = s.mem := rfl
@[simp] theorem setCmp_bad (h v : Nat) (s : State) : (setCmp h v s).bad = s.bad := rfl
@[simp] theorem setCmp_hartStart (h v : Nat) (s : State) : (setCmp h v s).hartStart = s.hartStart := rfl
@[simp] theorem setCmp_hart (h v : Nat) (s : State) : (setCmp h v s).hart = s.hart := rfl
@[simp] theorem setCmp_unfenced (h v : Nat) (s : State) : (setCmp h v s).unfenced = s.unfenced := rfl
@[simp] theorem setCmp_crossed (h v : Nat) (s : State) : (setCmp h v s).crossed = s.crossed := rfl
@[simp] theorem setCmp_reserve (h v : Nat) (s : State) : (setCmp h v s).reserve = s.reserve := rfl
@[simp] theorem setCmp_l2 (h v : Nat) (s : State) : (setCmp h v s).l2 = s.l2 := rfl
@[simp] theorem setCmp_l1 (h v : Nat) (s : State) : (setCmp h v s).l1 = s.l1 := rfl
@[simp] theorem setCmp_ind (h v : Nat) (s : State) : (setCmp h v s).ind = s.ind := rfl
@[simp] theorem setCmp_red (h v : Nat) (s : State) : (setCmp h v s).red = s.red := rfl
@[simp] theorem setCmp_strata (h v : Nat) (s : State) : (setCmp h v s).strata = s.strata := rfl
@[simp] theorem setCmp_mirror (h v : Nat) (s : State) : (setCmp h v s).mirror = s.mirror := rfl
@[simp] theorem setCmp_cap (h v : Nat) (s : State) : (setCmp h v s).cap = s.cap := rfl
@[simp] theorem setCmp_host (h v : Nat) (s : State) : (setCmp h v s).host = s.host := rfl
@[simp] theorem setCmp_cmd (h v : Nat) (s : State) : (setCmp h v s).cmd = s.cmd := rfl
@[simp] theorem setCmp_jrn (h v : Nat) (s : State) : (setCmp h v s).jrn = s.jrn := rfl
@[simp] theorem setCmp_flash (h v : Nat) (s : State) : (setCmp h v s).flash = s.flash := rfl
@[simp] theorem setCmp_hsl (h v : Nat) (s : State) : (setCmp h v s).hsl = s.hsl := rfl
@[simp] theorem setCmp_pre (h v : Nat) (s : State) : (setCmp h v s).pre = s.pre := rfl
@[simp] theorem setCmp_chan (h v : Nat) (s : State) : (setCmp h v s).chan = s.chan := rfl
@[simp] theorem setCmp_seq (h v : Nat) (s : State) : (setCmp h v s).seq = s.seq := rfl
@[simp] theorem setCmp_cal (h v : Nat) (s : State) : (setCmp h v s).cal = s.cal := rfl
@[simp] theorem setCmp_bas (h v : Nat) (s : State) : (setCmp h v s).bas = s.bas := rfl
@[simp] theorem setCmp_acc (h v : Nat) (s : State) : (setCmp h v s).acc = s.acc := rfl
@[simp] theorem setCmp_tdm (h v : Nat) (s : State) : (setCmp h v s).tdm = s.tdm := rfl
@[simp] theorem setCmp_tls (h v : Nat) (s : State) : (setCmp h v s).tls = s.tls := rfl
@[simp] theorem setCmp_flashBig (h v : Nat) (s : State) : (setCmp h v s).flashBig = s.flashBig := rfl
@[simp] theorem setCmp_otp (h v : Nat) (s : State) : (setCmp h v s).otp = s.otp := rfl
@[simp] theorem setCmp_sec (h v : Nat) (s : State) : (setCmp h v s).sec = s.sec := rfl
@[simp] theorem setCmp_boot (h v : Nat) (s : State) : (setCmp h v s).boot = s.boot := rfl

/-! ### setHart -/

@[simp] theorem setHart_pending (h : Nat) (v : Option Nat) (s : State) : (setHart h v s).pending = s.pending := rfl
@[simp] theorem setHart_out (h : Nat) (v : Option Nat) (s : State) : (setHart h v s).out = s.out := rfl
@[simp] theorem setHart_free (h : Nat) (v : Option Nat) (s : State) : (setHart h v s).free = s.free := rfl
@[simp] theorem setHart_variant (h : Nat) (v : Option Nat) (s : State) : (setHart h v s).variant = s.variant := rfl
@[simp] theorem setHart_now (h : Nat) (v : Option Nat) (s : State) : (setHart h v s).now = s.now := rfl
@[simp] theorem setHart_pwr (h : Nat) (v : Option Nat) (s : State) : (setHart h v s).pwr = s.pwr := rfl
@[simp] theorem setHart_wall (h : Nat) (v : Option Nat) (s : State) : (setHart h v s).wall = s.wall := rfl
@[simp] theorem setHart_regs (h : Nat) (v : Option Nat) (s : State) : (setHart h v s).regs = s.regs := rfl
@[simp] theorem setHart_wide (h : Nat) (v : Option Nat) (s : State) : (setHart h v s).wide = s.wide := rfl
@[simp] theorem setHart_mem (h : Nat) (v : Option Nat) (s : State) : (setHart h v s).mem = s.mem := rfl
@[simp] theorem setHart_bad (h : Nat) (v : Option Nat) (s : State) : (setHart h v s).bad = s.bad := rfl
@[simp] theorem setHart_mtimecmp (h : Nat) (v : Option Nat) (s : State) : (setHart h v s).mtimecmp = s.mtimecmp := rfl
@[simp] theorem setHart_hart (h : Nat) (v : Option Nat) (s : State) : (setHart h v s).hart = s.hart := rfl
@[simp] theorem setHart_unfenced (h : Nat) (v : Option Nat) (s : State) : (setHart h v s).unfenced = s.unfenced := rfl
@[simp] theorem setHart_crossed (h : Nat) (v : Option Nat) (s : State) : (setHart h v s).crossed = s.crossed := rfl
@[simp] theorem setHart_reserve (h : Nat) (v : Option Nat) (s : State) : (setHart h v s).reserve = s.reserve := rfl
@[simp] theorem setHart_l2 (h : Nat) (v : Option Nat) (s : State) : (setHart h v s).l2 = s.l2 := rfl
@[simp] theorem setHart_l1 (h : Nat) (v : Option Nat) (s : State) : (setHart h v s).l1 = s.l1 := rfl
@[simp] theorem setHart_ind (h : Nat) (v : Option Nat) (s : State) : (setHart h v s).ind = s.ind := rfl
@[simp] theorem setHart_red (h : Nat) (v : Option Nat) (s : State) : (setHart h v s).red = s.red := rfl
@[simp] theorem setHart_strata (h : Nat) (v : Option Nat) (s : State) : (setHart h v s).strata = s.strata := rfl
@[simp] theorem setHart_mirror (h : Nat) (v : Option Nat) (s : State) : (setHart h v s).mirror = s.mirror := rfl
@[simp] theorem setHart_cap (h : Nat) (v : Option Nat) (s : State) : (setHart h v s).cap = s.cap := rfl
@[simp] theorem setHart_host (h : Nat) (v : Option Nat) (s : State) : (setHart h v s).host = s.host := rfl
@[simp] theorem setHart_cmd (h : Nat) (v : Option Nat) (s : State) : (setHart h v s).cmd = s.cmd := rfl
@[simp] theorem setHart_jrn (h : Nat) (v : Option Nat) (s : State) : (setHart h v s).jrn = s.jrn := rfl
@[simp] theorem setHart_flash (h : Nat) (v : Option Nat) (s : State) : (setHart h v s).flash = s.flash := rfl
@[simp] theorem setHart_hsl (h : Nat) (v : Option Nat) (s : State) : (setHart h v s).hsl = s.hsl := rfl
@[simp] theorem setHart_pre (h : Nat) (v : Option Nat) (s : State) : (setHart h v s).pre = s.pre := rfl
@[simp] theorem setHart_chan (h : Nat) (v : Option Nat) (s : State) : (setHart h v s).chan = s.chan := rfl
@[simp] theorem setHart_seq (h : Nat) (v : Option Nat) (s : State) : (setHart h v s).seq = s.seq := rfl
@[simp] theorem setHart_cal (h : Nat) (v : Option Nat) (s : State) : (setHart h v s).cal = s.cal := rfl
@[simp] theorem setHart_bas (h : Nat) (v : Option Nat) (s : State) : (setHart h v s).bas = s.bas := rfl
@[simp] theorem setHart_acc (h : Nat) (v : Option Nat) (s : State) : (setHart h v s).acc = s.acc := rfl
@[simp] theorem setHart_tdm (h : Nat) (v : Option Nat) (s : State) : (setHart h v s).tdm = s.tdm := rfl
@[simp] theorem setHart_tls (h : Nat) (v : Option Nat) (s : State) : (setHart h v s).tls = s.tls := rfl
@[simp] theorem setHart_flashBig (h : Nat) (v : Option Nat) (s : State) : (setHart h v s).flashBig = s.flashBig := rfl
@[simp] theorem setHart_otp (h : Nat) (v : Option Nat) (s : State) : (setHart h v s).otp = s.otp := rfl
@[simp] theorem setHart_sec (h : Nat) (v : Option Nat) (s : State) : (setHart h v s).sec = s.sec := rfl
@[simp] theorem setHart_boot (h : Nat) (v : Option Nat) (s : State) : (setHart h v s).boot = s.boot := rfl

/-! ### setHartRegs -/

@[simp] theorem setHartRegs_pending (h : Nat) (v : Hart) (s : State) : (setHartRegs h v s).pending = s.pending := rfl
@[simp] theorem setHartRegs_out (h : Nat) (v : Hart) (s : State) : (setHartRegs h v s).out = s.out := rfl
@[simp] theorem setHartRegs_free (h : Nat) (v : Hart) (s : State) : (setHartRegs h v s).free = s.free := rfl
@[simp] theorem setHartRegs_variant (h : Nat) (v : Hart) (s : State) : (setHartRegs h v s).variant = s.variant := rfl
@[simp] theorem setHartRegs_now (h : Nat) (v : Hart) (s : State) : (setHartRegs h v s).now = s.now := rfl
@[simp] theorem setHartRegs_pwr (h : Nat) (v : Hart) (s : State) : (setHartRegs h v s).pwr = s.pwr := rfl
@[simp] theorem setHartRegs_wall (h : Nat) (v : Hart) (s : State) : (setHartRegs h v s).wall = s.wall := rfl
@[simp] theorem setHartRegs_regs (h : Nat) (v : Hart) (s : State) : (setHartRegs h v s).regs = s.regs := rfl
@[simp] theorem setHartRegs_wide (h : Nat) (v : Hart) (s : State) : (setHartRegs h v s).wide = s.wide := rfl
@[simp] theorem setHartRegs_mem (h : Nat) (v : Hart) (s : State) : (setHartRegs h v s).mem = s.mem := rfl
@[simp] theorem setHartRegs_bad (h : Nat) (v : Hart) (s : State) : (setHartRegs h v s).bad = s.bad := rfl
@[simp] theorem setHartRegs_mtimecmp (h : Nat) (v : Hart) (s : State) : (setHartRegs h v s).mtimecmp = s.mtimecmp := rfl
@[simp] theorem setHartRegs_hartStart (h : Nat) (v : Hart) (s : State) : (setHartRegs h v s).hartStart = s.hartStart := rfl
@[simp] theorem setHartRegs_unfenced (h : Nat) (v : Hart) (s : State) : (setHartRegs h v s).unfenced = s.unfenced := rfl
@[simp] theorem setHartRegs_crossed (h : Nat) (v : Hart) (s : State) : (setHartRegs h v s).crossed = s.crossed := rfl
@[simp] theorem setHartRegs_reserve (h : Nat) (v : Hart) (s : State) : (setHartRegs h v s).reserve = s.reserve := rfl
@[simp] theorem setHartRegs_l2 (h : Nat) (v : Hart) (s : State) : (setHartRegs h v s).l2 = s.l2 := rfl
@[simp] theorem setHartRegs_l1 (h : Nat) (v : Hart) (s : State) : (setHartRegs h v s).l1 = s.l1 := rfl
@[simp] theorem setHartRegs_ind (h : Nat) (v : Hart) (s : State) : (setHartRegs h v s).ind = s.ind := rfl
@[simp] theorem setHartRegs_red (h : Nat) (v : Hart) (s : State) : (setHartRegs h v s).red = s.red := rfl
@[simp] theorem setHartRegs_strata (h : Nat) (v : Hart) (s : State) : (setHartRegs h v s).strata = s.strata := rfl
@[simp] theorem setHartRegs_mirror (h : Nat) (v : Hart) (s : State) : (setHartRegs h v s).mirror = s.mirror := rfl
@[simp] theorem setHartRegs_cap (h : Nat) (v : Hart) (s : State) : (setHartRegs h v s).cap = s.cap := rfl
@[simp] theorem setHartRegs_host (h : Nat) (v : Hart) (s : State) : (setHartRegs h v s).host = s.host := rfl
@[simp] theorem setHartRegs_cmd (h : Nat) (v : Hart) (s : State) : (setHartRegs h v s).cmd = s.cmd := rfl
@[simp] theorem setHartRegs_jrn (h : Nat) (v : Hart) (s : State) : (setHartRegs h v s).jrn = s.jrn := rfl
@[simp] theorem setHartRegs_flash (h : Nat) (v : Hart) (s : State) : (setHartRegs h v s).flash = s.flash := rfl
@[simp] theorem setHartRegs_hsl (h : Nat) (v : Hart) (s : State) : (setHartRegs h v s).hsl = s.hsl := rfl
@[simp] theorem setHartRegs_pre (h : Nat) (v : Hart) (s : State) : (setHartRegs h v s).pre = s.pre := rfl
@[simp] theorem setHartRegs_chan (h : Nat) (v : Hart) (s : State) : (setHartRegs h v s).chan = s.chan := rfl
@[simp] theorem setHartRegs_seq (h : Nat) (v : Hart) (s : State) : (setHartRegs h v s).seq = s.seq := rfl
@[simp] theorem setHartRegs_cal (h : Nat) (v : Hart) (s : State) : (setHartRegs h v s).cal = s.cal := rfl
@[simp] theorem setHartRegs_bas (h : Nat) (v : Hart) (s : State) : (setHartRegs h v s).bas = s.bas := rfl
@[simp] theorem setHartRegs_acc (h : Nat) (v : Hart) (s : State) : (setHartRegs h v s).acc = s.acc := rfl
@[simp] theorem setHartRegs_tdm (h : Nat) (v : Hart) (s : State) : (setHartRegs h v s).tdm = s.tdm := rfl
@[simp] theorem setHartRegs_tls (h : Nat) (v : Hart) (s : State) : (setHartRegs h v s).tls = s.tls := rfl
@[simp] theorem setHartRegs_flashBig (h : Nat) (v : Hart) (s : State) : (setHartRegs h v s).flashBig = s.flashBig := rfl
@[simp] theorem setHartRegs_otp (h : Nat) (v : Hart) (s : State) : (setHartRegs h v s).otp = s.otp := rfl
@[simp] theorem setHartRegs_sec (h : Nat) (v : Hart) (s : State) : (setHartRegs h v s).sec = s.sec := rfl
@[simp] theorem setHartRegs_boot (h : Nat) (v : Hart) (s : State) : (setHartRegs h v s).boot = s.boot := rfl

/-! ### setCrossed -/

@[simp] theorem setCrossed_pending (d : Nat) (v : Option Crossed) (s : State) : (setCrossed d v s).pending = s.pending := rfl
@[simp] theorem setCrossed_out (d : Nat) (v : Option Crossed) (s : State) : (setCrossed d v s).out = s.out := rfl
@[simp] theorem setCrossed_free (d : Nat) (v : Option Crossed) (s : State) : (setCrossed d v s).free = s.free := rfl
@[simp] theorem setCrossed_variant (d : Nat) (v : Option Crossed) (s : State) : (setCrossed d v s).variant = s.variant := rfl
@[simp] theorem setCrossed_now (d : Nat) (v : Option Crossed) (s : State) : (setCrossed d v s).now = s.now := rfl
@[simp] theorem setCrossed_pwr (d : Nat) (v : Option Crossed) (s : State) : (setCrossed d v s).pwr = s.pwr := rfl
@[simp] theorem setCrossed_wall (d : Nat) (v : Option Crossed) (s : State) : (setCrossed d v s).wall = s.wall := rfl
@[simp] theorem setCrossed_regs (d : Nat) (v : Option Crossed) (s : State) : (setCrossed d v s).regs = s.regs := rfl
@[simp] theorem setCrossed_wide (d : Nat) (v : Option Crossed) (s : State) : (setCrossed d v s).wide = s.wide := rfl
@[simp] theorem setCrossed_mem (d : Nat) (v : Option Crossed) (s : State) : (setCrossed d v s).mem = s.mem := rfl
@[simp] theorem setCrossed_bad (d : Nat) (v : Option Crossed) (s : State) : (setCrossed d v s).bad = s.bad := rfl
@[simp] theorem setCrossed_mtimecmp (d : Nat) (v : Option Crossed) (s : State) : (setCrossed d v s).mtimecmp = s.mtimecmp := rfl
@[simp] theorem setCrossed_hartStart (d : Nat) (v : Option Crossed) (s : State) : (setCrossed d v s).hartStart = s.hartStart := rfl
@[simp] theorem setCrossed_hart (d : Nat) (v : Option Crossed) (s : State) : (setCrossed d v s).hart = s.hart := rfl
@[simp] theorem setCrossed_unfenced (d : Nat) (v : Option Crossed) (s : State) : (setCrossed d v s).unfenced = s.unfenced := rfl
@[simp] theorem setCrossed_reserve (d : Nat) (v : Option Crossed) (s : State) : (setCrossed d v s).reserve = s.reserve := rfl
@[simp] theorem setCrossed_l2 (d : Nat) (v : Option Crossed) (s : State) : (setCrossed d v s).l2 = s.l2 := rfl
@[simp] theorem setCrossed_l1 (d : Nat) (v : Option Crossed) (s : State) : (setCrossed d v s).l1 = s.l1 := rfl
@[simp] theorem setCrossed_ind (d : Nat) (v : Option Crossed) (s : State) : (setCrossed d v s).ind = s.ind := rfl
@[simp] theorem setCrossed_red (d : Nat) (v : Option Crossed) (s : State) : (setCrossed d v s).red = s.red := rfl
@[simp] theorem setCrossed_strata (d : Nat) (v : Option Crossed) (s : State) : (setCrossed d v s).strata = s.strata := rfl
@[simp] theorem setCrossed_mirror (d : Nat) (v : Option Crossed) (s : State) : (setCrossed d v s).mirror = s.mirror := rfl
@[simp] theorem setCrossed_cap (d : Nat) (v : Option Crossed) (s : State) : (setCrossed d v s).cap = s.cap := rfl
@[simp] theorem setCrossed_host (d : Nat) (v : Option Crossed) (s : State) : (setCrossed d v s).host = s.host := rfl
@[simp] theorem setCrossed_cmd (d : Nat) (v : Option Crossed) (s : State) : (setCrossed d v s).cmd = s.cmd := rfl
@[simp] theorem setCrossed_jrn (d : Nat) (v : Option Crossed) (s : State) : (setCrossed d v s).jrn = s.jrn := rfl
@[simp] theorem setCrossed_flash (d : Nat) (v : Option Crossed) (s : State) : (setCrossed d v s).flash = s.flash := rfl
@[simp] theorem setCrossed_hsl (d : Nat) (v : Option Crossed) (s : State) : (setCrossed d v s).hsl = s.hsl := rfl
@[simp] theorem setCrossed_pre (d : Nat) (v : Option Crossed) (s : State) : (setCrossed d v s).pre = s.pre := rfl
@[simp] theorem setCrossed_chan (d : Nat) (v : Option Crossed) (s : State) : (setCrossed d v s).chan = s.chan := rfl
@[simp] theorem setCrossed_seq (d : Nat) (v : Option Crossed) (s : State) : (setCrossed d v s).seq = s.seq := rfl
@[simp] theorem setCrossed_cal (d : Nat) (v : Option Crossed) (s : State) : (setCrossed d v s).cal = s.cal := rfl
@[simp] theorem setCrossed_bas (d : Nat) (v : Option Crossed) (s : State) : (setCrossed d v s).bas = s.bas := rfl
@[simp] theorem setCrossed_acc (d : Nat) (v : Option Crossed) (s : State) : (setCrossed d v s).acc = s.acc := rfl
@[simp] theorem setCrossed_tdm (d : Nat) (v : Option Crossed) (s : State) : (setCrossed d v s).tdm = s.tdm := rfl
@[simp] theorem setCrossed_tls (d : Nat) (v : Option Crossed) (s : State) : (setCrossed d v s).tls = s.tls := rfl
@[simp] theorem setCrossed_flashBig (d : Nat) (v : Option Crossed) (s : State) : (setCrossed d v s).flashBig = s.flashBig := rfl
@[simp] theorem setCrossed_otp (d : Nat) (v : Option Crossed) (s : State) : (setCrossed d v s).otp = s.otp := rfl
@[simp] theorem setCrossed_sec (d : Nat) (v : Option Crossed) (s : State) : (setCrossed d v s).sec = s.sec := rfl
@[simp] theorem setCrossed_boot (d : Nat) (v : Option Crossed) (s : State) : (setCrossed d v s).boot = s.boot := rfl

/-! ### setIsl -/

@[simp] theorem setIsl_pending (x : Nat) (v : IslRed) (s : State) : (setIsl x v s).pending = s.pending := rfl
@[simp] theorem setIsl_out (x : Nat) (v : IslRed) (s : State) : (setIsl x v s).out = s.out := rfl
@[simp] theorem setIsl_free (x : Nat) (v : IslRed) (s : State) : (setIsl x v s).free = s.free := rfl
@[simp] theorem setIsl_variant (x : Nat) (v : IslRed) (s : State) : (setIsl x v s).variant = s.variant := rfl
@[simp] theorem setIsl_now (x : Nat) (v : IslRed) (s : State) : (setIsl x v s).now = s.now := rfl
@[simp] theorem setIsl_pwr (x : Nat) (v : IslRed) (s : State) : (setIsl x v s).pwr = s.pwr := rfl
@[simp] theorem setIsl_wall (x : Nat) (v : IslRed) (s : State) : (setIsl x v s).wall = s.wall := rfl
@[simp] theorem setIsl_regs (x : Nat) (v : IslRed) (s : State) : (setIsl x v s).regs = s.regs := rfl
@[simp] theorem setIsl_wide (x : Nat) (v : IslRed) (s : State) : (setIsl x v s).wide = s.wide := rfl
@[simp] theorem setIsl_mem (x : Nat) (v : IslRed) (s : State) : (setIsl x v s).mem = s.mem := rfl
@[simp] theorem setIsl_bad (x : Nat) (v : IslRed) (s : State) : (setIsl x v s).bad = s.bad := rfl
@[simp] theorem setIsl_mtimecmp (x : Nat) (v : IslRed) (s : State) : (setIsl x v s).mtimecmp = s.mtimecmp := rfl
@[simp] theorem setIsl_hartStart (x : Nat) (v : IslRed) (s : State) : (setIsl x v s).hartStart = s.hartStart := rfl
@[simp] theorem setIsl_hart (x : Nat) (v : IslRed) (s : State) : (setIsl x v s).hart = s.hart := rfl
@[simp] theorem setIsl_unfenced (x : Nat) (v : IslRed) (s : State) : (setIsl x v s).unfenced = s.unfenced := rfl
@[simp] theorem setIsl_crossed (x : Nat) (v : IslRed) (s : State) : (setIsl x v s).crossed = s.crossed := rfl
@[simp] theorem setIsl_reserve (x : Nat) (v : IslRed) (s : State) : (setIsl x v s).reserve = s.reserve := rfl
@[simp] theorem setIsl_l2 (x : Nat) (v : IslRed) (s : State) : (setIsl x v s).l2 = s.l2 := rfl
@[simp] theorem setIsl_l1 (x : Nat) (v : IslRed) (s : State) : (setIsl x v s).l1 = s.l1 := rfl
@[simp] theorem setIsl_ind (x : Nat) (v : IslRed) (s : State) : (setIsl x v s).ind = s.ind := rfl
@[simp] theorem setIsl_strata (x : Nat) (v : IslRed) (s : State) : (setIsl x v s).strata = s.strata := rfl
@[simp] theorem setIsl_mirror (x : Nat) (v : IslRed) (s : State) : (setIsl x v s).mirror = s.mirror := rfl
@[simp] theorem setIsl_cap (x : Nat) (v : IslRed) (s : State) : (setIsl x v s).cap = s.cap := rfl
@[simp] theorem setIsl_host (x : Nat) (v : IslRed) (s : State) : (setIsl x v s).host = s.host := rfl
@[simp] theorem setIsl_cmd (x : Nat) (v : IslRed) (s : State) : (setIsl x v s).cmd = s.cmd := rfl
@[simp] theorem setIsl_jrn (x : Nat) (v : IslRed) (s : State) : (setIsl x v s).jrn = s.jrn := rfl
@[simp] theorem setIsl_flash (x : Nat) (v : IslRed) (s : State) : (setIsl x v s).flash = s.flash := rfl
@[simp] theorem setIsl_hsl (x : Nat) (v : IslRed) (s : State) : (setIsl x v s).hsl = s.hsl := rfl
@[simp] theorem setIsl_pre (x : Nat) (v : IslRed) (s : State) : (setIsl x v s).pre = s.pre := rfl
@[simp] theorem setIsl_chan (x : Nat) (v : IslRed) (s : State) : (setIsl x v s).chan = s.chan := rfl
@[simp] theorem setIsl_seq (x : Nat) (v : IslRed) (s : State) : (setIsl x v s).seq = s.seq := rfl
@[simp] theorem setIsl_cal (x : Nat) (v : IslRed) (s : State) : (setIsl x v s).cal = s.cal := rfl
@[simp] theorem setIsl_bas (x : Nat) (v : IslRed) (s : State) : (setIsl x v s).bas = s.bas := rfl
@[simp] theorem setIsl_acc (x : Nat) (v : IslRed) (s : State) : (setIsl x v s).acc = s.acc := rfl
@[simp] theorem setIsl_tdm (x : Nat) (v : IslRed) (s : State) : (setIsl x v s).tdm = s.tdm := rfl
@[simp] theorem setIsl_tls (x : Nat) (v : IslRed) (s : State) : (setIsl x v s).tls = s.tls := rfl
@[simp] theorem setIsl_flashBig (x : Nat) (v : IslRed) (s : State) : (setIsl x v s).flashBig = s.flashBig := rfl
@[simp] theorem setIsl_otp (x : Nat) (v : IslRed) (s : State) : (setIsl x v s).otp = s.otp := rfl
@[simp] theorem setIsl_sec (x : Nat) (v : IslRed) (s : State) : (setIsl x v s).sec = s.sec := rfl
@[simp] theorem setIsl_boot (x : Nat) (v : IslRed) (s : State) : (setIsl x v s).boot = s.boot := rfl

/-! ### setClu -/

@[simp] theorem setClu_pending (c : Nat) (v : CluRed) (s : State) : (setClu c v s).pending = s.pending := rfl
@[simp] theorem setClu_out (c : Nat) (v : CluRed) (s : State) : (setClu c v s).out = s.out := rfl
@[simp] theorem setClu_free (c : Nat) (v : CluRed) (s : State) : (setClu c v s).free = s.free := rfl
@[simp] theorem setClu_variant (c : Nat) (v : CluRed) (s : State) : (setClu c v s).variant = s.variant := rfl
@[simp] theorem setClu_now (c : Nat) (v : CluRed) (s : State) : (setClu c v s).now = s.now := rfl
@[simp] theorem setClu_pwr (c : Nat) (v : CluRed) (s : State) : (setClu c v s).pwr = s.pwr := rfl
@[simp] theorem setClu_wall (c : Nat) (v : CluRed) (s : State) : (setClu c v s).wall = s.wall := rfl
@[simp] theorem setClu_regs (c : Nat) (v : CluRed) (s : State) : (setClu c v s).regs = s.regs := rfl
@[simp] theorem setClu_wide (c : Nat) (v : CluRed) (s : State) : (setClu c v s).wide = s.wide := rfl
@[simp] theorem setClu_mem (c : Nat) (v : CluRed) (s : State) : (setClu c v s).mem = s.mem := rfl
@[simp] theorem setClu_bad (c : Nat) (v : CluRed) (s : State) : (setClu c v s).bad = s.bad := rfl
@[simp] theorem setClu_mtimecmp (c : Nat) (v : CluRed) (s : State) : (setClu c v s).mtimecmp = s.mtimecmp := rfl
@[simp] theorem setClu_hartStart (c : Nat) (v : CluRed) (s : State) : (setClu c v s).hartStart = s.hartStart := rfl
@[simp] theorem setClu_hart (c : Nat) (v : CluRed) (s : State) : (setClu c v s).hart = s.hart := rfl
@[simp] theorem setClu_unfenced (c : Nat) (v : CluRed) (s : State) : (setClu c v s).unfenced = s.unfenced := rfl
@[simp] theorem setClu_crossed (c : Nat) (v : CluRed) (s : State) : (setClu c v s).crossed = s.crossed := rfl
@[simp] theorem setClu_reserve (c : Nat) (v : CluRed) (s : State) : (setClu c v s).reserve = s.reserve := rfl
@[simp] theorem setClu_l2 (c : Nat) (v : CluRed) (s : State) : (setClu c v s).l2 = s.l2 := rfl
@[simp] theorem setClu_l1 (c : Nat) (v : CluRed) (s : State) : (setClu c v s).l1 = s.l1 := rfl
@[simp] theorem setClu_ind (c : Nat) (v : CluRed) (s : State) : (setClu c v s).ind = s.ind := rfl
@[simp] theorem setClu_strata (c : Nat) (v : CluRed) (s : State) : (setClu c v s).strata = s.strata := rfl
@[simp] theorem setClu_mirror (c : Nat) (v : CluRed) (s : State) : (setClu c v s).mirror = s.mirror := rfl
@[simp] theorem setClu_cap (c : Nat) (v : CluRed) (s : State) : (setClu c v s).cap = s.cap := rfl
@[simp] theorem setClu_host (c : Nat) (v : CluRed) (s : State) : (setClu c v s).host = s.host := rfl
@[simp] theorem setClu_cmd (c : Nat) (v : CluRed) (s : State) : (setClu c v s).cmd = s.cmd := rfl
@[simp] theorem setClu_jrn (c : Nat) (v : CluRed) (s : State) : (setClu c v s).jrn = s.jrn := rfl
@[simp] theorem setClu_flash (c : Nat) (v : CluRed) (s : State) : (setClu c v s).flash = s.flash := rfl
@[simp] theorem setClu_hsl (c : Nat) (v : CluRed) (s : State) : (setClu c v s).hsl = s.hsl := rfl
@[simp] theorem setClu_pre (c : Nat) (v : CluRed) (s : State) : (setClu c v s).pre = s.pre := rfl
@[simp] theorem setClu_chan (c : Nat) (v : CluRed) (s : State) : (setClu c v s).chan = s.chan := rfl
@[simp] theorem setClu_seq (c : Nat) (v : CluRed) (s : State) : (setClu c v s).seq = s.seq := rfl
@[simp] theorem setClu_cal (c : Nat) (v : CluRed) (s : State) : (setClu c v s).cal = s.cal := rfl
@[simp] theorem setClu_bas (c : Nat) (v : CluRed) (s : State) : (setClu c v s).bas = s.bas := rfl
@[simp] theorem setClu_acc (c : Nat) (v : CluRed) (s : State) : (setClu c v s).acc = s.acc := rfl
@[simp] theorem setClu_tdm (c : Nat) (v : CluRed) (s : State) : (setClu c v s).tdm = s.tdm := rfl
@[simp] theorem setClu_tls (c : Nat) (v : CluRed) (s : State) : (setClu c v s).tls = s.tls := rfl
@[simp] theorem setClu_flashBig (c : Nat) (v : CluRed) (s : State) : (setClu c v s).flashBig = s.flashBig := rfl
@[simp] theorem setClu_otp (c : Nat) (v : CluRed) (s : State) : (setClu c v s).otp = s.otp := rfl
@[simp] theorem setClu_sec (c : Nat) (v : CluRed) (s : State) : (setClu c v s).sec = s.sec := rfl
@[simp] theorem setClu_boot (c : Nat) (v : CluRed) (s : State) : (setClu c v s).boot = s.boot := rfl

/-! ### setStream -/

@[simp] theorem setStream_pending (k : Nat) (v : Stream) (s : State) : (setStream k v s).pending = s.pending := rfl
@[simp] theorem setStream_out (k : Nat) (v : Stream) (s : State) : (setStream k v s).out = s.out := rfl
@[simp] theorem setStream_free (k : Nat) (v : Stream) (s : State) : (setStream k v s).free = s.free := rfl
@[simp] theorem setStream_variant (k : Nat) (v : Stream) (s : State) : (setStream k v s).variant = s.variant := rfl
@[simp] theorem setStream_now (k : Nat) (v : Stream) (s : State) : (setStream k v s).now = s.now := rfl
@[simp] theorem setStream_pwr (k : Nat) (v : Stream) (s : State) : (setStream k v s).pwr = s.pwr := rfl
@[simp] theorem setStream_wall (k : Nat) (v : Stream) (s : State) : (setStream k v s).wall = s.wall := rfl
@[simp] theorem setStream_regs (k : Nat) (v : Stream) (s : State) : (setStream k v s).regs = s.regs := rfl
@[simp] theorem setStream_wide (k : Nat) (v : Stream) (s : State) : (setStream k v s).wide = s.wide := rfl
@[simp] theorem setStream_mem (k : Nat) (v : Stream) (s : State) : (setStream k v s).mem = s.mem := rfl
@[simp] theorem setStream_bad (k : Nat) (v : Stream) (s : State) : (setStream k v s).bad = s.bad := rfl
@[simp] theorem setStream_mtimecmp (k : Nat) (v : Stream) (s : State) : (setStream k v s).mtimecmp = s.mtimecmp := rfl
@[simp] theorem setStream_hartStart (k : Nat) (v : Stream) (s : State) : (setStream k v s).hartStart = s.hartStart := rfl
@[simp] theorem setStream_hart (k : Nat) (v : Stream) (s : State) : (setStream k v s).hart = s.hart := rfl
@[simp] theorem setStream_unfenced (k : Nat) (v : Stream) (s : State) : (setStream k v s).unfenced = s.unfenced := rfl
@[simp] theorem setStream_crossed (k : Nat) (v : Stream) (s : State) : (setStream k v s).crossed = s.crossed := rfl
@[simp] theorem setStream_reserve (k : Nat) (v : Stream) (s : State) : (setStream k v s).reserve = s.reserve := rfl
@[simp] theorem setStream_l2 (k : Nat) (v : Stream) (s : State) : (setStream k v s).l2 = s.l2 := rfl
@[simp] theorem setStream_l1 (k : Nat) (v : Stream) (s : State) : (setStream k v s).l1 = s.l1 := rfl
@[simp] theorem setStream_ind (k : Nat) (v : Stream) (s : State) : (setStream k v s).ind = s.ind := rfl
@[simp] theorem setStream_red (k : Nat) (v : Stream) (s : State) : (setStream k v s).red = s.red := rfl
@[simp] theorem setStream_strata (k : Nat) (v : Stream) (s : State) : (setStream k v s).strata = s.strata := rfl
@[simp] theorem setStream_mirror (k : Nat) (v : Stream) (s : State) : (setStream k v s).mirror = s.mirror := rfl
@[simp] theorem setStream_host (k : Nat) (v : Stream) (s : State) : (setStream k v s).host = s.host := rfl
@[simp] theorem setStream_cmd (k : Nat) (v : Stream) (s : State) : (setStream k v s).cmd = s.cmd := rfl
@[simp] theorem setStream_jrn (k : Nat) (v : Stream) (s : State) : (setStream k v s).jrn = s.jrn := rfl
@[simp] theorem setStream_flash (k : Nat) (v : Stream) (s : State) : (setStream k v s).flash = s.flash := rfl
@[simp] theorem setStream_hsl (k : Nat) (v : Stream) (s : State) : (setStream k v s).hsl = s.hsl := rfl
@[simp] theorem setStream_pre (k : Nat) (v : Stream) (s : State) : (setStream k v s).pre = s.pre := rfl
@[simp] theorem setStream_chan (k : Nat) (v : Stream) (s : State) : (setStream k v s).chan = s.chan := rfl
@[simp] theorem setStream_seq (k : Nat) (v : Stream) (s : State) : (setStream k v s).seq = s.seq := rfl
@[simp] theorem setStream_cal (k : Nat) (v : Stream) (s : State) : (setStream k v s).cal = s.cal := rfl
@[simp] theorem setStream_bas (k : Nat) (v : Stream) (s : State) : (setStream k v s).bas = s.bas := rfl
@[simp] theorem setStream_acc (k : Nat) (v : Stream) (s : State) : (setStream k v s).acc = s.acc := rfl
@[simp] theorem setStream_tdm (k : Nat) (v : Stream) (s : State) : (setStream k v s).tdm = s.tdm := rfl
@[simp] theorem setStream_tls (k : Nat) (v : Stream) (s : State) : (setStream k v s).tls = s.tls := rfl
@[simp] theorem setStream_flashBig (k : Nat) (v : Stream) (s : State) : (setStream k v s).flashBig = s.flashBig := rfl
@[simp] theorem setStream_otp (k : Nat) (v : Stream) (s : State) : (setStream k v s).otp = s.otp := rfl
@[simp] theorem setStream_sec (k : Nat) (v : Stream) (s : State) : (setStream k v s).sec = s.sec := rfl
@[simp] theorem setStream_boot (k : Nat) (v : Stream) (s : State) : (setStream k v s).boot = s.boot := rfl

/-! ### setPort -/

@[simp] theorem setPort_pending (p : Nat) (v : Port) (s : State) : (setPort p v s).pending = s.pending := rfl
@[simp] theorem setPort_out (p : Nat) (v : Port) (s : State) : (setPort p v s).out = s.out := rfl
@[simp] theorem setPort_free (p : Nat) (v : Port) (s : State) : (setPort p v s).free = s.free := rfl
@[simp] theorem setPort_variant (p : Nat) (v : Port) (s : State) : (setPort p v s).variant = s.variant := rfl
@[simp] theorem setPort_now (p : Nat) (v : Port) (s : State) : (setPort p v s).now = s.now := rfl
@[simp] theorem setPort_pwr (p : Nat) (v : Port) (s : State) : (setPort p v s).pwr = s.pwr := rfl
@[simp] theorem setPort_wall (p : Nat) (v : Port) (s : State) : (setPort p v s).wall = s.wall := rfl
@[simp] theorem setPort_regs (p : Nat) (v : Port) (s : State) : (setPort p v s).regs = s.regs := rfl
@[simp] theorem setPort_wide (p : Nat) (v : Port) (s : State) : (setPort p v s).wide = s.wide := rfl
@[simp] theorem setPort_mem (p : Nat) (v : Port) (s : State) : (setPort p v s).mem = s.mem := rfl
@[simp] theorem setPort_bad (p : Nat) (v : Port) (s : State) : (setPort p v s).bad = s.bad := rfl
@[simp] theorem setPort_mtimecmp (p : Nat) (v : Port) (s : State) : (setPort p v s).mtimecmp = s.mtimecmp := rfl
@[simp] theorem setPort_hartStart (p : Nat) (v : Port) (s : State) : (setPort p v s).hartStart = s.hartStart := rfl
@[simp] theorem setPort_hart (p : Nat) (v : Port) (s : State) : (setPort p v s).hart = s.hart := rfl
@[simp] theorem setPort_unfenced (p : Nat) (v : Port) (s : State) : (setPort p v s).unfenced = s.unfenced := rfl
@[simp] theorem setPort_crossed (p : Nat) (v : Port) (s : State) : (setPort p v s).crossed = s.crossed := rfl
@[simp] theorem setPort_reserve (p : Nat) (v : Port) (s : State) : (setPort p v s).reserve = s.reserve := rfl
@[simp] theorem setPort_l2 (p : Nat) (v : Port) (s : State) : (setPort p v s).l2 = s.l2 := rfl
@[simp] theorem setPort_l1 (p : Nat) (v : Port) (s : State) : (setPort p v s).l1 = s.l1 := rfl
@[simp] theorem setPort_ind (p : Nat) (v : Port) (s : State) : (setPort p v s).ind = s.ind := rfl
@[simp] theorem setPort_red (p : Nat) (v : Port) (s : State) : (setPort p v s).red = s.red := rfl
@[simp] theorem setPort_strata (p : Nat) (v : Port) (s : State) : (setPort p v s).strata = s.strata := rfl
@[simp] theorem setPort_mirror (p : Nat) (v : Port) (s : State) : (setPort p v s).mirror = s.mirror := rfl
@[simp] theorem setPort_cap (p : Nat) (v : Port) (s : State) : (setPort p v s).cap = s.cap := rfl
@[simp] theorem setPort_cmd (p : Nat) (v : Port) (s : State) : (setPort p v s).cmd = s.cmd := rfl
@[simp] theorem setPort_jrn (p : Nat) (v : Port) (s : State) : (setPort p v s).jrn = s.jrn := rfl
@[simp] theorem setPort_flash (p : Nat) (v : Port) (s : State) : (setPort p v s).flash = s.flash := rfl
@[simp] theorem setPort_hsl (p : Nat) (v : Port) (s : State) : (setPort p v s).hsl = s.hsl := rfl
@[simp] theorem setPort_pre (p : Nat) (v : Port) (s : State) : (setPort p v s).pre = s.pre := rfl
@[simp] theorem setPort_chan (p : Nat) (v : Port) (s : State) : (setPort p v s).chan = s.chan := rfl
@[simp] theorem setPort_seq (p : Nat) (v : Port) (s : State) : (setPort p v s).seq = s.seq := rfl
@[simp] theorem setPort_cal (p : Nat) (v : Port) (s : State) : (setPort p v s).cal = s.cal := rfl
@[simp] theorem setPort_bas (p : Nat) (v : Port) (s : State) : (setPort p v s).bas = s.bas := rfl
@[simp] theorem setPort_acc (p : Nat) (v : Port) (s : State) : (setPort p v s).acc = s.acc := rfl
@[simp] theorem setPort_tdm (p : Nat) (v : Port) (s : State) : (setPort p v s).tdm = s.tdm := rfl
@[simp] theorem setPort_tls (p : Nat) (v : Port) (s : State) : (setPort p v s).tls = s.tls := rfl
@[simp] theorem setPort_flashBig (p : Nat) (v : Port) (s : State) : (setPort p v s).flashBig = s.flashBig := rfl
@[simp] theorem setPort_otp (p : Nat) (v : Port) (s : State) : (setPort p v s).otp = s.otp := rfl
@[simp] theorem setPort_sec (p : Nat) (v : Port) (s : State) : (setPort p v s).sec = s.sec := rfl
@[simp] theorem setPort_boot (p : Nat) (v : Port) (s : State) : (setPort p v s).boot = s.boot := rfl

/-! ### setCtx -/

@[simp] theorem setCtx_pending (x : Nat) (v : Option Ctx) (s : State) : (setCtx x v s).pending = s.pending := rfl
@[simp] theorem setCtx_out (x : Nat) (v : Option Ctx) (s : State) : (setCtx x v s).out = s.out := rfl
@[simp] theorem setCtx_free (x : Nat) (v : Option Ctx) (s : State) : (setCtx x v s).free = s.free := rfl
@[simp] theorem setCtx_variant (x : Nat) (v : Option Ctx) (s : State) : (setCtx x v s).variant = s.variant := rfl
@[simp] theorem setCtx_now (x : Nat) (v : Option Ctx) (s : State) : (setCtx x v s).now = s.now := rfl
@[simp] theorem setCtx_pwr (x : Nat) (v : Option Ctx) (s : State) : (setCtx x v s).pwr = s.pwr := rfl
@[simp] theorem setCtx_wall (x : Nat) (v : Option Ctx) (s : State) : (setCtx x v s).wall = s.wall := rfl
@[simp] theorem setCtx_regs (x : Nat) (v : Option Ctx) (s : State) : (setCtx x v s).regs = s.regs := rfl
@[simp] theorem setCtx_wide (x : Nat) (v : Option Ctx) (s : State) : (setCtx x v s).wide = s.wide := rfl
@[simp] theorem setCtx_mem (x : Nat) (v : Option Ctx) (s : State) : (setCtx x v s).mem = s.mem := rfl
@[simp] theorem setCtx_bad (x : Nat) (v : Option Ctx) (s : State) : (setCtx x v s).bad = s.bad := rfl
@[simp] theorem setCtx_mtimecmp (x : Nat) (v : Option Ctx) (s : State) : (setCtx x v s).mtimecmp = s.mtimecmp := rfl
@[simp] theorem setCtx_hartStart (x : Nat) (v : Option Ctx) (s : State) : (setCtx x v s).hartStart = s.hartStart := rfl
@[simp] theorem setCtx_hart (x : Nat) (v : Option Ctx) (s : State) : (setCtx x v s).hart = s.hart := rfl
@[simp] theorem setCtx_unfenced (x : Nat) (v : Option Ctx) (s : State) : (setCtx x v s).unfenced = s.unfenced := rfl
@[simp] theorem setCtx_crossed (x : Nat) (v : Option Ctx) (s : State) : (setCtx x v s).crossed = s.crossed := rfl
@[simp] theorem setCtx_reserve (x : Nat) (v : Option Ctx) (s : State) : (setCtx x v s).reserve = s.reserve := rfl
@[simp] theorem setCtx_l2 (x : Nat) (v : Option Ctx) (s : State) : (setCtx x v s).l2 = s.l2 := rfl
@[simp] theorem setCtx_l1 (x : Nat) (v : Option Ctx) (s : State) : (setCtx x v s).l1 = s.l1 := rfl
@[simp] theorem setCtx_ind (x : Nat) (v : Option Ctx) (s : State) : (setCtx x v s).ind = s.ind := rfl
@[simp] theorem setCtx_red (x : Nat) (v : Option Ctx) (s : State) : (setCtx x v s).red = s.red := rfl
@[simp] theorem setCtx_strata (x : Nat) (v : Option Ctx) (s : State) : (setCtx x v s).strata = s.strata := rfl
@[simp] theorem setCtx_mirror (x : Nat) (v : Option Ctx) (s : State) : (setCtx x v s).mirror = s.mirror := rfl
@[simp] theorem setCtx_cap (x : Nat) (v : Option Ctx) (s : State) : (setCtx x v s).cap = s.cap := rfl
@[simp] theorem setCtx_cmd (x : Nat) (v : Option Ctx) (s : State) : (setCtx x v s).cmd = s.cmd := rfl
@[simp] theorem setCtx_jrn (x : Nat) (v : Option Ctx) (s : State) : (setCtx x v s).jrn = s.jrn := rfl
@[simp] theorem setCtx_flash (x : Nat) (v : Option Ctx) (s : State) : (setCtx x v s).flash = s.flash := rfl
@[simp] theorem setCtx_hsl (x : Nat) (v : Option Ctx) (s : State) : (setCtx x v s).hsl = s.hsl := rfl
@[simp] theorem setCtx_pre (x : Nat) (v : Option Ctx) (s : State) : (setCtx x v s).pre = s.pre := rfl
@[simp] theorem setCtx_chan (x : Nat) (v : Option Ctx) (s : State) : (setCtx x v s).chan = s.chan := rfl
@[simp] theorem setCtx_seq (x : Nat) (v : Option Ctx) (s : State) : (setCtx x v s).seq = s.seq := rfl
@[simp] theorem setCtx_cal (x : Nat) (v : Option Ctx) (s : State) : (setCtx x v s).cal = s.cal := rfl
@[simp] theorem setCtx_bas (x : Nat) (v : Option Ctx) (s : State) : (setCtx x v s).bas = s.bas := rfl
@[simp] theorem setCtx_acc (x : Nat) (v : Option Ctx) (s : State) : (setCtx x v s).acc = s.acc := rfl
@[simp] theorem setCtx_tdm (x : Nat) (v : Option Ctx) (s : State) : (setCtx x v s).tdm = s.tdm := rfl
@[simp] theorem setCtx_tls (x : Nat) (v : Option Ctx) (s : State) : (setCtx x v s).tls = s.tls := rfl
@[simp] theorem setCtx_flashBig (x : Nat) (v : Option Ctx) (s : State) : (setCtx x v s).flashBig = s.flashBig := rfl
@[simp] theorem setCtx_otp (x : Nat) (v : Option Ctx) (s : State) : (setCtx x v s).otp = s.otp := rfl
@[simp] theorem setCtx_sec (x : Nat) (v : Option Ctx) (s : State) : (setCtx x v s).sec = s.sec := rfl
@[simp] theorem setCtx_boot (x : Nat) (v : Option Ctx) (s : State) : (setCtx x v s).boot = s.boot := rfl

/-! ### setCtrl -/

@[simp] theorem setCtrl_pending (x : Nat) (v : Option Ctrl) (s : State) : (setCtrl x v s).pending = s.pending := rfl
@[simp] theorem setCtrl_out (x : Nat) (v : Option Ctrl) (s : State) : (setCtrl x v s).out = s.out := rfl
@[simp] theorem setCtrl_free (x : Nat) (v : Option Ctrl) (s : State) : (setCtrl x v s).free = s.free := rfl
@[simp] theorem setCtrl_variant (x : Nat) (v : Option Ctrl) (s : State) : (setCtrl x v s).variant = s.variant := rfl
@[simp] theorem setCtrl_now (x : Nat) (v : Option Ctrl) (s : State) : (setCtrl x v s).now = s.now := rfl
@[simp] theorem setCtrl_pwr (x : Nat) (v : Option Ctrl) (s : State) : (setCtrl x v s).pwr = s.pwr := rfl
@[simp] theorem setCtrl_wall (x : Nat) (v : Option Ctrl) (s : State) : (setCtrl x v s).wall = s.wall := rfl
@[simp] theorem setCtrl_regs (x : Nat) (v : Option Ctrl) (s : State) : (setCtrl x v s).regs = s.regs := rfl
@[simp] theorem setCtrl_wide (x : Nat) (v : Option Ctrl) (s : State) : (setCtrl x v s).wide = s.wide := rfl
@[simp] theorem setCtrl_mem (x : Nat) (v : Option Ctrl) (s : State) : (setCtrl x v s).mem = s.mem := rfl
@[simp] theorem setCtrl_bad (x : Nat) (v : Option Ctrl) (s : State) : (setCtrl x v s).bad = s.bad := rfl
@[simp] theorem setCtrl_mtimecmp (x : Nat) (v : Option Ctrl) (s : State) : (setCtrl x v s).mtimecmp = s.mtimecmp := rfl
@[simp] theorem setCtrl_hartStart (x : Nat) (v : Option Ctrl) (s : State) : (setCtrl x v s).hartStart = s.hartStart := rfl
@[simp] theorem setCtrl_hart (x : Nat) (v : Option Ctrl) (s : State) : (setCtrl x v s).hart = s.hart := rfl
@[simp] theorem setCtrl_unfenced (x : Nat) (v : Option Ctrl) (s : State) : (setCtrl x v s).unfenced = s.unfenced := rfl
@[simp] theorem setCtrl_crossed (x : Nat) (v : Option Ctrl) (s : State) : (setCtrl x v s).crossed = s.crossed := rfl
@[simp] theorem setCtrl_reserve (x : Nat) (v : Option Ctrl) (s : State) : (setCtrl x v s).reserve = s.reserve := rfl
@[simp] theorem setCtrl_l2 (x : Nat) (v : Option Ctrl) (s : State) : (setCtrl x v s).l2 = s.l2 := rfl
@[simp] theorem setCtrl_l1 (x : Nat) (v : Option Ctrl) (s : State) : (setCtrl x v s).l1 = s.l1 := rfl
@[simp] theorem setCtrl_ind (x : Nat) (v : Option Ctrl) (s : State) : (setCtrl x v s).ind = s.ind := rfl
@[simp] theorem setCtrl_red (x : Nat) (v : Option Ctrl) (s : State) : (setCtrl x v s).red = s.red := rfl
@[simp] theorem setCtrl_strata (x : Nat) (v : Option Ctrl) (s : State) : (setCtrl x v s).strata = s.strata := rfl
@[simp] theorem setCtrl_mirror (x : Nat) (v : Option Ctrl) (s : State) : (setCtrl x v s).mirror = s.mirror := rfl
@[simp] theorem setCtrl_cap (x : Nat) (v : Option Ctrl) (s : State) : (setCtrl x v s).cap = s.cap := rfl
@[simp] theorem setCtrl_cmd (x : Nat) (v : Option Ctrl) (s : State) : (setCtrl x v s).cmd = s.cmd := rfl
@[simp] theorem setCtrl_jrn (x : Nat) (v : Option Ctrl) (s : State) : (setCtrl x v s).jrn = s.jrn := rfl
@[simp] theorem setCtrl_flash (x : Nat) (v : Option Ctrl) (s : State) : (setCtrl x v s).flash = s.flash := rfl
@[simp] theorem setCtrl_hsl (x : Nat) (v : Option Ctrl) (s : State) : (setCtrl x v s).hsl = s.hsl := rfl
@[simp] theorem setCtrl_pre (x : Nat) (v : Option Ctrl) (s : State) : (setCtrl x v s).pre = s.pre := rfl
@[simp] theorem setCtrl_chan (x : Nat) (v : Option Ctrl) (s : State) : (setCtrl x v s).chan = s.chan := rfl
@[simp] theorem setCtrl_seq (x : Nat) (v : Option Ctrl) (s : State) : (setCtrl x v s).seq = s.seq := rfl
@[simp] theorem setCtrl_cal (x : Nat) (v : Option Ctrl) (s : State) : (setCtrl x v s).cal = s.cal := rfl
@[simp] theorem setCtrl_bas (x : Nat) (v : Option Ctrl) (s : State) : (setCtrl x v s).bas = s.bas := rfl
@[simp] theorem setCtrl_acc (x : Nat) (v : Option Ctrl) (s : State) : (setCtrl x v s).acc = s.acc := rfl
@[simp] theorem setCtrl_tdm (x : Nat) (v : Option Ctrl) (s : State) : (setCtrl x v s).tdm = s.tdm := rfl
@[simp] theorem setCtrl_tls (x : Nat) (v : Option Ctrl) (s : State) : (setCtrl x v s).tls = s.tls := rfl
@[simp] theorem setCtrl_flashBig (x : Nat) (v : Option Ctrl) (s : State) : (setCtrl x v s).flashBig = s.flashBig := rfl
@[simp] theorem setCtrl_otp (x : Nat) (v : Option Ctrl) (s : State) : (setCtrl x v s).otp = s.otp := rfl
@[simp] theorem setCtrl_sec (x : Nat) (v : Option Ctrl) (s : State) : (setCtrl x v s).sec = s.sec := rfl
@[simp] theorem setCtrl_boot (x : Nat) (v : Option Ctrl) (s : State) : (setCtrl x v s).boot = s.boot := rfl

/-! ### setRec -/

@[simp] theorem setRec_pending (x : Nat) (v : EntryRec) (s : State) : (setRec x v s).pending = s.pending := rfl
@[simp] theorem setRec_out (x : Nat) (v : EntryRec) (s : State) : (setRec x v s).out = s.out := rfl
@[simp] theorem setRec_free (x : Nat) (v : EntryRec) (s : State) : (setRec x v s).free = s.free := rfl
@[simp] theorem setRec_variant (x : Nat) (v : EntryRec) (s : State) : (setRec x v s).variant = s.variant := rfl
@[simp] theorem setRec_now (x : Nat) (v : EntryRec) (s : State) : (setRec x v s).now = s.now := rfl
@[simp] theorem setRec_pwr (x : Nat) (v : EntryRec) (s : State) : (setRec x v s).pwr = s.pwr := rfl
@[simp] theorem setRec_wall (x : Nat) (v : EntryRec) (s : State) : (setRec x v s).wall = s.wall := rfl
@[simp] theorem setRec_regs (x : Nat) (v : EntryRec) (s : State) : (setRec x v s).regs = s.regs := rfl
@[simp] theorem setRec_wide (x : Nat) (v : EntryRec) (s : State) : (setRec x v s).wide = s.wide := rfl
@[simp] theorem setRec_mem (x : Nat) (v : EntryRec) (s : State) : (setRec x v s).mem = s.mem := rfl
@[simp] theorem setRec_bad (x : Nat) (v : EntryRec) (s : State) : (setRec x v s).bad = s.bad := rfl
@[simp] theorem setRec_mtimecmp (x : Nat) (v : EntryRec) (s : State) : (setRec x v s).mtimecmp = s.mtimecmp := rfl
@[simp] theorem setRec_hartStart (x : Nat) (v : EntryRec) (s : State) : (setRec x v s).hartStart = s.hartStart := rfl
@[simp] theorem setRec_hart (x : Nat) (v : EntryRec) (s : State) : (setRec x v s).hart = s.hart := rfl
@[simp] theorem setRec_unfenced (x : Nat) (v : EntryRec) (s : State) : (setRec x v s).unfenced = s.unfenced := rfl
@[simp] theorem setRec_crossed (x : Nat) (v : EntryRec) (s : State) : (setRec x v s).crossed = s.crossed := rfl
@[simp] theorem setRec_reserve (x : Nat) (v : EntryRec) (s : State) : (setRec x v s).reserve = s.reserve := rfl
@[simp] theorem setRec_l2 (x : Nat) (v : EntryRec) (s : State) : (setRec x v s).l2 = s.l2 := rfl
@[simp] theorem setRec_l1 (x : Nat) (v : EntryRec) (s : State) : (setRec x v s).l1 = s.l1 := rfl
@[simp] theorem setRec_ind (x : Nat) (v : EntryRec) (s : State) : (setRec x v s).ind = s.ind := rfl
@[simp] theorem setRec_red (x : Nat) (v : EntryRec) (s : State) : (setRec x v s).red = s.red := rfl
@[simp] theorem setRec_strata (x : Nat) (v : EntryRec) (s : State) : (setRec x v s).strata = s.strata := rfl
@[simp] theorem setRec_mirror (x : Nat) (v : EntryRec) (s : State) : (setRec x v s).mirror = s.mirror := rfl
@[simp] theorem setRec_cap (x : Nat) (v : EntryRec) (s : State) : (setRec x v s).cap = s.cap := rfl
@[simp] theorem setRec_host (x : Nat) (v : EntryRec) (s : State) : (setRec x v s).host = s.host := rfl
@[simp] theorem setRec_cmd (x : Nat) (v : EntryRec) (s : State) : (setRec x v s).cmd = s.cmd := rfl
@[simp] theorem setRec_flash (x : Nat) (v : EntryRec) (s : State) : (setRec x v s).flash = s.flash := rfl
@[simp] theorem setRec_hsl (x : Nat) (v : EntryRec) (s : State) : (setRec x v s).hsl = s.hsl := rfl
@[simp] theorem setRec_pre (x : Nat) (v : EntryRec) (s : State) : (setRec x v s).pre = s.pre := rfl
@[simp] theorem setRec_chan (x : Nat) (v : EntryRec) (s : State) : (setRec x v s).chan = s.chan := rfl
@[simp] theorem setRec_seq (x : Nat) (v : EntryRec) (s : State) : (setRec x v s).seq = s.seq := rfl
@[simp] theorem setRec_cal (x : Nat) (v : EntryRec) (s : State) : (setRec x v s).cal = s.cal := rfl
@[simp] theorem setRec_bas (x : Nat) (v : EntryRec) (s : State) : (setRec x v s).bas = s.bas := rfl
@[simp] theorem setRec_acc (x : Nat) (v : EntryRec) (s : State) : (setRec x v s).acc = s.acc := rfl
@[simp] theorem setRec_tdm (x : Nat) (v : EntryRec) (s : State) : (setRec x v s).tdm = s.tdm := rfl
@[simp] theorem setRec_tls (x : Nat) (v : EntryRec) (s : State) : (setRec x v s).tls = s.tls := rfl
@[simp] theorem setRec_flashBig (x : Nat) (v : EntryRec) (s : State) : (setRec x v s).flashBig = s.flashBig := rfl
@[simp] theorem setRec_otp (x : Nat) (v : EntryRec) (s : State) : (setRec x v s).otp = s.otp := rfl
@[simp] theorem setRec_sec (x : Nat) (v : EntryRec) (s : State) : (setRec x v s).sec = s.sec := rfl
@[simp] theorem setRec_boot (x : Nat) (v : EntryRec) (s : State) : (setRec x v s).boot = s.boot := rfl

/-! ### setSlot -/

@[simp] theorem setSlot_pending (x : Nat) (v : Slot) (s : State) : (setSlot x v s).pending = s.pending := rfl
@[simp] theorem setSlot_out (x : Nat) (v : Slot) (s : State) : (setSlot x v s).out = s.out := rfl
@[simp] theorem setSlot_free (x : Nat) (v : Slot) (s : State) : (setSlot x v s).free = s.free := rfl
@[simp] theorem setSlot_variant (x : Nat) (v : Slot) (s : State) : (setSlot x v s).variant = s.variant := rfl
@[simp] theorem setSlot_now (x : Nat) (v : Slot) (s : State) : (setSlot x v s).now = s.now := rfl
@[simp] theorem setSlot_pwr (x : Nat) (v : Slot) (s : State) : (setSlot x v s).pwr = s.pwr := rfl
@[simp] theorem setSlot_wall (x : Nat) (v : Slot) (s : State) : (setSlot x v s).wall = s.wall := rfl
@[simp] theorem setSlot_regs (x : Nat) (v : Slot) (s : State) : (setSlot x v s).regs = s.regs := rfl
@[simp] theorem setSlot_wide (x : Nat) (v : Slot) (s : State) : (setSlot x v s).wide = s.wide := rfl
@[simp] theorem setSlot_mem (x : Nat) (v : Slot) (s : State) : (setSlot x v s).mem = s.mem := rfl
@[simp] theorem setSlot_bad (x : Nat) (v : Slot) (s : State) : (setSlot x v s).bad = s.bad := rfl
@[simp] theorem setSlot_mtimecmp (x : Nat) (v : Slot) (s : State) : (setSlot x v s).mtimecmp = s.mtimecmp := rfl
@[simp] theorem setSlot_hartStart (x : Nat) (v : Slot) (s : State) : (setSlot x v s).hartStart = s.hartStart := rfl
@[simp] theorem setSlot_hart (x : Nat) (v : Slot) (s : State) : (setSlot x v s).hart = s.hart := rfl
@[simp] theorem setSlot_unfenced (x : Nat) (v : Slot) (s : State) : (setSlot x v s).unfenced = s.unfenced := rfl
@[simp] theorem setSlot_crossed (x : Nat) (v : Slot) (s : State) : (setSlot x v s).crossed = s.crossed := rfl
@[simp] theorem setSlot_reserve (x : Nat) (v : Slot) (s : State) : (setSlot x v s).reserve = s.reserve := rfl
@[simp] theorem setSlot_l2 (x : Nat) (v : Slot) (s : State) : (setSlot x v s).l2 = s.l2 := rfl
@[simp] theorem setSlot_l1 (x : Nat) (v : Slot) (s : State) : (setSlot x v s).l1 = s.l1 := rfl
@[simp] theorem setSlot_ind (x : Nat) (v : Slot) (s : State) : (setSlot x v s).ind = s.ind := rfl
@[simp] theorem setSlot_red (x : Nat) (v : Slot) (s : State) : (setSlot x v s).red = s.red := rfl
@[simp] theorem setSlot_strata (x : Nat) (v : Slot) (s : State) : (setSlot x v s).strata = s.strata := rfl
@[simp] theorem setSlot_mirror (x : Nat) (v : Slot) (s : State) : (setSlot x v s).mirror = s.mirror := rfl
@[simp] theorem setSlot_cap (x : Nat) (v : Slot) (s : State) : (setSlot x v s).cap = s.cap := rfl
@[simp] theorem setSlot_host (x : Nat) (v : Slot) (s : State) : (setSlot x v s).host = s.host := rfl
@[simp] theorem setSlot_cmd (x : Nat) (v : Slot) (s : State) : (setSlot x v s).cmd = s.cmd := rfl
@[simp] theorem setSlot_flash (x : Nat) (v : Slot) (s : State) : (setSlot x v s).flash = s.flash := rfl
@[simp] theorem setSlot_hsl (x : Nat) (v : Slot) (s : State) : (setSlot x v s).hsl = s.hsl := rfl
@[simp] theorem setSlot_pre (x : Nat) (v : Slot) (s : State) : (setSlot x v s).pre = s.pre := rfl
@[simp] theorem setSlot_chan (x : Nat) (v : Slot) (s : State) : (setSlot x v s).chan = s.chan := rfl
@[simp] theorem setSlot_seq (x : Nat) (v : Slot) (s : State) : (setSlot x v s).seq = s.seq := rfl
@[simp] theorem setSlot_cal (x : Nat) (v : Slot) (s : State) : (setSlot x v s).cal = s.cal := rfl
@[simp] theorem setSlot_bas (x : Nat) (v : Slot) (s : State) : (setSlot x v s).bas = s.bas := rfl
@[simp] theorem setSlot_acc (x : Nat) (v : Slot) (s : State) : (setSlot x v s).acc = s.acc := rfl
@[simp] theorem setSlot_tdm (x : Nat) (v : Slot) (s : State) : (setSlot x v s).tdm = s.tdm := rfl
@[simp] theorem setSlot_tls (x : Nat) (v : Slot) (s : State) : (setSlot x v s).tls = s.tls := rfl
@[simp] theorem setSlot_flashBig (x : Nat) (v : Slot) (s : State) : (setSlot x v s).flashBig = s.flashBig := rfl
@[simp] theorem setSlot_otp (x : Nat) (v : Slot) (s : State) : (setSlot x v s).otp = s.otp := rfl
@[simp] theorem setSlot_sec (x : Nat) (v : Slot) (s : State) : (setSlot x v s).sec = s.sec := rfl
@[simp] theorem setSlot_boot (x : Nat) (v : Slot) (s : State) : (setSlot x v s).boot = s.boot := rfl

/-! ### setZone -/

@[simp] theorem setZone_pending (g : Nat) (v : ZoneEnt) (s : State) : (setZone g v s).pending = s.pending := rfl
@[simp] theorem setZone_out (g : Nat) (v : ZoneEnt) (s : State) : (setZone g v s).out = s.out := rfl
@[simp] theorem setZone_free (g : Nat) (v : ZoneEnt) (s : State) : (setZone g v s).free = s.free := rfl
@[simp] theorem setZone_variant (g : Nat) (v : ZoneEnt) (s : State) : (setZone g v s).variant = s.variant := rfl
@[simp] theorem setZone_now (g : Nat) (v : ZoneEnt) (s : State) : (setZone g v s).now = s.now := rfl
@[simp] theorem setZone_pwr (g : Nat) (v : ZoneEnt) (s : State) : (setZone g v s).pwr = s.pwr := rfl
@[simp] theorem setZone_wall (g : Nat) (v : ZoneEnt) (s : State) : (setZone g v s).wall = s.wall := rfl
@[simp] theorem setZone_regs (g : Nat) (v : ZoneEnt) (s : State) : (setZone g v s).regs = s.regs := rfl
@[simp] theorem setZone_wide (g : Nat) (v : ZoneEnt) (s : State) : (setZone g v s).wide = s.wide := rfl
@[simp] theorem setZone_mem (g : Nat) (v : ZoneEnt) (s : State) : (setZone g v s).mem = s.mem := rfl
@[simp] theorem setZone_bad (g : Nat) (v : ZoneEnt) (s : State) : (setZone g v s).bad = s.bad := rfl
@[simp] theorem setZone_mtimecmp (g : Nat) (v : ZoneEnt) (s : State) : (setZone g v s).mtimecmp = s.mtimecmp := rfl
@[simp] theorem setZone_hartStart (g : Nat) (v : ZoneEnt) (s : State) : (setZone g v s).hartStart = s.hartStart := rfl
@[simp] theorem setZone_hart (g : Nat) (v : ZoneEnt) (s : State) : (setZone g v s).hart = s.hart := rfl
@[simp] theorem setZone_unfenced (g : Nat) (v : ZoneEnt) (s : State) : (setZone g v s).unfenced = s.unfenced := rfl
@[simp] theorem setZone_crossed (g : Nat) (v : ZoneEnt) (s : State) : (setZone g v s).crossed = s.crossed := rfl
@[simp] theorem setZone_reserve (g : Nat) (v : ZoneEnt) (s : State) : (setZone g v s).reserve = s.reserve := rfl
@[simp] theorem setZone_l2 (g : Nat) (v : ZoneEnt) (s : State) : (setZone g v s).l2 = s.l2 := rfl
@[simp] theorem setZone_l1 (g : Nat) (v : ZoneEnt) (s : State) : (setZone g v s).l1 = s.l1 := rfl
@[simp] theorem setZone_ind (g : Nat) (v : ZoneEnt) (s : State) : (setZone g v s).ind = s.ind := rfl
@[simp] theorem setZone_red (g : Nat) (v : ZoneEnt) (s : State) : (setZone g v s).red = s.red := rfl
@[simp] theorem setZone_strata (g : Nat) (v : ZoneEnt) (s : State) : (setZone g v s).strata = s.strata := rfl
@[simp] theorem setZone_mirror (g : Nat) (v : ZoneEnt) (s : State) : (setZone g v s).mirror = s.mirror := rfl
@[simp] theorem setZone_cap (g : Nat) (v : ZoneEnt) (s : State) : (setZone g v s).cap = s.cap := rfl
@[simp] theorem setZone_host (g : Nat) (v : ZoneEnt) (s : State) : (setZone g v s).host = s.host := rfl
@[simp] theorem setZone_cmd (g : Nat) (v : ZoneEnt) (s : State) : (setZone g v s).cmd = s.cmd := rfl
@[simp] theorem setZone_flash (g : Nat) (v : ZoneEnt) (s : State) : (setZone g v s).flash = s.flash := rfl
@[simp] theorem setZone_hsl (g : Nat) (v : ZoneEnt) (s : State) : (setZone g v s).hsl = s.hsl := rfl
@[simp] theorem setZone_pre (g : Nat) (v : ZoneEnt) (s : State) : (setZone g v s).pre = s.pre := rfl
@[simp] theorem setZone_chan (g : Nat) (v : ZoneEnt) (s : State) : (setZone g v s).chan = s.chan := rfl
@[simp] theorem setZone_seq (g : Nat) (v : ZoneEnt) (s : State) : (setZone g v s).seq = s.seq := rfl
@[simp] theorem setZone_cal (g : Nat) (v : ZoneEnt) (s : State) : (setZone g v s).cal = s.cal := rfl
@[simp] theorem setZone_bas (g : Nat) (v : ZoneEnt) (s : State) : (setZone g v s).bas = s.bas := rfl
@[simp] theorem setZone_acc (g : Nat) (v : ZoneEnt) (s : State) : (setZone g v s).acc = s.acc := rfl
@[simp] theorem setZone_tdm (g : Nat) (v : ZoneEnt) (s : State) : (setZone g v s).tdm = s.tdm := rfl
@[simp] theorem setZone_tls (g : Nat) (v : ZoneEnt) (s : State) : (setZone g v s).tls = s.tls := rfl
@[simp] theorem setZone_flashBig (g : Nat) (v : ZoneEnt) (s : State) : (setZone g v s).flashBig = s.flashBig := rfl
@[simp] theorem setZone_otp (g : Nat) (v : ZoneEnt) (s : State) : (setZone g v s).otp = s.otp := rfl
@[simp] theorem setZone_sec (g : Nat) (v : ZoneEnt) (s : State) : (setZone g v s).sec = s.sec := rfl
@[simp] theorem setZone_boot (g : Nat) (v : ZoneEnt) (s : State) : (setZone g v s).boot = s.boot := rfl

/-! ### setIZ -/

@[simp] theorem setIZ_pending (g : Nat) (v : IZone) (s : State) : (setIZ g v s).pending = s.pending := rfl
@[simp] theorem setIZ_out (g : Nat) (v : IZone) (s : State) : (setIZ g v s).out = s.out := rfl
@[simp] theorem setIZ_free (g : Nat) (v : IZone) (s : State) : (setIZ g v s).free = s.free := rfl
@[simp] theorem setIZ_variant (g : Nat) (v : IZone) (s : State) : (setIZ g v s).variant = s.variant := rfl
@[simp] theorem setIZ_now (g : Nat) (v : IZone) (s : State) : (setIZ g v s).now = s.now := rfl
@[simp] theorem setIZ_pwr (g : Nat) (v : IZone) (s : State) : (setIZ g v s).pwr = s.pwr := rfl
@[simp] theorem setIZ_wall (g : Nat) (v : IZone) (s : State) : (setIZ g v s).wall = s.wall := rfl
@[simp] theorem setIZ_regs (g : Nat) (v : IZone) (s : State) : (setIZ g v s).regs = s.regs := rfl
@[simp] theorem setIZ_wide (g : Nat) (v : IZone) (s : State) : (setIZ g v s).wide = s.wide := rfl
@[simp] theorem setIZ_mem (g : Nat) (v : IZone) (s : State) : (setIZ g v s).mem = s.mem := rfl
@[simp] theorem setIZ_bad (g : Nat) (v : IZone) (s : State) : (setIZ g v s).bad = s.bad := rfl
@[simp] theorem setIZ_mtimecmp (g : Nat) (v : IZone) (s : State) : (setIZ g v s).mtimecmp = s.mtimecmp := rfl
@[simp] theorem setIZ_hartStart (g : Nat) (v : IZone) (s : State) : (setIZ g v s).hartStart = s.hartStart := rfl
@[simp] theorem setIZ_hart (g : Nat) (v : IZone) (s : State) : (setIZ g v s).hart = s.hart := rfl
@[simp] theorem setIZ_unfenced (g : Nat) (v : IZone) (s : State) : (setIZ g v s).unfenced = s.unfenced := rfl
@[simp] theorem setIZ_crossed (g : Nat) (v : IZone) (s : State) : (setIZ g v s).crossed = s.crossed := rfl
@[simp] theorem setIZ_reserve (g : Nat) (v : IZone) (s : State) : (setIZ g v s).reserve = s.reserve := rfl
@[simp] theorem setIZ_l2 (g : Nat) (v : IZone) (s : State) : (setIZ g v s).l2 = s.l2 := rfl
@[simp] theorem setIZ_l1 (g : Nat) (v : IZone) (s : State) : (setIZ g v s).l1 = s.l1 := rfl
@[simp] theorem setIZ_ind (g : Nat) (v : IZone) (s : State) : (setIZ g v s).ind = s.ind := rfl
@[simp] theorem setIZ_red (g : Nat) (v : IZone) (s : State) : (setIZ g v s).red = s.red := rfl
@[simp] theorem setIZ_strata (g : Nat) (v : IZone) (s : State) : (setIZ g v s).strata = s.strata := rfl
@[simp] theorem setIZ_mirror (g : Nat) (v : IZone) (s : State) : (setIZ g v s).mirror = s.mirror := rfl
@[simp] theorem setIZ_cap (g : Nat) (v : IZone) (s : State) : (setIZ g v s).cap = s.cap := rfl
@[simp] theorem setIZ_host (g : Nat) (v : IZone) (s : State) : (setIZ g v s).host = s.host := rfl
@[simp] theorem setIZ_jrn (g : Nat) (v : IZone) (s : State) : (setIZ g v s).jrn = s.jrn := rfl
@[simp] theorem setIZ_flash (g : Nat) (v : IZone) (s : State) : (setIZ g v s).flash = s.flash := rfl
@[simp] theorem setIZ_hsl (g : Nat) (v : IZone) (s : State) : (setIZ g v s).hsl = s.hsl := rfl
@[simp] theorem setIZ_pre (g : Nat) (v : IZone) (s : State) : (setIZ g v s).pre = s.pre := rfl
@[simp] theorem setIZ_chan (g : Nat) (v : IZone) (s : State) : (setIZ g v s).chan = s.chan := rfl
@[simp] theorem setIZ_seq (g : Nat) (v : IZone) (s : State) : (setIZ g v s).seq = s.seq := rfl
@[simp] theorem setIZ_cal (g : Nat) (v : IZone) (s : State) : (setIZ g v s).cal = s.cal := rfl
@[simp] theorem setIZ_bas (g : Nat) (v : IZone) (s : State) : (setIZ g v s).bas = s.bas := rfl
@[simp] theorem setIZ_acc (g : Nat) (v : IZone) (s : State) : (setIZ g v s).acc = s.acc := rfl
@[simp] theorem setIZ_tdm (g : Nat) (v : IZone) (s : State) : (setIZ g v s).tdm = s.tdm := rfl
@[simp] theorem setIZ_tls (g : Nat) (v : IZone) (s : State) : (setIZ g v s).tls = s.tls := rfl
@[simp] theorem setIZ_flashBig (g : Nat) (v : IZone) (s : State) : (setIZ g v s).flashBig = s.flashBig := rfl
@[simp] theorem setIZ_otp (g : Nat) (v : IZone) (s : State) : (setIZ g v s).otp = s.otp := rfl
@[simp] theorem setIZ_sec (g : Nat) (v : IZone) (s : State) : (setIZ g v s).sec = s.sec := rfl
@[simp] theorem setIZ_boot (g : Nat) (v : IZone) (s : State) : (setIZ g v s).boot = s.boot := rfl

/-! ### setSched -/

@[simp] theorem setSched_pending (n : Nat) (v : Sched) (s : State) : (setSched n v s).pending = s.pending := rfl
@[simp] theorem setSched_out (n : Nat) (v : Sched) (s : State) : (setSched n v s).out = s.out := rfl
@[simp] theorem setSched_free (n : Nat) (v : Sched) (s : State) : (setSched n v s).free = s.free := rfl
@[simp] theorem setSched_variant (n : Nat) (v : Sched) (s : State) : (setSched n v s).variant = s.variant := rfl
@[simp] theorem setSched_now (n : Nat) (v : Sched) (s : State) : (setSched n v s).now = s.now := rfl
@[simp] theorem setSched_pwr (n : Nat) (v : Sched) (s : State) : (setSched n v s).pwr = s.pwr := rfl
@[simp] theorem setSched_wall (n : Nat) (v : Sched) (s : State) : (setSched n v s).wall = s.wall := rfl
@[simp] theorem setSched_regs (n : Nat) (v : Sched) (s : State) : (setSched n v s).regs = s.regs := rfl
@[simp] theorem setSched_wide (n : Nat) (v : Sched) (s : State) : (setSched n v s).wide = s.wide := rfl
@[simp] theorem setSched_mem (n : Nat) (v : Sched) (s : State) : (setSched n v s).mem = s.mem := rfl
@[simp] theorem setSched_bad (n : Nat) (v : Sched) (s : State) : (setSched n v s).bad = s.bad := rfl
@[simp] theorem setSched_mtimecmp (n : Nat) (v : Sched) (s : State) : (setSched n v s).mtimecmp = s.mtimecmp := rfl
@[simp] theorem setSched_hartStart (n : Nat) (v : Sched) (s : State) : (setSched n v s).hartStart = s.hartStart := rfl
@[simp] theorem setSched_hart (n : Nat) (v : Sched) (s : State) : (setSched n v s).hart = s.hart := rfl
@[simp] theorem setSched_unfenced (n : Nat) (v : Sched) (s : State) : (setSched n v s).unfenced = s.unfenced := rfl
@[simp] theorem setSched_crossed (n : Nat) (v : Sched) (s : State) : (setSched n v s).crossed = s.crossed := rfl
@[simp] theorem setSched_reserve (n : Nat) (v : Sched) (s : State) : (setSched n v s).reserve = s.reserve := rfl
@[simp] theorem setSched_l2 (n : Nat) (v : Sched) (s : State) : (setSched n v s).l2 = s.l2 := rfl
@[simp] theorem setSched_l1 (n : Nat) (v : Sched) (s : State) : (setSched n v s).l1 = s.l1 := rfl
@[simp] theorem setSched_ind (n : Nat) (v : Sched) (s : State) : (setSched n v s).ind = s.ind := rfl
@[simp] theorem setSched_red (n : Nat) (v : Sched) (s : State) : (setSched n v s).red = s.red := rfl
@[simp] theorem setSched_strata (n : Nat) (v : Sched) (s : State) : (setSched n v s).strata = s.strata := rfl
@[simp] theorem setSched_mirror (n : Nat) (v : Sched) (s : State) : (setSched n v s).mirror = s.mirror := rfl
@[simp] theorem setSched_cap (n : Nat) (v : Sched) (s : State) : (setSched n v s).cap = s.cap := rfl
@[simp] theorem setSched_host (n : Nat) (v : Sched) (s : State) : (setSched n v s).host = s.host := rfl
@[simp] theorem setSched_jrn (n : Nat) (v : Sched) (s : State) : (setSched n v s).jrn = s.jrn := rfl
@[simp] theorem setSched_flash (n : Nat) (v : Sched) (s : State) : (setSched n v s).flash = s.flash := rfl
@[simp] theorem setSched_hsl (n : Nat) (v : Sched) (s : State) : (setSched n v s).hsl = s.hsl := rfl
@[simp] theorem setSched_pre (n : Nat) (v : Sched) (s : State) : (setSched n v s).pre = s.pre := rfl
@[simp] theorem setSched_chan (n : Nat) (v : Sched) (s : State) : (setSched n v s).chan = s.chan := rfl
@[simp] theorem setSched_seq (n : Nat) (v : Sched) (s : State) : (setSched n v s).seq = s.seq := rfl
@[simp] theorem setSched_cal (n : Nat) (v : Sched) (s : State) : (setSched n v s).cal = s.cal := rfl
@[simp] theorem setSched_bas (n : Nat) (v : Sched) (s : State) : (setSched n v s).bas = s.bas := rfl
@[simp] theorem setSched_acc (n : Nat) (v : Sched) (s : State) : (setSched n v s).acc = s.acc := rfl
@[simp] theorem setSched_tdm (n : Nat) (v : Sched) (s : State) : (setSched n v s).tdm = s.tdm := rfl
@[simp] theorem setSched_tls (n : Nat) (v : Sched) (s : State) : (setSched n v s).tls = s.tls := rfl
@[simp] theorem setSched_flashBig (n : Nat) (v : Sched) (s : State) : (setSched n v s).flashBig = s.flashBig := rfl
@[simp] theorem setSched_otp (n : Nat) (v : Sched) (s : State) : (setSched n v s).otp = s.otp := rfl
@[simp] theorem setSched_sec (n : Nat) (v : Sched) (s : State) : (setSched n v s).sec = s.sec := rfl
@[simp] theorem setSched_boot (n : Nat) (v : Sched) (s : State) : (setSched n v s).boot = s.boot := rfl

/-! ### setHsl -/

@[simp] theorem setHsl_pending (n : Nat) (v : Hsl) (s : State) : (setHsl n v s).pending = s.pending := rfl
@[simp] theorem setHsl_out (n : Nat) (v : Hsl) (s : State) : (setHsl n v s).out = s.out := rfl
@[simp] theorem setHsl_free (n : Nat) (v : Hsl) (s : State) : (setHsl n v s).free = s.free := rfl
@[simp] theorem setHsl_variant (n : Nat) (v : Hsl) (s : State) : (setHsl n v s).variant = s.variant := rfl
@[simp] theorem setHsl_now (n : Nat) (v : Hsl) (s : State) : (setHsl n v s).now = s.now := rfl
@[simp] theorem setHsl_pwr (n : Nat) (v : Hsl) (s : State) : (setHsl n v s).pwr = s.pwr := rfl
@[simp] theorem setHsl_wall (n : Nat) (v : Hsl) (s : State) : (setHsl n v s).wall = s.wall := rfl
@[simp] theorem setHsl_regs (n : Nat) (v : Hsl) (s : State) : (setHsl n v s).regs = s.regs := rfl
@[simp] theorem setHsl_wide (n : Nat) (v : Hsl) (s : State) : (setHsl n v s).wide = s.wide := rfl
@[simp] theorem setHsl_mem (n : Nat) (v : Hsl) (s : State) : (setHsl n v s).mem = s.mem := rfl
@[simp] theorem setHsl_bad (n : Nat) (v : Hsl) (s : State) : (setHsl n v s).bad = s.bad := rfl
@[simp] theorem setHsl_mtimecmp (n : Nat) (v : Hsl) (s : State) : (setHsl n v s).mtimecmp = s.mtimecmp := rfl
@[simp] theorem setHsl_hartStart (n : Nat) (v : Hsl) (s : State) : (setHsl n v s).hartStart = s.hartStart := rfl
@[simp] theorem setHsl_hart (n : Nat) (v : Hsl) (s : State) : (setHsl n v s).hart = s.hart := rfl
@[simp] theorem setHsl_unfenced (n : Nat) (v : Hsl) (s : State) : (setHsl n v s).unfenced = s.unfenced := rfl
@[simp] theorem setHsl_crossed (n : Nat) (v : Hsl) (s : State) : (setHsl n v s).crossed = s.crossed := rfl
@[simp] theorem setHsl_reserve (n : Nat) (v : Hsl) (s : State) : (setHsl n v s).reserve = s.reserve := rfl
@[simp] theorem setHsl_l2 (n : Nat) (v : Hsl) (s : State) : (setHsl n v s).l2 = s.l2 := rfl
@[simp] theorem setHsl_l1 (n : Nat) (v : Hsl) (s : State) : (setHsl n v s).l1 = s.l1 := rfl
@[simp] theorem setHsl_ind (n : Nat) (v : Hsl) (s : State) : (setHsl n v s).ind = s.ind := rfl
@[simp] theorem setHsl_red (n : Nat) (v : Hsl) (s : State) : (setHsl n v s).red = s.red := rfl
@[simp] theorem setHsl_strata (n : Nat) (v : Hsl) (s : State) : (setHsl n v s).strata = s.strata := rfl
@[simp] theorem setHsl_mirror (n : Nat) (v : Hsl) (s : State) : (setHsl n v s).mirror = s.mirror := rfl
@[simp] theorem setHsl_cap (n : Nat) (v : Hsl) (s : State) : (setHsl n v s).cap = s.cap := rfl
@[simp] theorem setHsl_host (n : Nat) (v : Hsl) (s : State) : (setHsl n v s).host = s.host := rfl
@[simp] theorem setHsl_cmd (n : Nat) (v : Hsl) (s : State) : (setHsl n v s).cmd = s.cmd := rfl
@[simp] theorem setHsl_jrn (n : Nat) (v : Hsl) (s : State) : (setHsl n v s).jrn = s.jrn := rfl
@[simp] theorem setHsl_flash (n : Nat) (v : Hsl) (s : State) : (setHsl n v s).flash = s.flash := rfl
@[simp] theorem setHsl_pre (n : Nat) (v : Hsl) (s : State) : (setHsl n v s).pre = s.pre := rfl
@[simp] theorem setHsl_chan (n : Nat) (v : Hsl) (s : State) : (setHsl n v s).chan = s.chan := rfl
@[simp] theorem setHsl_seq (n : Nat) (v : Hsl) (s : State) : (setHsl n v s).seq = s.seq := rfl
@[simp] theorem setHsl_cal (n : Nat) (v : Hsl) (s : State) : (setHsl n v s).cal = s.cal := rfl
@[simp] theorem setHsl_bas (n : Nat) (v : Hsl) (s : State) : (setHsl n v s).bas = s.bas := rfl
@[simp] theorem setHsl_acc (n : Nat) (v : Hsl) (s : State) : (setHsl n v s).acc = s.acc := rfl
@[simp] theorem setHsl_tdm (n : Nat) (v : Hsl) (s : State) : (setHsl n v s).tdm = s.tdm := rfl
@[simp] theorem setHsl_tls (n : Nat) (v : Hsl) (s : State) : (setHsl n v s).tls = s.tls := rfl
@[simp] theorem setHsl_flashBig (n : Nat) (v : Hsl) (s : State) : (setHsl n v s).flashBig = s.flashBig := rfl
@[simp] theorem setHsl_otp (n : Nat) (v : Hsl) (s : State) : (setHsl n v s).otp = s.otp := rfl
@[simp] theorem setHsl_sec (n : Nat) (v : Hsl) (s : State) : (setHsl n v s).sec = s.sec := rfl
@[simp] theorem setHsl_boot (n : Nat) (v : Hsl) (s : State) : (setHsl n v s).boot = s.boot := rfl

/-! ### setPre -/

@[simp] theorem setPre_pending (n : Nat) (v : Pre) (s : State) : (setPre n v s).pending = s.pending := rfl
@[simp] theorem setPre_out (n : Nat) (v : Pre) (s : State) : (setPre n v s).out = s.out := rfl
@[simp] theorem setPre_free (n : Nat) (v : Pre) (s : State) : (setPre n v s).free = s.free := rfl
@[simp] theorem setPre_variant (n : Nat) (v : Pre) (s : State) : (setPre n v s).variant = s.variant := rfl
@[simp] theorem setPre_now (n : Nat) (v : Pre) (s : State) : (setPre n v s).now = s.now := rfl
@[simp] theorem setPre_pwr (n : Nat) (v : Pre) (s : State) : (setPre n v s).pwr = s.pwr := rfl
@[simp] theorem setPre_wall (n : Nat) (v : Pre) (s : State) : (setPre n v s).wall = s.wall := rfl
@[simp] theorem setPre_regs (n : Nat) (v : Pre) (s : State) : (setPre n v s).regs = s.regs := rfl
@[simp] theorem setPre_wide (n : Nat) (v : Pre) (s : State) : (setPre n v s).wide = s.wide := rfl
@[simp] theorem setPre_mem (n : Nat) (v : Pre) (s : State) : (setPre n v s).mem = s.mem := rfl
@[simp] theorem setPre_bad (n : Nat) (v : Pre) (s : State) : (setPre n v s).bad = s.bad := rfl
@[simp] theorem setPre_mtimecmp (n : Nat) (v : Pre) (s : State) : (setPre n v s).mtimecmp = s.mtimecmp := rfl
@[simp] theorem setPre_hartStart (n : Nat) (v : Pre) (s : State) : (setPre n v s).hartStart = s.hartStart := rfl
@[simp] theorem setPre_hart (n : Nat) (v : Pre) (s : State) : (setPre n v s).hart = s.hart := rfl
@[simp] theorem setPre_unfenced (n : Nat) (v : Pre) (s : State) : (setPre n v s).unfenced = s.unfenced := rfl
@[simp] theorem setPre_crossed (n : Nat) (v : Pre) (s : State) : (setPre n v s).crossed = s.crossed := rfl
@[simp] theorem setPre_reserve (n : Nat) (v : Pre) (s : State) : (setPre n v s).reserve = s.reserve := rfl
@[simp] theorem setPre_l2 (n : Nat) (v : Pre) (s : State) : (setPre n v s).l2 = s.l2 := rfl
@[simp] theorem setPre_l1 (n : Nat) (v : Pre) (s : State) : (setPre n v s).l1 = s.l1 := rfl
@[simp] theorem setPre_ind (n : Nat) (v : Pre) (s : State) : (setPre n v s).ind = s.ind := rfl
@[simp] theorem setPre_red (n : Nat) (v : Pre) (s : State) : (setPre n v s).red = s.red := rfl
@[simp] theorem setPre_strata (n : Nat) (v : Pre) (s : State) : (setPre n v s).strata = s.strata := rfl
@[simp] theorem setPre_mirror (n : Nat) (v : Pre) (s : State) : (setPre n v s).mirror = s.mirror := rfl
@[simp] theorem setPre_cap (n : Nat) (v : Pre) (s : State) : (setPre n v s).cap = s.cap := rfl
@[simp] theorem setPre_host (n : Nat) (v : Pre) (s : State) : (setPre n v s).host = s.host := rfl
@[simp] theorem setPre_cmd (n : Nat) (v : Pre) (s : State) : (setPre n v s).cmd = s.cmd := rfl
@[simp] theorem setPre_jrn (n : Nat) (v : Pre) (s : State) : (setPre n v s).jrn = s.jrn := rfl
@[simp] theorem setPre_flash (n : Nat) (v : Pre) (s : State) : (setPre n v s).flash = s.flash := rfl
@[simp] theorem setPre_hsl (n : Nat) (v : Pre) (s : State) : (setPre n v s).hsl = s.hsl := rfl
@[simp] theorem setPre_chan (n : Nat) (v : Pre) (s : State) : (setPre n v s).chan = s.chan := rfl
@[simp] theorem setPre_seq (n : Nat) (v : Pre) (s : State) : (setPre n v s).seq = s.seq := rfl
@[simp] theorem setPre_cal (n : Nat) (v : Pre) (s : State) : (setPre n v s).cal = s.cal := rfl
@[simp] theorem setPre_bas (n : Nat) (v : Pre) (s : State) : (setPre n v s).bas = s.bas := rfl
@[simp] theorem setPre_acc (n : Nat) (v : Pre) (s : State) : (setPre n v s).acc = s.acc := rfl
@[simp] theorem setPre_tdm (n : Nat) (v : Pre) (s : State) : (setPre n v s).tdm = s.tdm := rfl
@[simp] theorem setPre_tls (n : Nat) (v : Pre) (s : State) : (setPre n v s).tls = s.tls := rfl
@[simp] theorem setPre_flashBig (n : Nat) (v : Pre) (s : State) : (setPre n v s).flashBig = s.flashBig := rfl
@[simp] theorem setPre_otp (n : Nat) (v : Pre) (s : State) : (setPre n v s).otp = s.otp := rfl
@[simp] theorem setPre_sec (n : Nat) (v : Pre) (s : State) : (setPre n v s).sec = s.sec := rfl
@[simp] theorem setPre_boot (n : Nat) (v : Pre) (s : State) : (setPre n v s).boot = s.boot := rfl

/-! ### setBucket -/

@[simp] theorem setBucket_pending (src code : Nat) (b : Bucket) (s : State) : (setBucket src code b s).pending = s.pending := rfl
@[simp] theorem setBucket_out (src code : Nat) (b : Bucket) (s : State) : (setBucket src code b s).out = s.out := rfl
@[simp] theorem setBucket_free (src code : Nat) (b : Bucket) (s : State) : (setBucket src code b s).free = s.free := rfl
@[simp] theorem setBucket_variant (src code : Nat) (b : Bucket) (s : State) : (setBucket src code b s).variant = s.variant := rfl
@[simp] theorem setBucket_now (src code : Nat) (b : Bucket) (s : State) : (setBucket src code b s).now = s.now := rfl
@[simp] theorem setBucket_pwr (src code : Nat) (b : Bucket) (s : State) : (setBucket src code b s).pwr = s.pwr := rfl
@[simp] theorem setBucket_wall (src code : Nat) (b : Bucket) (s : State) : (setBucket src code b s).wall = s.wall := rfl
@[simp] theorem setBucket_regs (src code : Nat) (b : Bucket) (s : State) : (setBucket src code b s).regs = s.regs := rfl
@[simp] theorem setBucket_wide (src code : Nat) (b : Bucket) (s : State) : (setBucket src code b s).wide = s.wide := rfl
@[simp] theorem setBucket_mem (src code : Nat) (b : Bucket) (s : State) : (setBucket src code b s).mem = s.mem := rfl
@[simp] theorem setBucket_bad (src code : Nat) (b : Bucket) (s : State) : (setBucket src code b s).bad = s.bad := rfl
@[simp] theorem setBucket_mtimecmp (src code : Nat) (b : Bucket) (s : State) : (setBucket src code b s).mtimecmp = s.mtimecmp := rfl
@[simp] theorem setBucket_hartStart (src code : Nat) (b : Bucket) (s : State) : (setBucket src code b s).hartStart = s.hartStart := rfl
@[simp] theorem setBucket_hart (src code : Nat) (b : Bucket) (s : State) : (setBucket src code b s).hart = s.hart := rfl
@[simp] theorem setBucket_unfenced (src code : Nat) (b : Bucket) (s : State) : (setBucket src code b s).unfenced = s.unfenced := rfl
@[simp] theorem setBucket_crossed (src code : Nat) (b : Bucket) (s : State) : (setBucket src code b s).crossed = s.crossed := rfl
@[simp] theorem setBucket_reserve (src code : Nat) (b : Bucket) (s : State) : (setBucket src code b s).reserve = s.reserve := rfl
@[simp] theorem setBucket_l2 (src code : Nat) (b : Bucket) (s : State) : (setBucket src code b s).l2 = s.l2 := rfl
@[simp] theorem setBucket_l1 (src code : Nat) (b : Bucket) (s : State) : (setBucket src code b s).l1 = s.l1 := rfl
@[simp] theorem setBucket_ind (src code : Nat) (b : Bucket) (s : State) : (setBucket src code b s).ind = s.ind := rfl
@[simp] theorem setBucket_red (src code : Nat) (b : Bucket) (s : State) : (setBucket src code b s).red = s.red := rfl
@[simp] theorem setBucket_mirror (src code : Nat) (b : Bucket) (s : State) : (setBucket src code b s).mirror = s.mirror := rfl
@[simp] theorem setBucket_cap (src code : Nat) (b : Bucket) (s : State) : (setBucket src code b s).cap = s.cap := rfl
@[simp] theorem setBucket_host (src code : Nat) (b : Bucket) (s : State) : (setBucket src code b s).host = s.host := rfl
@[simp] theorem setBucket_cmd (src code : Nat) (b : Bucket) (s : State) : (setBucket src code b s).cmd = s.cmd := rfl
@[simp] theorem setBucket_jrn (src code : Nat) (b : Bucket) (s : State) : (setBucket src code b s).jrn = s.jrn := rfl
@[simp] theorem setBucket_flash (src code : Nat) (b : Bucket) (s : State) : (setBucket src code b s).flash = s.flash := rfl
@[simp] theorem setBucket_hsl (src code : Nat) (b : Bucket) (s : State) : (setBucket src code b s).hsl = s.hsl := rfl
@[simp] theorem setBucket_pre (src code : Nat) (b : Bucket) (s : State) : (setBucket src code b s).pre = s.pre := rfl
@[simp] theorem setBucket_chan (src code : Nat) (b : Bucket) (s : State) : (setBucket src code b s).chan = s.chan := rfl
@[simp] theorem setBucket_seq (src code : Nat) (b : Bucket) (s : State) : (setBucket src code b s).seq = s.seq := rfl
@[simp] theorem setBucket_cal (src code : Nat) (b : Bucket) (s : State) : (setBucket src code b s).cal = s.cal := rfl
@[simp] theorem setBucket_bas (src code : Nat) (b : Bucket) (s : State) : (setBucket src code b s).bas = s.bas := rfl
@[simp] theorem setBucket_acc (src code : Nat) (b : Bucket) (s : State) : (setBucket src code b s).acc = s.acc := rfl
@[simp] theorem setBucket_tdm (src code : Nat) (b : Bucket) (s : State) : (setBucket src code b s).tdm = s.tdm := rfl
@[simp] theorem setBucket_tls (src code : Nat) (b : Bucket) (s : State) : (setBucket src code b s).tls = s.tls := rfl
@[simp] theorem setBucket_flashBig (src code : Nat) (b : Bucket) (s : State) : (setBucket src code b s).flashBig = s.flashBig := rfl
@[simp] theorem setBucket_otp (src code : Nat) (b : Bucket) (s : State) : (setBucket src code b s).otp = s.otp := rfl
@[simp] theorem setBucket_sec (src code : Nat) (b : Bucket) (s : State) : (setBucket src code b s).sec = s.sec := rfl
@[simp] theorem setBucket_boot (src code : Nat) (b : Bucket) (s : State) : (setBucket src code b s).boot = s.boot := rfl

/-! ### Reading after writing -/

theorem regW_setReg (a v b : Nat) (s : State) :
    regW (setReg a v s) b = if b = a then BitVec.ofNat 32 v else regW s b := smGet_smSet _ _ _ _ _

/-- A register written reads as the low 32 bits written; every other register reads as before. -/
theorem reg_setReg (a v b : Nat) (s : State) : reg (setReg a v s) b = if b = a then v % 2 ^ 32 else reg s b := by
  simp only [reg, regW_setReg]; split <;> simp

@[simp] theorem reg_setReg_self (a v : Nat) (s : State) : reg (setReg a v s) a = v % 2 ^ 32 := by simp [reg_setReg]

theorem reg_setReg_ne {a b : Nat} (v : Nat) (s : State) (h : b ≠ a) : reg (setReg a v s) b = reg s b := by
  simp [reg_setReg, h]

/-- Two states with one register file read alike. -/
theorem reg_congr {s t : State} (h : s.regs = t.regs) (a : Nat) : reg s a = reg t a := by simp only [reg, regW, h]

theorem wide_setWide (a v b : Nat) (s : State) : wide (setWide a v s) b = if b = a then v % 2 ^ 64 else wide s b :=
  smGet_smSet _ _ _ _ _

theorem wide_congr {s t : State} (h : s.wide = t.wide) (a : Nat) : wide s a = wide t a := by simp only [wide, h]

theorem memByte_congr {s t : State} (h : s.mem = t.mem) (a : Nat) : memByte s a = memByte t a := by simp only [memByte, h]

theorem getRes_setRes (h : Nat) (v : Option Nat) (k : Nat) (s : State) :
    getRes (setRes h v s) k = if k = h then v else getRes s k := smGet_smSet _ _ _ _ _

theorem getL2_setL2 (h : Nat) (v : L2) (k : Nat) (s : State) :
    getL2 (setL2 h v s) k = if k = h then v else getL2 s k := smGet_smSet _ _ _ _ _

theorem getL1_setL1 (h : Nat) (v : List L1Line) (k : Nat) (s : State) :
    getL1 (setL1 h v s) k = if k = h then v else getL1 s k := smGet_smSet _ _ _ _ _

theorem getInd_setInd (h : Nat) (v : IndPair) (k : Nat) (s : State) :
    getInd (setInd h v s) k = if k = h then v else getInd s k := smGet_smSet _ _ _ _ _

theorem getCmp_setCmp (h v : Nat) (k : Nat) (s : State) :
    getCmp (setCmp h v s) k = if k = h then v else getCmp s k := smGet_smSet _ _ _ _ _

theorem getHart_setHart (h : Nat) (v : Option Nat) (k : Nat) (s : State) :
    getHart (setHart h v s) k = if k = h then v else getHart s k := smGet_smSet _ _ _ _ _

theorem getHartRegs_setHartRegs (h : Nat) (v : Hart) (k : Nat) (s : State) :
    getHartRegs (setHartRegs h v s) k = if k = h then v else getHartRegs s k := smGet_smSet _ _ _ _ _

theorem getCrossed_setCrossed (h : Nat) (v : Option Crossed) (k : Nat) (s : State) :
    getCrossed (setCrossed h v s) k = if k = h then v else getCrossed s k := smGet_smSet _ _ _ _ _

theorem getIsl_setIsl (h : Nat) (v : IslRed) (k : Nat) (s : State) :
    getIsl (setIsl h v s) k = if k = h then v else getIsl s k := smGet_smSet _ _ _ _ _

theorem getClu_setClu (h : Nat) (v : CluRed) (k : Nat) (s : State) :
    getClu (setClu h v s) k = if k = h then v else getClu s k := smGet_smSet _ _ _ _ _

theorem getStream_setStream (h : Nat) (v : Stream) (k : Nat) (s : State) :
    getStream (setStream h v s) k = if k = h then v else getStream s k := smGet_smSet _ _ _ _ _

theorem getPort_setPort (h : Nat) (v : Port) (k : Nat) (s : State) :
    getPort (setPort h v s) k = if k = h then v else getPort s k := smGet_smSet _ _ _ _ _

theorem getCtx_setCtx (h : Nat) (v : Option Ctx) (k : Nat) (s : State) :
    getCtx (setCtx h v s) k = if k = h then v else getCtx s k := smGet_smSet _ _ _ _ _

theorem getCtrl_setCtrl (h : Nat) (v : Option Ctrl) (k : Nat) (s : State) :
    getCtrl (setCtrl h v s) k = if k = h then v else getCtrl s k := smGet_smSet _ _ _ _ _

theorem getRec_setRec (h : Nat) (v : EntryRec) (k : Nat) (s : State) :
    getRec (setRec h v s) k = if k = h then v else getRec s k := smGet_smSet _ _ _ _ _

theorem getSlot_setSlot (h : Nat) (v : Slot) (k : Nat) (s : State) :
    getSlot (setSlot h v s) k = if k = h then v else getSlot s k := smGet_smSet _ _ _ _ _

theorem getZone_setZone (h : Nat) (v : ZoneEnt) (k : Nat) (s : State) :
    getZone (setZone h v s) k = if k = h then v else getZone s k := smGet_smSet _ _ _ _ _

theorem getIZ_setIZ (h : Nat) (v : IZone) (k : Nat) (s : State) :
    getIZ (setIZ h v s) k = if k = h then v else getIZ s k := smGet_smSet _ _ _ _ _

theorem getSched_setSched (h : Nat) (v : Sched) (k : Nat) (s : State) :
    getSched (setSched h v s) k = if k = h then v else getSched s k := smGet_smSet _ _ _ _ _

theorem getHsl_setHsl (h : Nat) (v : Hsl) (k : Nat) (s : State) :
    getHsl (setHsl h v s) k = if k = h then v else getHsl s k := smGet_smSet _ _ _ _ _

theorem getPre_setPre (h : Nat) (v : Pre) (k : Nat) (s : State) :
    getPre (setPre h v s) k = if k = h then v else getPre s k := smGet_smSet _ _ _ _ _

end Sys2Proof.Machine
end

