-- ==== Sys2Proof/Laws/Ops.lean ====
section
/-! SUPPORT. Once for each shared operation, everything it can do: its outcome, what it leaves alone, and what a read
gives after it. -/

namespace Sys2Proof.Machine

/-! ### Ordinary commands -/

/-- An ordinary command always goes on, and does nothing to a device in reset. -/
theorem act_reset {s : State} (f : State → State) (h : s.pwr.phase = .reset) : act s f = .next s := by simp [act, h]

/-- A device that runs, out of reset and of the power-fail sequence: an ordinary command has its effect, on everything but the
queue. -/
theorem act_next {s : State} (f : State → State) (h : s.pwr.phase = .running) : act s f = .next (keep s (f s)) := by
  simp [act, sealed, h]

/-- In the power-fail sequence an ordinary command has its effect, unless that would write the MRAM. -/
theorem act_quiescing {s : State} (f : State → State) (h : s.pwr.phase = .quiescing) :
    act s f = .next (if mramOf (keep s (f s)) = mramOf s then keep s (f s) else s) := by
  simp [act, sealed, h]

/-- No ordinary command writes the MRAM in the power-fail sequence. -/
theorem act_seals {s : State} (f : State → State) (h : s.pwr.phase = .quiescing) :
    ∃ t, act s f = .next t ∧ mramOf t = mramOf s := by
  rw [act_quiescing f h]
  split
  · exact ⟨_, rfl, ‹_›⟩
  · exact ⟨s, rfl, rfl⟩

/-- Whatever its effect, an ordinary command answers a next state that keeps the queue, the timebase and the variant. -/
theorem act_keeps (s : State) (f : State → State) :
    ∃ t, act s f = .next t ∧ t.pending = s.pending ∧ t.now = s.now ∧ t.variant = s.variant := by
  by_cases h : s.pwr.phase = .reset
  · exact ⟨s, act_reset f h, rfl, rfl, rfl⟩
  · refine ⟨sealed s (keep s (f s)), by simp [act, h], ?_⟩
    by_cases hm : mramOf (keep s (f s)) = mramOf s <;> by_cases hq : s.pwr.phase = .quiescing <;> simp [sealed, hm, hq]

/-- A command of the always-on domain keeps the queue, the timebase and the variant. -/
theorem actSev_next {s : State} (f : State → State) (h : s.pwr.phase = .running) :
    actSev s f = .next (keep s (noteSeverity s (f s))) := act_next _ h

/-! ### Memory -/

theorem smGet_memPut (m : SMap Byte) (a : Nat) (bs : List Byte) (b : Nat) :
    smGet memDefault (memPut m a bs) b =
      if a ≤ b ∧ b < a + bs.length then bs.getD (b - a) 0 else smGet memDefault m b := by
  induction bs generalizing m a with
  | nil => simp only [memPut, List.length_nil]; split <;> first | omega | rfl
  | cons x xs ih =>
    simp only [memPut, ih, memSetByte, smGet_smSet, List.length_cons]
    by_cases h : b = a
    · subst h; rw [if_neg (by omega), if_pos rfl, if_pos (by omega)]; simp
    · by_cases h2 : a + 1 ≤ b ∧ b < a + 1 + xs.length
      · rw [if_pos h2, if_pos (by omega)]
        have : b - a = (b - (a + 1)) + 1 := by omega
        rw [this]; simp
      · rw [if_neg h2, if_neg h, if_neg (by omega)]

/-- A byte read after bytes were written: the byte written where it was, every other byte as before. -/
theorem memByte_memWrite (a : Nat) (bs : List Byte) (s : State) (b : Nat) :
    memByte (memWrite a bs s) b = if a ≤ b ∧ b < a + bs.length then bs.getD (b - a) 0 else memByte s b :=
  smGet_memPut _ _ _ _

/-- Every memory operation keeps the canonical form. -/
theorem wf_memPut {m : SMap Byte} (a : Nat) (bs : List Byte) (h : Memory.wf m = true) :
    Memory.wf (memPut m a bs) = true := by
  induction bs generalizing m a with
  | nil => exact h
  | cons x xs ih => exact ih (a + 1) (smWf_smSet _ _ _ h)

theorem wf_memWrite {s : State} (a : Nat) (bs : List Byte) (h : Memory.wf s.mem = true) :
    Memory.wf (memWrite a bs s).mem = true := wf_memPut a bs h

theorem wf_dramWrite {s : State} (a : Nat) (bs : List Byte) (h : Memory.wf s.mem = true) :
    Memory.wf (dramWrite a bs s).mem = true := by
  unfold dramWrite; split
  · exact wf_memWrite _ _ h
  · exact h

/-! ### Bit fields -/

theorem bits_lt (v lo len : Nat) : bits v lo len < 2 ^ len := Nat.mod_lt _ (Nat.two_pow_pos _)


/-! ### dramWrite -/

/-- Nothing changes but mem, bad. -/
theorem dramWrite_frame (off : Nat) (bs : List Byte) (s : State) :
    dramWrite off bs s = { s with mem := (dramWrite off bs s).mem, bad := (dramWrite off bs s).bad } := by
  unfold dramWrite; split <;> rfl

@[simp] theorem dramWrite_pending (off : Nat) (bs : List Byte) (s : State) : (dramWrite off bs s).pending = s.pending :=
  (congrArg State.pending (dramWrite_frame off bs s)).trans rfl
@[simp] theorem dramWrite_out (off : Nat) (bs : List Byte) (s : State) : (dramWrite off bs s).out = s.out :=
  (congrArg State.out (dramWrite_frame off bs s)).trans rfl
@[simp] theorem dramWrite_free (off : Nat) (bs : List Byte) (s : State) : (dramWrite off bs s).free = s.free :=
  (congrArg State.free (dramWrite_frame off bs s)).trans rfl
@[simp] theorem dramWrite_variant (off : Nat) (bs : List Byte) (s : State) : (dramWrite off bs s).variant = s.variant :=
  (congrArg State.variant (dramWrite_frame off bs s)).trans rfl
@[simp] theorem dramWrite_now (off : Nat) (bs : List Byte) (s : State) : (dramWrite off bs s).now = s.now :=
  (congrArg State.now (dramWrite_frame off bs s)).trans rfl
@[simp] theorem dramWrite_pwr (off : Nat) (bs : List Byte) (s : State) : (dramWrite off bs s).pwr = s.pwr :=
  (congrArg State.pwr (dramWrite_frame off bs s)).trans rfl
@[simp] theorem dramWrite_wall (off : Nat) (bs : List Byte) (s : State) : (dramWrite off bs s).wall = s.wall :=
  (congrArg State.wall (dramWrite_frame off bs s)).trans rfl
@[simp] theorem dramWrite_regs (off : Nat) (bs : List Byte) (s : State) : (dramWrite off bs s).regs = s.regs :=
  (congrArg State.regs (dramWrite_frame off bs s)).trans rfl
@[simp] theorem dramWrite_wide (off : Nat) (bs : List Byte) (s : State) : (dramWrite off bs s).wide = s.wide :=
  (congrArg State.wide (dramWrite_frame off bs s)).trans rfl
@[simp] theorem dramWrite_mtimecmp (off : Nat) (bs : List Byte) (s : State) : (dramWrite off bs s).mtimecmp = s.mtimecmp :=
  (congrArg State.mtimecmp (dramWrite_frame off bs s)).trans rfl
@[simp] theorem dramWrite_hartStart (off : Nat) (bs : List Byte) (s : State) : (dramWrite off bs s).hartStart = s.hartStart :=
  (congrArg State.hartStart (dramWrite_frame off bs s)).trans rfl
@[simp] theorem dramWrite_reserve (off : Nat) (bs : List Byte) (s : State) : (dramWrite off bs s).reserve = s.reserve :=
  (congrArg State.reserve (dramWrite_frame off bs s)).trans rfl
@[simp] theorem dramWrite_l2 (off : Nat) (bs : List Byte) (s : State) : (dramWrite off bs s).l2 = s.l2 :=
  (congrArg State.l2 (dramWrite_frame off bs s)).trans rfl
@[simp] theorem dramWrite_l1 (off : Nat) (bs : List Byte) (s : State) : (dramWrite off bs s).l1 = s.l1 :=
  (congrArg State.l1 (dramWrite_frame off bs s)).trans rfl
@[simp] theorem dramWrite_ind (off : Nat) (bs : List Byte) (s : State) : (dramWrite off bs s).ind = s.ind :=
  (congrArg State.ind (dramWrite_frame off bs s)).trans rfl
@[simp] theorem dramWrite_red (off : Nat) (bs : List Byte) (s : State) : (dramWrite off bs s).red = s.red :=
  (congrArg State.red (dramWrite_frame off bs s)).trans rfl
@[simp] theorem dramWrite_strata (off : Nat) (bs : List Byte) (s : State) : (dramWrite off bs s).strata = s.strata :=
  (congrArg State.strata (dramWrite_frame off bs s)).trans rfl
@[simp] theorem dramWrite_mirror (off : Nat) (bs : List Byte) (s : State) : (dramWrite off bs s).mirror = s.mirror :=
  (congrArg State.mirror (dramWrite_frame off bs s)).trans rfl
@[simp] theorem dramWrite_cap (off : Nat) (bs : List Byte) (s : State) : (dramWrite off bs s).cap = s.cap :=
  (congrArg State.cap (dramWrite_frame off bs s)).trans rfl
@[simp] theorem dramWrite_host (off : Nat) (bs : List Byte) (s : State) : (dramWrite off bs s).host = s.host :=
  (congrArg State.host (dramWrite_frame off bs s)).trans rfl
@[simp] theorem dramWrite_cmd (off : Nat) (bs : List Byte) (s : State) : (dramWrite off bs s).cmd = s.cmd :=
  (congrArg State.cmd (dramWrite_frame off bs s)).trans rfl
@[simp] theorem dramWrite_jrn (off : Nat) (bs : List Byte) (s : State) : (dramWrite off bs s).jrn = s.jrn :=
  (congrArg State.jrn (dramWrite_frame off bs s)).trans rfl
@[simp] theorem dramWrite_flash (off : Nat) (bs : List Byte) (s : State) : (dramWrite off bs s).flash = s.flash :=
  (congrArg State.flash (dramWrite_frame off bs s)).trans rfl
@[simp] theorem dramWrite_hsl (off : Nat) (bs : List Byte) (s : State) : (dramWrite off bs s).hsl = s.hsl :=
  (congrArg State.hsl (dramWrite_frame off bs s)).trans rfl
@[simp] theorem dramWrite_pre (off : Nat) (bs : List Byte) (s : State) : (dramWrite off bs s).pre = s.pre :=
  (congrArg State.pre (dramWrite_frame off bs s)).trans rfl
@[simp] theorem dramWrite_chan (off : Nat) (bs : List Byte) (s : State) : (dramWrite off bs s).chan = s.chan :=
  (congrArg State.chan (dramWrite_frame off bs s)).trans rfl
@[simp] theorem dramWrite_seq (off : Nat) (bs : List Byte) (s : State) : (dramWrite off bs s).seq = s.seq :=
  (congrArg State.seq (dramWrite_frame off bs s)).trans rfl
@[simp] theorem dramWrite_cal (off : Nat) (bs : List Byte) (s : State) : (dramWrite off bs s).cal = s.cal :=
  (congrArg State.cal (dramWrite_frame off bs s)).trans rfl
@[simp] theorem dramWrite_bas (off : Nat) (bs : List Byte) (s : State) : (dramWrite off bs s).bas = s.bas :=
  (congrArg State.bas (dramWrite_frame off bs s)).trans rfl
@[simp] theorem dramWrite_acc (off : Nat) (bs : List Byte) (s : State) : (dramWrite off bs s).acc = s.acc :=
  (congrArg State.acc (dramWrite_frame off bs s)).trans rfl
@[simp] theorem dramWrite_tdm (off : Nat) (bs : List Byte) (s : State) : (dramWrite off bs s).tdm = s.tdm :=
  (congrArg State.tdm (dramWrite_frame off bs s)).trans rfl
@[simp] theorem dramWrite_tls (off : Nat) (bs : List Byte) (s : State) : (dramWrite off bs s).tls = s.tls :=
  (congrArg State.tls (dramWrite_frame off bs s)).trans rfl
@[simp] theorem dramWrite_flashBig (off : Nat) (bs : List Byte) (s : State) : (dramWrite off bs s).flashBig = s.flashBig :=
  (congrArg State.flashBig (dramWrite_frame off bs s)).trans rfl
@[simp] theorem dramWrite_otp (off : Nat) (bs : List Byte) (s : State) : (dramWrite off bs s).otp = s.otp :=
  (congrArg State.otp (dramWrite_frame off bs s)).trans rfl
@[simp] theorem dramWrite_sec (off : Nat) (bs : List Byte) (s : State) : (dramWrite off bs s).sec = s.sec :=
  (congrArg State.sec (dramWrite_frame off bs s)).trans rfl
@[simp] theorem dramWrite_boot (off : Nat) (bs : List Byte) (s : State) : (dramWrite off bs s).boot = s.boot :=
  (congrArg State.boot (dramWrite_frame off bs s)).trans rfl

/-! ### enqueue -/

/-- Nothing changes but regs, strata. -/
theorem enqueue_frame (src code : Nat) (args : List Nat) (s : State) :
    enqueue src code args s = { s with regs := (enqueue src code args s).regs, strata := (enqueue src code args s).strata } := by
  unfold enqueue; dsimp only; split <;> rfl

@[simp] theorem enqueue_pending (src code : Nat) (args : List Nat) (s : State) : (enqueue src code args s).pending = s.pending :=
  (congrArg State.pending (enqueue_frame src code args s)).trans rfl
@[simp] theorem enqueue_out (src code : Nat) (args : List Nat) (s : State) : (enqueue src code args s).out = s.out :=
  (congrArg State.out (enqueue_frame src code args s)).trans rfl
@[simp] theorem enqueue_free (src code : Nat) (args : List Nat) (s : State) : (enqueue src code args s).free = s.free :=
  (congrArg State.free (enqueue_frame src code args s)).trans rfl
@[simp] theorem enqueue_variant (src code : Nat) (args : List Nat) (s : State) : (enqueue src code args s).variant = s.variant :=
  (congrArg State.variant (enqueue_frame src code args s)).trans rfl
@[simp] theorem enqueue_now (src code : Nat) (args : List Nat) (s : State) : (enqueue src code args s).now = s.now :=
  (congrArg State.now (enqueue_frame src code args s)).trans rfl
@[simp] theorem enqueue_pwr (src code : Nat) (args : List Nat) (s : State) : (enqueue src code args s).pwr = s.pwr :=
  (congrArg State.pwr (enqueue_frame src code args s)).trans rfl
@[simp] theorem enqueue_wall (src code : Nat) (args : List Nat) (s : State) : (enqueue src code args s).wall = s.wall :=
  (congrArg State.wall (enqueue_frame src code args s)).trans rfl
@[simp] theorem enqueue_wide (src code : Nat) (args : List Nat) (s : State) : (enqueue src code args s).wide = s.wide :=
  (congrArg State.wide (enqueue_frame src code args s)).trans rfl
@[simp] theorem enqueue_mem (src code : Nat) (args : List Nat) (s : State) : (enqueue src code args s).mem = s.mem :=
  (congrArg State.mem (enqueue_frame src code args s)).trans rfl
@[simp] theorem enqueue_bad (src code : Nat) (args : List Nat) (s : State) : (enqueue src code args s).bad = s.bad :=
  (congrArg State.bad (enqueue_frame src code args s)).trans rfl
@[simp] theorem enqueue_mtimecmp (src code : Nat) (args : List Nat) (s : State) : (enqueue src code args s).mtimecmp = s.mtimecmp :=
  (congrArg State.mtimecmp (enqueue_frame src code args s)).trans rfl
@[simp] theorem enqueue_hartStart (src code : Nat) (args : List Nat) (s : State) : (enqueue src code args s).hartStart = s.hartStart :=
  (congrArg State.hartStart (enqueue_frame src code args s)).trans rfl
@[simp] theorem enqueue_reserve (src code : Nat) (args : List Nat) (s : State) : (enqueue src code args s).reserve = s.reserve :=
  (congrArg State.reserve (enqueue_frame src code args s)).trans rfl
@[simp] theorem enqueue_l2 (src code : Nat) (args : List Nat) (s : State) : (enqueue src code args s).l2 = s.l2 :=
  (congrArg State.l2 (enqueue_frame src code args s)).trans rfl
@[simp] theorem enqueue_l1 (src code : Nat) (args : List Nat) (s : State) : (enqueue src code args s).l1 = s.l1 :=
  (congrArg State.l1 (enqueue_frame src code args s)).trans rfl
@[simp] theorem enqueue_ind (src code : Nat) (args : List Nat) (s : State) : (enqueue src code args s).ind = s.ind :=
  (congrArg State.ind (enqueue_frame src code args s)).trans rfl
@[simp] theorem enqueue_red (src code : Nat) (args : List Nat) (s : State) : (enqueue src code args s).red = s.red :=
  (congrArg State.red (enqueue_frame src code args s)).trans rfl
@[simp] theorem enqueue_mirror (src code : Nat) (args : List Nat) (s : State) : (enqueue src code args s).mirror = s.mirror :=
  (congrArg State.mirror (enqueue_frame src code args s)).trans rfl
@[simp] theorem enqueue_cap (src code : Nat) (args : List Nat) (s : State) : (enqueue src code args s).cap = s.cap :=
  (congrArg State.cap (enqueue_frame src code args s)).trans rfl
@[simp] theorem enqueue_host (src code : Nat) (args : List Nat) (s : State) : (enqueue src code args s).host = s.host :=
  (congrArg State.host (enqueue_frame src code args s)).trans rfl
@[simp] theorem enqueue_cmd (src code : Nat) (args : List Nat) (s : State) : (enqueue src code args s).cmd = s.cmd :=
  (congrArg State.cmd (enqueue_frame src code args s)).trans rfl
@[simp] theorem enqueue_jrn (src code : Nat) (args : List Nat) (s : State) : (enqueue src code args s).jrn = s.jrn :=
  (congrArg State.jrn (enqueue_frame src code args s)).trans rfl
@[simp] theorem enqueue_flash (src code : Nat) (args : List Nat) (s : State) : (enqueue src code args s).flash = s.flash :=
  (congrArg State.flash (enqueue_frame src code args s)).trans rfl
@[simp] theorem enqueue_hsl (src code : Nat) (args : List Nat) (s : State) : (enqueue src code args s).hsl = s.hsl :=
  (congrArg State.hsl (enqueue_frame src code args s)).trans rfl
@[simp] theorem enqueue_pre (src code : Nat) (args : List Nat) (s : State) : (enqueue src code args s).pre = s.pre :=
  (congrArg State.pre (enqueue_frame src code args s)).trans rfl
@[simp] theorem enqueue_chan (src code : Nat) (args : List Nat) (s : State) : (enqueue src code args s).chan = s.chan :=
  (congrArg State.chan (enqueue_frame src code args s)).trans rfl
@[simp] theorem enqueue_seq (src code : Nat) (args : List Nat) (s : State) : (enqueue src code args s).seq = s.seq :=
  (congrArg State.seq (enqueue_frame src code args s)).trans rfl
@[simp] theorem enqueue_cal (src code : Nat) (args : List Nat) (s : State) : (enqueue src code args s).cal = s.cal :=
  (congrArg State.cal (enqueue_frame src code args s)).trans rfl
@[simp] theorem enqueue_bas (src code : Nat) (args : List Nat) (s : State) : (enqueue src code args s).bas = s.bas :=
  (congrArg State.bas (enqueue_frame src code args s)).trans rfl
@[simp] theorem enqueue_acc (src code : Nat) (args : List Nat) (s : State) : (enqueue src code args s).acc = s.acc :=
  (congrArg State.acc (enqueue_frame src code args s)).trans rfl
@[simp] theorem enqueue_tdm (src code : Nat) (args : List Nat) (s : State) : (enqueue src code args s).tdm = s.tdm :=
  (congrArg State.tdm (enqueue_frame src code args s)).trans rfl
@[simp] theorem enqueue_tls (src code : Nat) (args : List Nat) (s : State) : (enqueue src code args s).tls = s.tls :=
  (congrArg State.tls (enqueue_frame src code args s)).trans rfl
@[simp] theorem enqueue_flashBig (src code : Nat) (args : List Nat) (s : State) : (enqueue src code args s).flashBig = s.flashBig :=
  (congrArg State.flashBig (enqueue_frame src code args s)).trans rfl
@[simp] theorem enqueue_otp (src code : Nat) (args : List Nat) (s : State) : (enqueue src code args s).otp = s.otp :=
  (congrArg State.otp (enqueue_frame src code args s)).trans rfl
@[simp] theorem enqueue_sec (src code : Nat) (args : List Nat) (s : State) : (enqueue src code args s).sec = s.sec :=
  (congrArg State.sec (enqueue_frame src code args s)).trans rfl
@[simp] theorem enqueue_boot (src code : Nat) (args : List Nat) (s : State) : (enqueue src code args s).boot = s.boot :=
  (congrArg State.boot (enqueue_frame src code args s)).trans rfl

/-! ### makeSuppressed -/

/-- Nothing changes but regs, strata. -/
theorem makeSuppressed_frame (src code : Nat) (s : State) :
    makeSuppressed src code s = { s with regs := (makeSuppressed src code s).regs, strata := (makeSuppressed src code s).strata } := by
  unfold makeSuppressed; dsimp only; split
  · rfl
  · rw [enqueue_frame]; rfl

@[simp] theorem makeSuppressed_pending (src code : Nat) (s : State) : (makeSuppressed src code s).pending = s.pending :=
  (congrArg State.pending (makeSuppressed_frame src code s)).trans rfl
@[simp] theorem makeSuppressed_out (src code : Nat) (s : State) : (makeSuppressed src code s).out = s.out :=
  (congrArg State.out (makeSuppressed_frame src code s)).trans rfl
@[simp] theorem makeSuppressed_free (src code : Nat) (s : State) : (makeSuppressed src code s).free = s.free :=
  (congrArg State.free (makeSuppressed_frame src code s)).trans rfl
@[simp] theorem makeSuppressed_variant (src code : Nat) (s : State) : (makeSuppressed src code s).variant = s.variant :=
  (congrArg State.variant (makeSuppressed_frame src code s)).trans rfl
@[simp] theorem makeSuppressed_now (src code : Nat) (s : State) : (makeSuppressed src code s).now = s.now :=
  (congrArg State.now (makeSuppressed_frame src code s)).trans rfl
@[simp] theorem makeSuppressed_pwr (src code : Nat) (s : State) : (makeSuppressed src code s).pwr = s.pwr :=
  (congrArg State.pwr (makeSuppressed_frame src code s)).trans rfl
@[simp] theorem makeSuppressed_wall (src code : Nat) (s : State) : (makeSuppressed src code s).wall = s.wall :=
  (congrArg State.wall (makeSuppressed_frame src code s)).trans rfl
@[simp] theorem makeSuppressed_wide (src code : Nat) (s : State) : (makeSuppressed src code s).wide = s.wide :=
  (congrArg State.wide (makeSuppressed_frame src code s)).trans rfl
@[simp] theorem makeSuppressed_mem (src code : Nat) (s : State) : (makeSuppressed src code s).mem = s.mem :=
  (congrArg State.mem (makeSuppressed_frame src code s)).trans rfl
@[simp] theorem makeSuppressed_bad (src code : Nat) (s : State) : (makeSuppressed src code s).bad = s.bad :=
  (congrArg State.bad (makeSuppressed_frame src code s)).trans rfl
@[simp] theorem makeSuppressed_mtimecmp (src code : Nat) (s : State) : (makeSuppressed src code s).mtimecmp = s.mtimecmp :=
  (congrArg State.mtimecmp (makeSuppressed_frame src code s)).trans rfl
@[simp] theorem makeSuppressed_hartStart (src code : Nat) (s : State) : (makeSuppressed src code s).hartStart = s.hartStart :=
  (congrArg State.hartStart (makeSuppressed_frame src code s)).trans rfl
@[simp] theorem makeSuppressed_reserve (src code : Nat) (s : State) : (makeSuppressed src code s).reserve = s.reserve :=
  (congrArg State.reserve (makeSuppressed_frame src code s)).trans rfl
@[simp] theorem makeSuppressed_l2 (src code : Nat) (s : State) : (makeSuppressed src code s).l2 = s.l2 :=
  (congrArg State.l2 (makeSuppressed_frame src code s)).trans rfl
@[simp] theorem makeSuppressed_l1 (src code : Nat) (s : State) : (makeSuppressed src code s).l1 = s.l1 :=
  (congrArg State.l1 (makeSuppressed_frame src code s)).trans rfl
@[simp] theorem makeSuppressed_ind (src code : Nat) (s : State) : (makeSuppressed src code s).ind = s.ind :=
  (congrArg State.ind (makeSuppressed_frame src code s)).trans rfl
@[simp] theorem makeSuppressed_red (src code : Nat) (s : State) : (makeSuppressed src code s).red = s.red :=
  (congrArg State.red (makeSuppressed_frame src code s)).trans rfl
@[simp] theorem makeSuppressed_mirror (src code : Nat) (s : State) : (makeSuppressed src code s).mirror = s.mirror :=
  (congrArg State.mirror (makeSuppressed_frame src code s)).trans rfl
@[simp] theorem makeSuppressed_cap (src code : Nat) (s : State) : (makeSuppressed src code s).cap = s.cap :=
  (congrArg State.cap (makeSuppressed_frame src code s)).trans rfl
@[simp] theorem makeSuppressed_host (src code : Nat) (s : State) : (makeSuppressed src code s).host = s.host :=
  (congrArg State.host (makeSuppressed_frame src code s)).trans rfl
@[simp] theorem makeSuppressed_cmd (src code : Nat) (s : State) : (makeSuppressed src code s).cmd = s.cmd :=
  (congrArg State.cmd (makeSuppressed_frame src code s)).trans rfl
@[simp] theorem makeSuppressed_jrn (src code : Nat) (s : State) : (makeSuppressed src code s).jrn = s.jrn :=
  (congrArg State.jrn (makeSuppressed_frame src code s)).trans rfl
@[simp] theorem makeSuppressed_flash (src code : Nat) (s : State) : (makeSuppressed src code s).flash = s.flash :=
  (congrArg State.flash (makeSuppressed_frame src code s)).trans rfl
@[simp] theorem makeSuppressed_hsl (src code : Nat) (s : State) : (makeSuppressed src code s).hsl = s.hsl :=
  (congrArg State.hsl (makeSuppressed_frame src code s)).trans rfl
@[simp] theorem makeSuppressed_pre (src code : Nat) (s : State) : (makeSuppressed src code s).pre = s.pre :=
  (congrArg State.pre (makeSuppressed_frame src code s)).trans rfl
@[simp] theorem makeSuppressed_chan (src code : Nat) (s : State) : (makeSuppressed src code s).chan = s.chan :=
  (congrArg State.chan (makeSuppressed_frame src code s)).trans rfl
@[simp] theorem makeSuppressed_seq (src code : Nat) (s : State) : (makeSuppressed src code s).seq = s.seq :=
  (congrArg State.seq (makeSuppressed_frame src code s)).trans rfl
@[simp] theorem makeSuppressed_cal (src code : Nat) (s : State) : (makeSuppressed src code s).cal = s.cal :=
  (congrArg State.cal (makeSuppressed_frame src code s)).trans rfl
@[simp] theorem makeSuppressed_bas (src code : Nat) (s : State) : (makeSuppressed src code s).bas = s.bas :=
  (congrArg State.bas (makeSuppressed_frame src code s)).trans rfl
@[simp] theorem makeSuppressed_acc (src code : Nat) (s : State) : (makeSuppressed src code s).acc = s.acc :=
  (congrArg State.acc (makeSuppressed_frame src code s)).trans rfl
@[simp] theorem makeSuppressed_tdm (src code : Nat) (s : State) : (makeSuppressed src code s).tdm = s.tdm :=
  (congrArg State.tdm (makeSuppressed_frame src code s)).trans rfl
@[simp] theorem makeSuppressed_tls (src code : Nat) (s : State) : (makeSuppressed src code s).tls = s.tls :=
  (congrArg State.tls (makeSuppressed_frame src code s)).trans rfl
@[simp] theorem makeSuppressed_flashBig (src code : Nat) (s : State) : (makeSuppressed src code s).flashBig = s.flashBig :=
  (congrArg State.flashBig (makeSuppressed_frame src code s)).trans rfl
@[simp] theorem makeSuppressed_otp (src code : Nat) (s : State) : (makeSuppressed src code s).otp = s.otp :=
  (congrArg State.otp (makeSuppressed_frame src code s)).trans rfl
@[simp] theorem makeSuppressed_sec (src code : Nat) (s : State) : (makeSuppressed src code s).sec = s.sec :=
  (congrArg State.sec (makeSuppressed_frame src code s)).trans rfl
@[simp] theorem makeSuppressed_boot (src code : Nat) (s : State) : (makeSuppressed src code s).boot = s.boot :=
  (congrArg State.boot (makeSuppressed_frame src code s)).trans rfl

/-! ### record -/

/-- Nothing changes but regs, strata. -/
theorem record_frame (src code : Nat) (args : List Nat) (s : State) :
    record src code args s = { s with regs := (record src code args s).regs, strata := (record src code args s).strata } := by
  unfold record; dsimp only; split
  · rw [enqueue_frame, makeSuppressed_frame]
  · split
    · rw [enqueue_frame, makeSuppressed_frame]; rfl
    · rfl

@[simp] theorem record_pending (src code : Nat) (args : List Nat) (s : State) : (record src code args s).pending = s.pending :=
  (congrArg State.pending (record_frame src code args s)).trans rfl
@[simp] theorem record_out (src code : Nat) (args : List Nat) (s : State) : (record src code args s).out = s.out :=
  (congrArg State.out (record_frame src code args s)).trans rfl
@[simp] theorem record_free (src code : Nat) (args : List Nat) (s : State) : (record src code args s).free = s.free :=
  (congrArg State.free (record_frame src code args s)).trans rfl
@[simp] theorem record_variant (src code : Nat) (args : List Nat) (s : State) : (record src code args s).variant = s.variant :=
  (congrArg State.variant (record_frame src code args s)).trans rfl
@[simp] theorem record_now (src code : Nat) (args : List Nat) (s : State) : (record src code args s).now = s.now :=
  (congrArg State.now (record_frame src code args s)).trans rfl
@[simp] theorem record_pwr (src code : Nat) (args : List Nat) (s : State) : (record src code args s).pwr = s.pwr :=
  (congrArg State.pwr (record_frame src code args s)).trans rfl
@[simp] theorem record_wall (src code : Nat) (args : List Nat) (s : State) : (record src code args s).wall = s.wall :=
  (congrArg State.wall (record_frame src code args s)).trans rfl
@[simp] theorem record_wide (src code : Nat) (args : List Nat) (s : State) : (record src code args s).wide = s.wide :=
  (congrArg State.wide (record_frame src code args s)).trans rfl
@[simp] theorem record_mem (src code : Nat) (args : List Nat) (s : State) : (record src code args s).mem = s.mem :=
  (congrArg State.mem (record_frame src code args s)).trans rfl
@[simp] theorem record_bad (src code : Nat) (args : List Nat) (s : State) : (record src code args s).bad = s.bad :=
  (congrArg State.bad (record_frame src code args s)).trans rfl
@[simp] theorem record_mtimecmp (src code : Nat) (args : List Nat) (s : State) : (record src code args s).mtimecmp = s.mtimecmp :=
  (congrArg State.mtimecmp (record_frame src code args s)).trans rfl
@[simp] theorem record_hartStart (src code : Nat) (args : List Nat) (s : State) : (record src code args s).hartStart = s.hartStart :=
  (congrArg State.hartStart (record_frame src code args s)).trans rfl
@[simp] theorem record_reserve (src code : Nat) (args : List Nat) (s : State) : (record src code args s).reserve = s.reserve :=
  (congrArg State.reserve (record_frame src code args s)).trans rfl
@[simp] theorem record_l2 (src code : Nat) (args : List Nat) (s : State) : (record src code args s).l2 = s.l2 :=
  (congrArg State.l2 (record_frame src code args s)).trans rfl
@[simp] theorem record_l1 (src code : Nat) (args : List Nat) (s : State) : (record src code args s).l1 = s.l1 :=
  (congrArg State.l1 (record_frame src code args s)).trans rfl
@[simp] theorem record_ind (src code : Nat) (args : List Nat) (s : State) : (record src code args s).ind = s.ind :=
  (congrArg State.ind (record_frame src code args s)).trans rfl
@[simp] theorem record_red (src code : Nat) (args : List Nat) (s : State) : (record src code args s).red = s.red :=
  (congrArg State.red (record_frame src code args s)).trans rfl
@[simp] theorem record_mirror (src code : Nat) (args : List Nat) (s : State) : (record src code args s).mirror = s.mirror :=
  (congrArg State.mirror (record_frame src code args s)).trans rfl
@[simp] theorem record_cap (src code : Nat) (args : List Nat) (s : State) : (record src code args s).cap = s.cap :=
  (congrArg State.cap (record_frame src code args s)).trans rfl
@[simp] theorem record_host (src code : Nat) (args : List Nat) (s : State) : (record src code args s).host = s.host :=
  (congrArg State.host (record_frame src code args s)).trans rfl
@[simp] theorem record_cmd (src code : Nat) (args : List Nat) (s : State) : (record src code args s).cmd = s.cmd :=
  (congrArg State.cmd (record_frame src code args s)).trans rfl
@[simp] theorem record_jrn (src code : Nat) (args : List Nat) (s : State) : (record src code args s).jrn = s.jrn :=
  (congrArg State.jrn (record_frame src code args s)).trans rfl
@[simp] theorem record_flash (src code : Nat) (args : List Nat) (s : State) : (record src code args s).flash = s.flash :=
  (congrArg State.flash (record_frame src code args s)).trans rfl
@[simp] theorem record_hsl (src code : Nat) (args : List Nat) (s : State) : (record src code args s).hsl = s.hsl :=
  (congrArg State.hsl (record_frame src code args s)).trans rfl
@[simp] theorem record_pre (src code : Nat) (args : List Nat) (s : State) : (record src code args s).pre = s.pre :=
  (congrArg State.pre (record_frame src code args s)).trans rfl
@[simp] theorem record_chan (src code : Nat) (args : List Nat) (s : State) : (record src code args s).chan = s.chan :=
  (congrArg State.chan (record_frame src code args s)).trans rfl
@[simp] theorem record_seq (src code : Nat) (args : List Nat) (s : State) : (record src code args s).seq = s.seq :=
  (congrArg State.seq (record_frame src code args s)).trans rfl
@[simp] theorem record_cal (src code : Nat) (args : List Nat) (s : State) : (record src code args s).cal = s.cal :=
  (congrArg State.cal (record_frame src code args s)).trans rfl
@[simp] theorem record_bas (src code : Nat) (args : List Nat) (s : State) : (record src code args s).bas = s.bas :=
  (congrArg State.bas (record_frame src code args s)).trans rfl
@[simp] theorem record_acc (src code : Nat) (args : List Nat) (s : State) : (record src code args s).acc = s.acc :=
  (congrArg State.acc (record_frame src code args s)).trans rfl
@[simp] theorem record_tdm (src code : Nat) (args : List Nat) (s : State) : (record src code args s).tdm = s.tdm :=
  (congrArg State.tdm (record_frame src code args s)).trans rfl
@[simp] theorem record_tls (src code : Nat) (args : List Nat) (s : State) : (record src code args s).tls = s.tls :=
  (congrArg State.tls (record_frame src code args s)).trans rfl
@[simp] theorem record_flashBig (src code : Nat) (args : List Nat) (s : State) : (record src code args s).flashBig = s.flashBig :=
  (congrArg State.flashBig (record_frame src code args s)).trans rfl
@[simp] theorem record_otp (src code : Nat) (args : List Nat) (s : State) : (record src code args s).otp = s.otp :=
  (congrArg State.otp (record_frame src code args s)).trans rfl
@[simp] theorem record_sec (src code : Nat) (args : List Nat) (s : State) : (record src code args s).sec = s.sec :=
  (congrArg State.sec (record_frame src code args s)).trans rfl
@[simp] theorem record_boot (src code : Nat) (args : List Nat) (s : State) : (record src code args s).boot = s.boot :=
  (congrArg State.boot (record_frame src code args s)).trans rfl

/-! ### noteReserved -/

/-- Nothing changes but regs, strata. -/
theorem noteReserved_frame (a v : Nat) (s : State) :
    noteReserved a v s = { s with regs := (noteReserved a v s).regs, strata := (noteReserved a v s).strata } := by
  unfold noteReserved; rw [record_frame]

@[simp] theorem noteReserved_pending (a v : Nat) (s : State) : (noteReserved a v s).pending = s.pending :=
  (congrArg State.pending (noteReserved_frame a v s)).trans rfl
@[simp] theorem noteReserved_out (a v : Nat) (s : State) : (noteReserved a v s).out = s.out :=
  (congrArg State.out (noteReserved_frame a v s)).trans rfl
@[simp] theorem noteReserved_free (a v : Nat) (s : State) : (noteReserved a v s).free = s.free :=
  (congrArg State.free (noteReserved_frame a v s)).trans rfl
@[simp] theorem noteReserved_variant (a v : Nat) (s : State) : (noteReserved a v s).variant = s.variant :=
  (congrArg State.variant (noteReserved_frame a v s)).trans rfl
@[simp] theorem noteReserved_now (a v : Nat) (s : State) : (noteReserved a v s).now = s.now :=
  (congrArg State.now (noteReserved_frame a v s)).trans rfl
@[simp] theorem noteReserved_pwr (a v : Nat) (s : State) : (noteReserved a v s).pwr = s.pwr :=
  (congrArg State.pwr (noteReserved_frame a v s)).trans rfl
@[simp] theorem noteReserved_wall (a v : Nat) (s : State) : (noteReserved a v s).wall = s.wall :=
  (congrArg State.wall (noteReserved_frame a v s)).trans rfl
@[simp] theorem noteReserved_wide (a v : Nat) (s : State) : (noteReserved a v s).wide = s.wide :=
  (congrArg State.wide (noteReserved_frame a v s)).trans rfl
@[simp] theorem noteReserved_mem (a v : Nat) (s : State) : (noteReserved a v s).mem = s.mem :=
  (congrArg State.mem (noteReserved_frame a v s)).trans rfl
@[simp] theorem noteReserved_bad (a v : Nat) (s : State) : (noteReserved a v s).bad = s.bad :=
  (congrArg State.bad (noteReserved_frame a v s)).trans rfl
@[simp] theorem noteReserved_mtimecmp (a v : Nat) (s : State) : (noteReserved a v s).mtimecmp = s.mtimecmp :=
  (congrArg State.mtimecmp (noteReserved_frame a v s)).trans rfl
@[simp] theorem noteReserved_hartStart (a v : Nat) (s : State) : (noteReserved a v s).hartStart = s.hartStart :=
  (congrArg State.hartStart (noteReserved_frame a v s)).trans rfl
@[simp] theorem noteReserved_reserve (a v : Nat) (s : State) : (noteReserved a v s).reserve = s.reserve :=
  (congrArg State.reserve (noteReserved_frame a v s)).trans rfl
@[simp] theorem noteReserved_l2 (a v : Nat) (s : State) : (noteReserved a v s).l2 = s.l2 :=
  (congrArg State.l2 (noteReserved_frame a v s)).trans rfl
@[simp] theorem noteReserved_l1 (a v : Nat) (s : State) : (noteReserved a v s).l1 = s.l1 :=
  (congrArg State.l1 (noteReserved_frame a v s)).trans rfl
@[simp] theorem noteReserved_ind (a v : Nat) (s : State) : (noteReserved a v s).ind = s.ind :=
  (congrArg State.ind (noteReserved_frame a v s)).trans rfl
@[simp] theorem noteReserved_red (a v : Nat) (s : State) : (noteReserved a v s).red = s.red :=
  (congrArg State.red (noteReserved_frame a v s)).trans rfl
@[simp] theorem noteReserved_mirror (a v : Nat) (s : State) : (noteReserved a v s).mirror = s.mirror :=
  (congrArg State.mirror (noteReserved_frame a v s)).trans rfl
@[simp] theorem noteReserved_cap (a v : Nat) (s : State) : (noteReserved a v s).cap = s.cap :=
  (congrArg State.cap (noteReserved_frame a v s)).trans rfl
@[simp] theorem noteReserved_host (a v : Nat) (s : State) : (noteReserved a v s).host = s.host :=
  (congrArg State.host (noteReserved_frame a v s)).trans rfl
@[simp] theorem noteReserved_cmd (a v : Nat) (s : State) : (noteReserved a v s).cmd = s.cmd :=
  (congrArg State.cmd (noteReserved_frame a v s)).trans rfl
@[simp] theorem noteReserved_jrn (a v : Nat) (s : State) : (noteReserved a v s).jrn = s.jrn :=
  (congrArg State.jrn (noteReserved_frame a v s)).trans rfl
@[simp] theorem noteReserved_flash (a v : Nat) (s : State) : (noteReserved a v s).flash = s.flash :=
  (congrArg State.flash (noteReserved_frame a v s)).trans rfl
@[simp] theorem noteReserved_hsl (a v : Nat) (s : State) : (noteReserved a v s).hsl = s.hsl :=
  (congrArg State.hsl (noteReserved_frame a v s)).trans rfl
@[simp] theorem noteReserved_pre (a v : Nat) (s : State) : (noteReserved a v s).pre = s.pre :=
  (congrArg State.pre (noteReserved_frame a v s)).trans rfl
@[simp] theorem noteReserved_chan (a v : Nat) (s : State) : (noteReserved a v s).chan = s.chan :=
  (congrArg State.chan (noteReserved_frame a v s)).trans rfl
@[simp] theorem noteReserved_seq (a v : Nat) (s : State) : (noteReserved a v s).seq = s.seq :=
  (congrArg State.seq (noteReserved_frame a v s)).trans rfl
@[simp] theorem noteReserved_cal (a v : Nat) (s : State) : (noteReserved a v s).cal = s.cal :=
  (congrArg State.cal (noteReserved_frame a v s)).trans rfl
@[simp] theorem noteReserved_bas (a v : Nat) (s : State) : (noteReserved a v s).bas = s.bas :=
  (congrArg State.bas (noteReserved_frame a v s)).trans rfl
@[simp] theorem noteReserved_acc (a v : Nat) (s : State) : (noteReserved a v s).acc = s.acc :=
  (congrArg State.acc (noteReserved_frame a v s)).trans rfl
@[simp] theorem noteReserved_tdm (a v : Nat) (s : State) : (noteReserved a v s).tdm = s.tdm :=
  (congrArg State.tdm (noteReserved_frame a v s)).trans rfl
@[simp] theorem noteReserved_tls (a v : Nat) (s : State) : (noteReserved a v s).tls = s.tls :=
  (congrArg State.tls (noteReserved_frame a v s)).trans rfl
@[simp] theorem noteReserved_flashBig (a v : Nat) (s : State) : (noteReserved a v s).flashBig = s.flashBig :=
  (congrArg State.flashBig (noteReserved_frame a v s)).trans rfl
@[simp] theorem noteReserved_otp (a v : Nat) (s : State) : (noteReserved a v s).otp = s.otp :=
  (congrArg State.otp (noteReserved_frame a v s)).trans rfl
@[simp] theorem noteReserved_sec (a v : Nat) (s : State) : (noteReserved a v s).sec = s.sec :=
  (congrArg State.sec (noteReserved_frame a v s)).trans rfl
@[simp] theorem noteReserved_boot (a v : Nat) (s : State) : (noteReserved a v s).boot = s.boot :=
  (congrArg State.boot (noteReserved_frame a v s)).trans rfl

/-! ### noteViolation -/

/-- Nothing changes but regs, strata. -/
theorem noteViolation_frame (a v : Nat) (s : State) :
    noteViolation a v s = { s with regs := (noteViolation a v s).regs, strata := (noteViolation a v s).strata } := by
  unfold noteViolation; rw [record_frame]; rfl

@[simp] theorem noteViolation_pending (a v : Nat) (s : State) : (noteViolation a v s).pending = s.pending :=
  (congrArg State.pending (noteViolation_frame a v s)).trans rfl
@[simp] theorem noteViolation_out (a v : Nat) (s : State) : (noteViolation a v s).out = s.out :=
  (congrArg State.out (noteViolation_frame a v s)).trans rfl
@[simp] theorem noteViolation_free (a v : Nat) (s : State) : (noteViolation a v s).free = s.free :=
  (congrArg State.free (noteViolation_frame a v s)).trans rfl
@[simp] theorem noteViolation_variant (a v : Nat) (s : State) : (noteViolation a v s).variant = s.variant :=
  (congrArg State.variant (noteViolation_frame a v s)).trans rfl
@[simp] theorem noteViolation_now (a v : Nat) (s : State) : (noteViolation a v s).now = s.now :=
  (congrArg State.now (noteViolation_frame a v s)).trans rfl
@[simp] theorem noteViolation_pwr (a v : Nat) (s : State) : (noteViolation a v s).pwr = s.pwr :=
  (congrArg State.pwr (noteViolation_frame a v s)).trans rfl
@[simp] theorem noteViolation_wall (a v : Nat) (s : State) : (noteViolation a v s).wall = s.wall :=
  (congrArg State.wall (noteViolation_frame a v s)).trans rfl
@[simp] theorem noteViolation_wide (a v : Nat) (s : State) : (noteViolation a v s).wide = s.wide :=
  (congrArg State.wide (noteViolation_frame a v s)).trans rfl
@[simp] theorem noteViolation_mem (a v : Nat) (s : State) : (noteViolation a v s).mem = s.mem :=
  (congrArg State.mem (noteViolation_frame a v s)).trans rfl
@[simp] theorem noteViolation_bad (a v : Nat) (s : State) : (noteViolation a v s).bad = s.bad :=
  (congrArg State.bad (noteViolation_frame a v s)).trans rfl
@[simp] theorem noteViolation_mtimecmp (a v : Nat) (s : State) : (noteViolation a v s).mtimecmp = s.mtimecmp :=
  (congrArg State.mtimecmp (noteViolation_frame a v s)).trans rfl
@[simp] theorem noteViolation_hartStart (a v : Nat) (s : State) : (noteViolation a v s).hartStart = s.hartStart :=
  (congrArg State.hartStart (noteViolation_frame a v s)).trans rfl
@[simp] theorem noteViolation_reserve (a v : Nat) (s : State) : (noteViolation a v s).reserve = s.reserve :=
  (congrArg State.reserve (noteViolation_frame a v s)).trans rfl
@[simp] theorem noteViolation_l2 (a v : Nat) (s : State) : (noteViolation a v s).l2 = s.l2 :=
  (congrArg State.l2 (noteViolation_frame a v s)).trans rfl
@[simp] theorem noteViolation_l1 (a v : Nat) (s : State) : (noteViolation a v s).l1 = s.l1 :=
  (congrArg State.l1 (noteViolation_frame a v s)).trans rfl
@[simp] theorem noteViolation_ind (a v : Nat) (s : State) : (noteViolation a v s).ind = s.ind :=
  (congrArg State.ind (noteViolation_frame a v s)).trans rfl
@[simp] theorem noteViolation_red (a v : Nat) (s : State) : (noteViolation a v s).red = s.red :=
  (congrArg State.red (noteViolation_frame a v s)).trans rfl
@[simp] theorem noteViolation_mirror (a v : Nat) (s : State) : (noteViolation a v s).mirror = s.mirror :=
  (congrArg State.mirror (noteViolation_frame a v s)).trans rfl
@[simp] theorem noteViolation_cap (a v : Nat) (s : State) : (noteViolation a v s).cap = s.cap :=
  (congrArg State.cap (noteViolation_frame a v s)).trans rfl
@[simp] theorem noteViolation_host (a v : Nat) (s : State) : (noteViolation a v s).host = s.host :=
  (congrArg State.host (noteViolation_frame a v s)).trans rfl
@[simp] theorem noteViolation_cmd (a v : Nat) (s : State) : (noteViolation a v s).cmd = s.cmd :=
  (congrArg State.cmd (noteViolation_frame a v s)).trans rfl
@[simp] theorem noteViolation_jrn (a v : Nat) (s : State) : (noteViolation a v s).jrn = s.jrn :=
  (congrArg State.jrn (noteViolation_frame a v s)).trans rfl
@[simp] theorem noteViolation_flash (a v : Nat) (s : State) : (noteViolation a v s).flash = s.flash :=
  (congrArg State.flash (noteViolation_frame a v s)).trans rfl
@[simp] theorem noteViolation_hsl (a v : Nat) (s : State) : (noteViolation a v s).hsl = s.hsl :=
  (congrArg State.hsl (noteViolation_frame a v s)).trans rfl
@[simp] theorem noteViolation_pre (a v : Nat) (s : State) : (noteViolation a v s).pre = s.pre :=
  (congrArg State.pre (noteViolation_frame a v s)).trans rfl
@[simp] theorem noteViolation_chan (a v : Nat) (s : State) : (noteViolation a v s).chan = s.chan :=
  (congrArg State.chan (noteViolation_frame a v s)).trans rfl
@[simp] theorem noteViolation_seq (a v : Nat) (s : State) : (noteViolation a v s).seq = s.seq :=
  (congrArg State.seq (noteViolation_frame a v s)).trans rfl
@[simp] theorem noteViolation_cal (a v : Nat) (s : State) : (noteViolation a v s).cal = s.cal :=
  (congrArg State.cal (noteViolation_frame a v s)).trans rfl
@[simp] theorem noteViolation_bas (a v : Nat) (s : State) : (noteViolation a v s).bas = s.bas :=
  (congrArg State.bas (noteViolation_frame a v s)).trans rfl
@[simp] theorem noteViolation_acc (a v : Nat) (s : State) : (noteViolation a v s).acc = s.acc :=
  (congrArg State.acc (noteViolation_frame a v s)).trans rfl
@[simp] theorem noteViolation_tdm (a v : Nat) (s : State) : (noteViolation a v s).tdm = s.tdm :=
  (congrArg State.tdm (noteViolation_frame a v s)).trans rfl
@[simp] theorem noteViolation_tls (a v : Nat) (s : State) : (noteViolation a v s).tls = s.tls :=
  (congrArg State.tls (noteViolation_frame a v s)).trans rfl
@[simp] theorem noteViolation_flashBig (a v : Nat) (s : State) : (noteViolation a v s).flashBig = s.flashBig :=
  (congrArg State.flashBig (noteViolation_frame a v s)).trans rfl
@[simp] theorem noteViolation_otp (a v : Nat) (s : State) : (noteViolation a v s).otp = s.otp :=
  (congrArg State.otp (noteViolation_frame a v s)).trans rfl
@[simp] theorem noteViolation_sec (a v : Nat) (s : State) : (noteViolation a v s).sec = s.sec :=
  (congrArg State.sec (noteViolation_frame a v s)).trans rfl
@[simp] theorem noteViolation_boot (a v : Nat) (s : State) : (noteViolation a v s).boot = s.boot :=
  (congrArg State.boot (noteViolation_frame a v s)).trans rfl

/-! ### writeFields -/

/-- Nothing changes but regs, strata. -/
theorem writeFields_frame (a : Nat) (fs : List Fld) (v : Nat) (s : State) :
    writeFields a fs v s = { s with regs := (writeFields a fs v s).regs, strata := (writeFields a fs v s).strata } := by
  unfold writeFields; dsimp only; split <;> split
  · rw [noteReserved_frame, noteViolation_frame]; rfl
  · rw [noteReserved_frame]; rfl
  · rw [noteViolation_frame]; rfl
  · rfl

@[simp] theorem writeFields_pending (a : Nat) (fs : List Fld) (v : Nat) (s : State) : (writeFields a fs v s).pending = s.pending :=
  (congrArg State.pending (writeFields_frame a fs v s)).trans rfl
@[simp] theorem writeFields_out (a : Nat) (fs : List Fld) (v : Nat) (s : State) : (writeFields a fs v s).out = s.out :=
  (congrArg State.out (writeFields_frame a fs v s)).trans rfl
@[simp] theorem writeFields_free (a : Nat) (fs : List Fld) (v : Nat) (s : State) : (writeFields a fs v s).free = s.free :=
  (congrArg State.free (writeFields_frame a fs v s)).trans rfl
@[simp] theorem writeFields_variant (a : Nat) (fs : List Fld) (v : Nat) (s : State) : (writeFields a fs v s).variant = s.variant :=
  (congrArg State.variant (writeFields_frame a fs v s)).trans rfl
@[simp] theorem writeFields_now (a : Nat) (fs : List Fld) (v : Nat) (s : State) : (writeFields a fs v s).now = s.now :=
  (congrArg State.now (writeFields_frame a fs v s)).trans rfl
@[simp] theorem writeFields_pwr (a : Nat) (fs : List Fld) (v : Nat) (s : State) : (writeFields a fs v s).pwr = s.pwr :=
  (congrArg State.pwr (writeFields_frame a fs v s)).trans rfl
@[simp] theorem writeFields_wall (a : Nat) (fs : List Fld) (v : Nat) (s : State) : (writeFields a fs v s).wall = s.wall :=
  (congrArg State.wall (writeFields_frame a fs v s)).trans rfl
@[simp] theorem writeFields_wide (a : Nat) (fs : List Fld) (v : Nat) (s : State) : (writeFields a fs v s).wide = s.wide :=
  (congrArg State.wide (writeFields_frame a fs v s)).trans rfl
@[simp] theorem writeFields_mem (a : Nat) (fs : List Fld) (v : Nat) (s : State) : (writeFields a fs v s).mem = s.mem :=
  (congrArg State.mem (writeFields_frame a fs v s)).trans rfl
@[simp] theorem writeFields_bad (a : Nat) (fs : List Fld) (v : Nat) (s : State) : (writeFields a fs v s).bad = s.bad :=
  (congrArg State.bad (writeFields_frame a fs v s)).trans rfl
@[simp] theorem writeFields_mtimecmp (a : Nat) (fs : List Fld) (v : Nat) (s : State) : (writeFields a fs v s).mtimecmp = s.mtimecmp :=
  (congrArg State.mtimecmp (writeFields_frame a fs v s)).trans rfl
@[simp] theorem writeFields_hartStart (a : Nat) (fs : List Fld) (v : Nat) (s : State) : (writeFields a fs v s).hartStart = s.hartStart :=
  (congrArg State.hartStart (writeFields_frame a fs v s)).trans rfl
@[simp] theorem writeFields_reserve (a : Nat) (fs : List Fld) (v : Nat) (s : State) : (writeFields a fs v s).reserve = s.reserve :=
  (congrArg State.reserve (writeFields_frame a fs v s)).trans rfl
@[simp] theorem writeFields_l2 (a : Nat) (fs : List Fld) (v : Nat) (s : State) : (writeFields a fs v s).l2 = s.l2 :=
  (congrArg State.l2 (writeFields_frame a fs v s)).trans rfl
@[simp] theorem writeFields_l1 (a : Nat) (fs : List Fld) (v : Nat) (s : State) : (writeFields a fs v s).l1 = s.l1 :=
  (congrArg State.l1 (writeFields_frame a fs v s)).trans rfl
@[simp] theorem writeFields_ind (a : Nat) (fs : List Fld) (v : Nat) (s : State) : (writeFields a fs v s).ind = s.ind :=
  (congrArg State.ind (writeFields_frame a fs v s)).trans rfl
@[simp] theorem writeFields_red (a : Nat) (fs : List Fld) (v : Nat) (s : State) : (writeFields a fs v s).red = s.red :=
  (congrArg State.red (writeFields_frame a fs v s)).trans rfl
@[simp] theorem writeFields_mirror (a : Nat) (fs : List Fld) (v : Nat) (s : State) : (writeFields a fs v s).mirror = s.mirror :=
  (congrArg State.mirror (writeFields_frame a fs v s)).trans rfl
@[simp] theorem writeFields_cap (a : Nat) (fs : List Fld) (v : Nat) (s : State) : (writeFields a fs v s).cap = s.cap :=
  (congrArg State.cap (writeFields_frame a fs v s)).trans rfl
@[simp] theorem writeFields_host (a : Nat) (fs : List Fld) (v : Nat) (s : State) : (writeFields a fs v s).host = s.host :=
  (congrArg State.host (writeFields_frame a fs v s)).trans rfl
@[simp] theorem writeFields_cmd (a : Nat) (fs : List Fld) (v : Nat) (s : State) : (writeFields a fs v s).cmd = s.cmd :=
  (congrArg State.cmd (writeFields_frame a fs v s)).trans rfl
@[simp] theorem writeFields_jrn (a : Nat) (fs : List Fld) (v : Nat) (s : State) : (writeFields a fs v s).jrn = s.jrn :=
  (congrArg State.jrn (writeFields_frame a fs v s)).trans rfl
@[simp] theorem writeFields_flash (a : Nat) (fs : List Fld) (v : Nat) (s : State) : (writeFields a fs v s).flash = s.flash :=
  (congrArg State.flash (writeFields_frame a fs v s)).trans rfl
@[simp] theorem writeFields_hsl (a : Nat) (fs : List Fld) (v : Nat) (s : State) : (writeFields a fs v s).hsl = s.hsl :=
  (congrArg State.hsl (writeFields_frame a fs v s)).trans rfl
@[simp] theorem writeFields_pre (a : Nat) (fs : List Fld) (v : Nat) (s : State) : (writeFields a fs v s).pre = s.pre :=
  (congrArg State.pre (writeFields_frame a fs v s)).trans rfl
@[simp] theorem writeFields_chan (a : Nat) (fs : List Fld) (v : Nat) (s : State) : (writeFields a fs v s).chan = s.chan :=
  (congrArg State.chan (writeFields_frame a fs v s)).trans rfl
@[simp] theorem writeFields_seq (a : Nat) (fs : List Fld) (v : Nat) (s : State) : (writeFields a fs v s).seq = s.seq :=
  (congrArg State.seq (writeFields_frame a fs v s)).trans rfl
@[simp] theorem writeFields_cal (a : Nat) (fs : List Fld) (v : Nat) (s : State) : (writeFields a fs v s).cal = s.cal :=
  (congrArg State.cal (writeFields_frame a fs v s)).trans rfl
@[simp] theorem writeFields_bas (a : Nat) (fs : List Fld) (v : Nat) (s : State) : (writeFields a fs v s).bas = s.bas :=
  (congrArg State.bas (writeFields_frame a fs v s)).trans rfl
@[simp] theorem writeFields_acc (a : Nat) (fs : List Fld) (v : Nat) (s : State) : (writeFields a fs v s).acc = s.acc :=
  (congrArg State.acc (writeFields_frame a fs v s)).trans rfl
@[simp] theorem writeFields_tdm (a : Nat) (fs : List Fld) (v : Nat) (s : State) : (writeFields a fs v s).tdm = s.tdm :=
  (congrArg State.tdm (writeFields_frame a fs v s)).trans rfl
@[simp] theorem writeFields_tls (a : Nat) (fs : List Fld) (v : Nat) (s : State) : (writeFields a fs v s).tls = s.tls :=
  (congrArg State.tls (writeFields_frame a fs v s)).trans rfl
@[simp] theorem writeFields_flashBig (a : Nat) (fs : List Fld) (v : Nat) (s : State) : (writeFields a fs v s).flashBig = s.flashBig :=
  (congrArg State.flashBig (writeFields_frame a fs v s)).trans rfl
@[simp] theorem writeFields_otp (a : Nat) (fs : List Fld) (v : Nat) (s : State) : (writeFields a fs v s).otp = s.otp :=
  (congrArg State.otp (writeFields_frame a fs v s)).trans rfl
@[simp] theorem writeFields_sec (a : Nat) (fs : List Fld) (v : Nat) (s : State) : (writeFields a fs v s).sec = s.sec :=
  (congrArg State.sec (writeFields_frame a fs v s)).trans rfl
@[simp] theorem writeFields_boot (a : Nat) (fs : List Fld) (v : Nat) (s : State) : (writeFields a fs v s).boot = s.boot :=
  (congrArg State.boot (writeFields_frame a fs v s)).trans rfl

/-! ### latchAccError -/

/-- Nothing changes but regs, strata, out. -/
theorem latchAccError_frame (source a kind info : Nat) (s : State) :
    latchAccError source a kind info s = { s with regs := (latchAccError source a kind info s).regs, strata := (latchAccError source a kind info s).strata, out := (latchAccError source a kind info s).out } := by
  unfold latchAccError; rw [record_frame]; rfl

@[simp] theorem latchAccError_pending (source a kind info : Nat) (s : State) : (latchAccError source a kind info s).pending = s.pending :=
  (congrArg State.pending (latchAccError_frame source a kind info s)).trans rfl
@[simp] theorem latchAccError_free (source a kind info : Nat) (s : State) : (latchAccError source a kind info s).free = s.free :=
  (congrArg State.free (latchAccError_frame source a kind info s)).trans rfl
@[simp] theorem latchAccError_variant (source a kind info : Nat) (s : State) : (latchAccError source a kind info s).variant = s.variant :=
  (congrArg State.variant (latchAccError_frame source a kind info s)).trans rfl
@[simp] theorem latchAccError_now (source a kind info : Nat) (s : State) : (latchAccError source a kind info s).now = s.now :=
  (congrArg State.now (latchAccError_frame source a kind info s)).trans rfl
@[simp] theorem latchAccError_pwr (source a kind info : Nat) (s : State) : (latchAccError source a kind info s).pwr = s.pwr :=
  (congrArg State.pwr (latchAccError_frame source a kind info s)).trans rfl
@[simp] theorem latchAccError_wall (source a kind info : Nat) (s : State) : (latchAccError source a kind info s).wall = s.wall :=
  (congrArg State.wall (latchAccError_frame source a kind info s)).trans rfl
@[simp] theorem latchAccError_wide (source a kind info : Nat) (s : State) : (latchAccError source a kind info s).wide = s.wide :=
  (congrArg State.wide (latchAccError_frame source a kind info s)).trans rfl
@[simp] theorem latchAccError_mem (source a kind info : Nat) (s : State) : (latchAccError source a kind info s).mem = s.mem :=
  (congrArg State.mem (latchAccError_frame source a kind info s)).trans rfl
@[simp] theorem latchAccError_bad (source a kind info : Nat) (s : State) : (latchAccError source a kind info s).bad = s.bad :=
  (congrArg State.bad (latchAccError_frame source a kind info s)).trans rfl
@[simp] theorem latchAccError_mtimecmp (source a kind info : Nat) (s : State) : (latchAccError source a kind info s).mtimecmp = s.mtimecmp :=
  (congrArg State.mtimecmp (latchAccError_frame source a kind info s)).trans rfl
@[simp] theorem latchAccError_hartStart (source a kind info : Nat) (s : State) : (latchAccError source a kind info s).hartStart = s.hartStart :=
  (congrArg State.hartStart (latchAccError_frame source a kind info s)).trans rfl
@[simp] theorem latchAccError_reserve (source a kind info : Nat) (s : State) : (latchAccError source a kind info s).reserve = s.reserve :=
  (congrArg State.reserve (latchAccError_frame source a kind info s)).trans rfl
@[simp] theorem latchAccError_l2 (source a kind info : Nat) (s : State) : (latchAccError source a kind info s).l2 = s.l2 :=
  (congrArg State.l2 (latchAccError_frame source a kind info s)).trans rfl
@[simp] theorem latchAccError_l1 (source a kind info : Nat) (s : State) : (latchAccError source a kind info s).l1 = s.l1 :=
  (congrArg State.l1 (latchAccError_frame source a kind info s)).trans rfl
@[simp] theorem latchAccError_ind (source a kind info : Nat) (s : State) : (latchAccError source a kind info s).ind = s.ind :=
  (congrArg State.ind (latchAccError_frame source a kind info s)).trans rfl
@[simp] theorem latchAccError_red (source a kind info : Nat) (s : State) : (latchAccError source a kind info s).red = s.red :=
  (congrArg State.red (latchAccError_frame source a kind info s)).trans rfl
@[simp] theorem latchAccError_mirror (source a kind info : Nat) (s : State) : (latchAccError source a kind info s).mirror = s.mirror :=
  (congrArg State.mirror (latchAccError_frame source a kind info s)).trans rfl
@[simp] theorem latchAccError_cap (source a kind info : Nat) (s : State) : (latchAccError source a kind info s).cap = s.cap :=
  (congrArg State.cap (latchAccError_frame source a kind info s)).trans rfl
@[simp] theorem latchAccError_host (source a kind info : Nat) (s : State) : (latchAccError source a kind info s).host = s.host :=
  (congrArg State.host (latchAccError_frame source a kind info s)).trans rfl
@[simp] theorem latchAccError_cmd (source a kind info : Nat) (s : State) : (latchAccError source a kind info s).cmd = s.cmd :=
  (congrArg State.cmd (latchAccError_frame source a kind info s)).trans rfl
@[simp] theorem latchAccError_jrn (source a kind info : Nat) (s : State) : (latchAccError source a kind info s).jrn = s.jrn :=
  (congrArg State.jrn (latchAccError_frame source a kind info s)).trans rfl
@[simp] theorem latchAccError_flash (source a kind info : Nat) (s : State) : (latchAccError source a kind info s).flash = s.flash :=
  (congrArg State.flash (latchAccError_frame source a kind info s)).trans rfl
@[simp] theorem latchAccError_hsl (source a kind info : Nat) (s : State) : (latchAccError source a kind info s).hsl = s.hsl :=
  (congrArg State.hsl (latchAccError_frame source a kind info s)).trans rfl
@[simp] theorem latchAccError_pre (source a kind info : Nat) (s : State) : (latchAccError source a kind info s).pre = s.pre :=
  (congrArg State.pre (latchAccError_frame source a kind info s)).trans rfl
@[simp] theorem latchAccError_chan (source a kind info : Nat) (s : State) : (latchAccError source a kind info s).chan = s.chan :=
  (congrArg State.chan (latchAccError_frame source a kind info s)).trans rfl
@[simp] theorem latchAccError_seq (source a kind info : Nat) (s : State) : (latchAccError source a kind info s).seq = s.seq :=
  (congrArg State.seq (latchAccError_frame source a kind info s)).trans rfl
@[simp] theorem latchAccError_cal (source a kind info : Nat) (s : State) : (latchAccError source a kind info s).cal = s.cal :=
  (congrArg State.cal (latchAccError_frame source a kind info s)).trans rfl
@[simp] theorem latchAccError_bas (source a kind info : Nat) (s : State) : (latchAccError source a kind info s).bas = s.bas :=
  (congrArg State.bas (latchAccError_frame source a kind info s)).trans rfl
@[simp] theorem latchAccError_acc (source a kind info : Nat) (s : State) : (latchAccError source a kind info s).acc = s.acc :=
  (congrArg State.acc (latchAccError_frame source a kind info s)).trans rfl
@[simp] theorem latchAccError_tdm (source a kind info : Nat) (s : State) : (latchAccError source a kind info s).tdm = s.tdm :=
  (congrArg State.tdm (latchAccError_frame source a kind info s)).trans rfl
@[simp] theorem latchAccError_tls (source a kind info : Nat) (s : State) : (latchAccError source a kind info s).tls = s.tls :=
  (congrArg State.tls (latchAccError_frame source a kind info s)).trans rfl
@[simp] theorem latchAccError_flashBig (source a kind info : Nat) (s : State) : (latchAccError source a kind info s).flashBig = s.flashBig :=
  (congrArg State.flashBig (latchAccError_frame source a kind info s)).trans rfl
@[simp] theorem latchAccError_otp (source a kind info : Nat) (s : State) : (latchAccError source a kind info s).otp = s.otp :=
  (congrArg State.otp (latchAccError_frame source a kind info s)).trans rfl
@[simp] theorem latchAccError_sec (source a kind info : Nat) (s : State) : (latchAccError source a kind info s).sec = s.sec :=
  (congrArg State.sec (latchAccError_frame source a kind info s)).trans rfl
@[simp] theorem latchAccError_boot (source a kind info : Nat) (s : State) : (latchAccError source a kind info s).boot = s.boot :=
  (congrArg State.boot (latchAccError_frame source a kind info s)).trans rfl

/-! ### accError -/

/-- Nothing changes but regs, strata, out. -/
theorem accError_frame (source a kind size : Nat) (write : Bool) (s : State) :
    accError source a kind size write s = { s with regs := (accError source a kind size write s).regs, strata := (accError source a kind size write s).strata, out := (accError source a kind size write s).out } := by
  unfold accError; rw [latchAccError_frame]; rfl

@[simp] theorem accError_pending (source a kind size : Nat) (write : Bool) (s : State) : (accError source a kind size write s).pending = s.pending :=
  (congrArg State.pending (accError_frame source a kind size write s)).trans rfl
@[simp] theorem accError_free (source a kind size : Nat) (write : Bool) (s : State) : (accError source a kind size write s).free = s.free :=
  (congrArg State.free (accError_frame source a kind size write s)).trans rfl
@[simp] theorem accError_variant (source a kind size : Nat) (write : Bool) (s : State) : (accError source a kind size write s).variant = s.variant :=
  (congrArg State.variant (accError_frame source a kind size write s)).trans rfl
@[simp] theorem accError_now (source a kind size : Nat) (write : Bool) (s : State) : (accError source a kind size write s).now = s.now :=
  (congrArg State.now (accError_frame source a kind size write s)).trans rfl
@[simp] theorem accError_pwr (source a kind size : Nat) (write : Bool) (s : State) : (accError source a kind size write s).pwr = s.pwr :=
  (congrArg State.pwr (accError_frame source a kind size write s)).trans rfl
@[simp] theorem accError_wall (source a kind size : Nat) (write : Bool) (s : State) : (accError source a kind size write s).wall = s.wall :=
  (congrArg State.wall (accError_frame source a kind size write s)).trans rfl
@[simp] theorem accError_wide (source a kind size : Nat) (write : Bool) (s : State) : (accError source a kind size write s).wide = s.wide :=
  (congrArg State.wide (accError_frame source a kind size write s)).trans rfl
@[simp] theorem accError_mem (source a kind size : Nat) (write : Bool) (s : State) : (accError source a kind size write s).mem = s.mem :=
  (congrArg State.mem (accError_frame source a kind size write s)).trans rfl
@[simp] theorem accError_bad (source a kind size : Nat) (write : Bool) (s : State) : (accError source a kind size write s).bad = s.bad :=
  (congrArg State.bad (accError_frame source a kind size write s)).trans rfl
@[simp] theorem accError_mtimecmp (source a kind size : Nat) (write : Bool) (s : State) : (accError source a kind size write s).mtimecmp = s.mtimecmp :=
  (congrArg State.mtimecmp (accError_frame source a kind size write s)).trans rfl
@[simp] theorem accError_hartStart (source a kind size : Nat) (write : Bool) (s : State) : (accError source a kind size write s).hartStart = s.hartStart :=
  (congrArg State.hartStart (accError_frame source a kind size write s)).trans rfl
@[simp] theorem accError_reserve (source a kind size : Nat) (write : Bool) (s : State) : (accError source a kind size write s).reserve = s.reserve :=
  (congrArg State.reserve (accError_frame source a kind size write s)).trans rfl
@[simp] theorem accError_l2 (source a kind size : Nat) (write : Bool) (s : State) : (accError source a kind size write s).l2 = s.l2 :=
  (congrArg State.l2 (accError_frame source a kind size write s)).trans rfl
@[simp] theorem accError_l1 (source a kind size : Nat) (write : Bool) (s : State) : (accError source a kind size write s).l1 = s.l1 :=
  (congrArg State.l1 (accError_frame source a kind size write s)).trans rfl
@[simp] theorem accError_ind (source a kind size : Nat) (write : Bool) (s : State) : (accError source a kind size write s).ind = s.ind :=
  (congrArg State.ind (accError_frame source a kind size write s)).trans rfl
@[simp] theorem accError_red (source a kind size : Nat) (write : Bool) (s : State) : (accError source a kind size write s).red = s.red :=
  (congrArg State.red (accError_frame source a kind size write s)).trans rfl
@[simp] theorem accError_mirror (source a kind size : Nat) (write : Bool) (s : State) : (accError source a kind size write s).mirror = s.mirror :=
  (congrArg State.mirror (accError_frame source a kind size write s)).trans rfl
@[simp] theorem accError_cap (source a kind size : Nat) (write : Bool) (s : State) : (accError source a kind size write s).cap = s.cap :=
  (congrArg State.cap (accError_frame source a kind size write s)).trans rfl
@[simp] theorem accError_host (source a kind size : Nat) (write : Bool) (s : State) : (accError source a kind size write s).host = s.host :=
  (congrArg State.host (accError_frame source a kind size write s)).trans rfl
@[simp] theorem accError_cmd (source a kind size : Nat) (write : Bool) (s : State) : (accError source a kind size write s).cmd = s.cmd :=
  (congrArg State.cmd (accError_frame source a kind size write s)).trans rfl
@[simp] theorem accError_jrn (source a kind size : Nat) (write : Bool) (s : State) : (accError source a kind size write s).jrn = s.jrn :=
  (congrArg State.jrn (accError_frame source a kind size write s)).trans rfl
@[simp] theorem accError_flash (source a kind size : Nat) (write : Bool) (s : State) : (accError source a kind size write s).flash = s.flash :=
  (congrArg State.flash (accError_frame source a kind size write s)).trans rfl
@[simp] theorem accError_hsl (source a kind size : Nat) (write : Bool) (s : State) : (accError source a kind size write s).hsl = s.hsl :=
  (congrArg State.hsl (accError_frame source a kind size write s)).trans rfl
@[simp] theorem accError_pre (source a kind size : Nat) (write : Bool) (s : State) : (accError source a kind size write s).pre = s.pre :=
  (congrArg State.pre (accError_frame source a kind size write s)).trans rfl
@[simp] theorem accError_chan (source a kind size : Nat) (write : Bool) (s : State) : (accError source a kind size write s).chan = s.chan :=
  (congrArg State.chan (accError_frame source a kind size write s)).trans rfl
@[simp] theorem accError_seq (source a kind size : Nat) (write : Bool) (s : State) : (accError source a kind size write s).seq = s.seq :=
  (congrArg State.seq (accError_frame source a kind size write s)).trans rfl
@[simp] theorem accError_cal (source a kind size : Nat) (write : Bool) (s : State) : (accError source a kind size write s).cal = s.cal :=
  (congrArg State.cal (accError_frame source a kind size write s)).trans rfl
@[simp] theorem accError_bas (source a kind size : Nat) (write : Bool) (s : State) : (accError source a kind size write s).bas = s.bas :=
  (congrArg State.bas (accError_frame source a kind size write s)).trans rfl
@[simp] theorem accError_acc (source a kind size : Nat) (write : Bool) (s : State) : (accError source a kind size write s).acc = s.acc :=
  (congrArg State.acc (accError_frame source a kind size write s)).trans rfl
@[simp] theorem accError_tdm (source a kind size : Nat) (write : Bool) (s : State) : (accError source a kind size write s).tdm = s.tdm :=
  (congrArg State.tdm (accError_frame source a kind size write s)).trans rfl
@[simp] theorem accError_tls (source a kind size : Nat) (write : Bool) (s : State) : (accError source a kind size write s).tls = s.tls :=
  (congrArg State.tls (accError_frame source a kind size write s)).trans rfl
@[simp] theorem accError_flashBig (source a kind size : Nat) (write : Bool) (s : State) : (accError source a kind size write s).flashBig = s.flashBig :=
  (congrArg State.flashBig (accError_frame source a kind size write s)).trans rfl
@[simp] theorem accError_otp (source a kind size : Nat) (write : Bool) (s : State) : (accError source a kind size write s).otp = s.otp :=
  (congrArg State.otp (accError_frame source a kind size write s)).trans rfl
@[simp] theorem accError_sec (source a kind size : Nat) (write : Bool) (s : State) : (accError source a kind size write s).sec = s.sec :=
  (congrArg State.sec (accError_frame source a kind size write s)).trans rfl
@[simp] theorem accError_boot (source a kind size : Nat) (write : Bool) (s : State) : (accError source a kind size write s).boot = s.boot :=
  (congrArg State.boot (accError_frame source a kind size write s)).trans rfl

/-! ### faultEvent -/

/-- Nothing changes but regs, strata, red. -/
theorem faultEvent_frame (code unit event : Nat) (s : State) :
    faultEvent code unit event s = { s with regs := (faultEvent code unit event s).regs, strata := (faultEvent code unit event s).strata, red := (faultEvent code unit event s).red } := by
  unfold faultEvent; dsimp only; rw [record_frame]; rfl

@[simp] theorem faultEvent_pending (code unit event : Nat) (s : State) : (faultEvent code unit event s).pending = s.pending :=
  (congrArg State.pending (faultEvent_frame code unit event s)).trans rfl
@[simp] theorem faultEvent_out (code unit event : Nat) (s : State) : (faultEvent code unit event s).out = s.out :=
  (congrArg State.out (faultEvent_frame code unit event s)).trans rfl
@[simp] theorem faultEvent_free (code unit event : Nat) (s : State) : (faultEvent code unit event s).free = s.free :=
  (congrArg State.free (faultEvent_frame code unit event s)).trans rfl
@[simp] theorem faultEvent_variant (code unit event : Nat) (s : State) : (faultEvent code unit event s).variant = s.variant :=
  (congrArg State.variant (faultEvent_frame code unit event s)).trans rfl
@[simp] theorem faultEvent_now (code unit event : Nat) (s : State) : (faultEvent code unit event s).now = s.now :=
  (congrArg State.now (faultEvent_frame code unit event s)).trans rfl
@[simp] theorem faultEvent_pwr (code unit event : Nat) (s : State) : (faultEvent code unit event s).pwr = s.pwr :=
  (congrArg State.pwr (faultEvent_frame code unit event s)).trans rfl
@[simp] theorem faultEvent_wall (code unit event : Nat) (s : State) : (faultEvent code unit event s).wall = s.wall :=
  (congrArg State.wall (faultEvent_frame code unit event s)).trans rfl
@[simp] theorem faultEvent_wide (code unit event : Nat) (s : State) : (faultEvent code unit event s).wide = s.wide :=
  (congrArg State.wide (faultEvent_frame code unit event s)).trans rfl
@[simp] theorem faultEvent_mem (code unit event : Nat) (s : State) : (faultEvent code unit event s).mem = s.mem :=
  (congrArg State.mem (faultEvent_frame code unit event s)).trans rfl
@[simp] theorem faultEvent_bad (code unit event : Nat) (s : State) : (faultEvent code unit event s).bad = s.bad :=
  (congrArg State.bad (faultEvent_frame code unit event s)).trans rfl
@[simp] theorem faultEvent_mtimecmp (code unit event : Nat) (s : State) : (faultEvent code unit event s).mtimecmp = s.mtimecmp :=
  (congrArg State.mtimecmp (faultEvent_frame code unit event s)).trans rfl
@[simp] theorem faultEvent_hartStart (code unit event : Nat) (s : State) : (faultEvent code unit event s).hartStart = s.hartStart :=
  (congrArg State.hartStart (faultEvent_frame code unit event s)).trans rfl
@[simp] theorem faultEvent_reserve (code unit event : Nat) (s : State) : (faultEvent code unit event s).reserve = s.reserve :=
  (congrArg State.reserve (faultEvent_frame code unit event s)).trans rfl
@[simp] theorem faultEvent_l2 (code unit event : Nat) (s : State) : (faultEvent code unit event s).l2 = s.l2 :=
  (congrArg State.l2 (faultEvent_frame code unit event s)).trans rfl
@[simp] theorem faultEvent_l1 (code unit event : Nat) (s : State) : (faultEvent code unit event s).l1 = s.l1 :=
  (congrArg State.l1 (faultEvent_frame code unit event s)).trans rfl
@[simp] theorem faultEvent_ind (code unit event : Nat) (s : State) : (faultEvent code unit event s).ind = s.ind :=
  (congrArg State.ind (faultEvent_frame code unit event s)).trans rfl
@[simp] theorem faultEvent_mirror (code unit event : Nat) (s : State) : (faultEvent code unit event s).mirror = s.mirror :=
  (congrArg State.mirror (faultEvent_frame code unit event s)).trans rfl
@[simp] theorem faultEvent_cap (code unit event : Nat) (s : State) : (faultEvent code unit event s).cap = s.cap :=
  (congrArg State.cap (faultEvent_frame code unit event s)).trans rfl
@[simp] theorem faultEvent_host (code unit event : Nat) (s : State) : (faultEvent code unit event s).host = s.host :=
  (congrArg State.host (faultEvent_frame code unit event s)).trans rfl
@[simp] theorem faultEvent_cmd (code unit event : Nat) (s : State) : (faultEvent code unit event s).cmd = s.cmd :=
  (congrArg State.cmd (faultEvent_frame code unit event s)).trans rfl
@[simp] theorem faultEvent_jrn (code unit event : Nat) (s : State) : (faultEvent code unit event s).jrn = s.jrn :=
  (congrArg State.jrn (faultEvent_frame code unit event s)).trans rfl
@[simp] theorem faultEvent_flash (code unit event : Nat) (s : State) : (faultEvent code unit event s).flash = s.flash :=
  (congrArg State.flash (faultEvent_frame code unit event s)).trans rfl
@[simp] theorem faultEvent_hsl (code unit event : Nat) (s : State) : (faultEvent code unit event s).hsl = s.hsl :=
  (congrArg State.hsl (faultEvent_frame code unit event s)).trans rfl
@[simp] theorem faultEvent_pre (code unit event : Nat) (s : State) : (faultEvent code unit event s).pre = s.pre :=
  (congrArg State.pre (faultEvent_frame code unit event s)).trans rfl
@[simp] theorem faultEvent_chan (code unit event : Nat) (s : State) : (faultEvent code unit event s).chan = s.chan :=
  (congrArg State.chan (faultEvent_frame code unit event s)).trans rfl
@[simp] theorem faultEvent_seq (code unit event : Nat) (s : State) : (faultEvent code unit event s).seq = s.seq :=
  (congrArg State.seq (faultEvent_frame code unit event s)).trans rfl
@[simp] theorem faultEvent_cal (code unit event : Nat) (s : State) : (faultEvent code unit event s).cal = s.cal :=
  (congrArg State.cal (faultEvent_frame code unit event s)).trans rfl
@[simp] theorem faultEvent_bas (code unit event : Nat) (s : State) : (faultEvent code unit event s).bas = s.bas :=
  (congrArg State.bas (faultEvent_frame code unit event s)).trans rfl
@[simp] theorem faultEvent_acc (code unit event : Nat) (s : State) : (faultEvent code unit event s).acc = s.acc :=
  (congrArg State.acc (faultEvent_frame code unit event s)).trans rfl
@[simp] theorem faultEvent_tdm (code unit event : Nat) (s : State) : (faultEvent code unit event s).tdm = s.tdm :=
  (congrArg State.tdm (faultEvent_frame code unit event s)).trans rfl
@[simp] theorem faultEvent_tls (code unit event : Nat) (s : State) : (faultEvent code unit event s).tls = s.tls :=
  (congrArg State.tls (faultEvent_frame code unit event s)).trans rfl
@[simp] theorem faultEvent_flashBig (code unit event : Nat) (s : State) : (faultEvent code unit event s).flashBig = s.flashBig :=
  (congrArg State.flashBig (faultEvent_frame code unit event s)).trans rfl
@[simp] theorem faultEvent_otp (code unit event : Nat) (s : State) : (faultEvent code unit event s).otp = s.otp :=
  (congrArg State.otp (faultEvent_frame code unit event s)).trans rfl
@[simp] theorem faultEvent_sec (code unit event : Nat) (s : State) : (faultEvent code unit event s).sec = s.sec :=
  (congrArg State.sec (faultEvent_frame code unit event s)).trans rfl
@[simp] theorem faultEvent_boot (code unit event : Nat) (s : State) : (faultEvent code unit event s).boot = s.boot :=
  (congrArg State.boot (faultEvent_frame code unit event s)).trans rfl

/-! ### addFault -/

/-- Nothing changes but regs, strata, red. -/
theorem addFault_frame (code unit : Nat) (s : State) :
    addFault code unit s = { s with regs := (addFault code unit s).regs, strata := (addFault code unit s).strata, red := (addFault code unit s).red } := by
  unfold addFault; split
  · rfl
  · rw [faultEvent_frame]

@[simp] theorem addFault_pending (code unit : Nat) (s : State) : (addFault code unit s).pending = s.pending :=
  (congrArg State.pending (addFault_frame code unit s)).trans rfl
@[simp] theorem addFault_out (code unit : Nat) (s : State) : (addFault code unit s).out = s.out :=
  (congrArg State.out (addFault_frame code unit s)).trans rfl
@[simp] theorem addFault_free (code unit : Nat) (s : State) : (addFault code unit s).free = s.free :=
  (congrArg State.free (addFault_frame code unit s)).trans rfl
@[simp] theorem addFault_variant (code unit : Nat) (s : State) : (addFault code unit s).variant = s.variant :=
  (congrArg State.variant (addFault_frame code unit s)).trans rfl
@[simp] theorem addFault_now (code unit : Nat) (s : State) : (addFault code unit s).now = s.now :=
  (congrArg State.now (addFault_frame code unit s)).trans rfl
@[simp] theorem addFault_pwr (code unit : Nat) (s : State) : (addFault code unit s).pwr = s.pwr :=
  (congrArg State.pwr (addFault_frame code unit s)).trans rfl
@[simp] theorem addFault_wall (code unit : Nat) (s : State) : (addFault code unit s).wall = s.wall :=
  (congrArg State.wall (addFault_frame code unit s)).trans rfl
@[simp] theorem addFault_wide (code unit : Nat) (s : State) : (addFault code unit s).wide = s.wide :=
  (congrArg State.wide (addFault_frame code unit s)).trans rfl
@[simp] theorem addFault_mem (code unit : Nat) (s : State) : (addFault code unit s).mem = s.mem :=
  (congrArg State.mem (addFault_frame code unit s)).trans rfl
@[simp] theorem addFault_bad (code unit : Nat) (s : State) : (addFault code unit s).bad = s.bad :=
  (congrArg State.bad (addFault_frame code unit s)).trans rfl
@[simp] theorem addFault_mtimecmp (code unit : Nat) (s : State) : (addFault code unit s).mtimecmp = s.mtimecmp :=
  (congrArg State.mtimecmp (addFault_frame code unit s)).trans rfl
@[simp] theorem addFault_hartStart (code unit : Nat) (s : State) : (addFault code unit s).hartStart = s.hartStart :=
  (congrArg State.hartStart (addFault_frame code unit s)).trans rfl
@[simp] theorem addFault_reserve (code unit : Nat) (s : State) : (addFault code unit s).reserve = s.reserve :=
  (congrArg State.reserve (addFault_frame code unit s)).trans rfl
@[simp] theorem addFault_l2 (code unit : Nat) (s : State) : (addFault code unit s).l2 = s.l2 :=
  (congrArg State.l2 (addFault_frame code unit s)).trans rfl
@[simp] theorem addFault_l1 (code unit : Nat) (s : State) : (addFault code unit s).l1 = s.l1 :=
  (congrArg State.l1 (addFault_frame code unit s)).trans rfl
@[simp] theorem addFault_ind (code unit : Nat) (s : State) : (addFault code unit s).ind = s.ind :=
  (congrArg State.ind (addFault_frame code unit s)).trans rfl
@[simp] theorem addFault_mirror (code unit : Nat) (s : State) : (addFault code unit s).mirror = s.mirror :=
  (congrArg State.mirror (addFault_frame code unit s)).trans rfl
@[simp] theorem addFault_cap (code unit : Nat) (s : State) : (addFault code unit s).cap = s.cap :=
  (congrArg State.cap (addFault_frame code unit s)).trans rfl
@[simp] theorem addFault_host (code unit : Nat) (s : State) : (addFault code unit s).host = s.host :=
  (congrArg State.host (addFault_frame code unit s)).trans rfl
@[simp] theorem addFault_cmd (code unit : Nat) (s : State) : (addFault code unit s).cmd = s.cmd :=
  (congrArg State.cmd (addFault_frame code unit s)).trans rfl
@[simp] theorem addFault_jrn (code unit : Nat) (s : State) : (addFault code unit s).jrn = s.jrn :=
  (congrArg State.jrn (addFault_frame code unit s)).trans rfl
@[simp] theorem addFault_flash (code unit : Nat) (s : State) : (addFault code unit s).flash = s.flash :=
  (congrArg State.flash (addFault_frame code unit s)).trans rfl
@[simp] theorem addFault_hsl (code unit : Nat) (s : State) : (addFault code unit s).hsl = s.hsl :=
  (congrArg State.hsl (addFault_frame code unit s)).trans rfl
@[simp] theorem addFault_pre (code unit : Nat) (s : State) : (addFault code unit s).pre = s.pre :=
  (congrArg State.pre (addFault_frame code unit s)).trans rfl
@[simp] theorem addFault_chan (code unit : Nat) (s : State) : (addFault code unit s).chan = s.chan :=
  (congrArg State.chan (addFault_frame code unit s)).trans rfl
@[simp] theorem addFault_seq (code unit : Nat) (s : State) : (addFault code unit s).seq = s.seq :=
  (congrArg State.seq (addFault_frame code unit s)).trans rfl
@[simp] theorem addFault_cal (code unit : Nat) (s : State) : (addFault code unit s).cal = s.cal :=
  (congrArg State.cal (addFault_frame code unit s)).trans rfl
@[simp] theorem addFault_bas (code unit : Nat) (s : State) : (addFault code unit s).bas = s.bas :=
  (congrArg State.bas (addFault_frame code unit s)).trans rfl
@[simp] theorem addFault_acc (code unit : Nat) (s : State) : (addFault code unit s).acc = s.acc :=
  (congrArg State.acc (addFault_frame code unit s)).trans rfl
@[simp] theorem addFault_tdm (code unit : Nat) (s : State) : (addFault code unit s).tdm = s.tdm :=
  (congrArg State.tdm (addFault_frame code unit s)).trans rfl
@[simp] theorem addFault_tls (code unit : Nat) (s : State) : (addFault code unit s).tls = s.tls :=
  (congrArg State.tls (addFault_frame code unit s)).trans rfl
@[simp] theorem addFault_flashBig (code unit : Nat) (s : State) : (addFault code unit s).flashBig = s.flashBig :=
  (congrArg State.flashBig (addFault_frame code unit s)).trans rfl
@[simp] theorem addFault_otp (code unit : Nat) (s : State) : (addFault code unit s).otp = s.otp :=
  (congrArg State.otp (addFault_frame code unit s)).trans rfl
@[simp] theorem addFault_sec (code unit : Nat) (s : State) : (addFault code unit s).sec = s.sec :=
  (congrArg State.sec (addFault_frame code unit s)).trans rfl
@[simp] theorem addFault_boot (code unit : Nat) (s : State) : (addFault code unit s).boot = s.boot :=
  (congrArg State.boot (addFault_frame code unit s)).trans rfl

/-! ### clearFault -/

/-- Nothing changes but regs, strata, red. -/
theorem clearFault_frame (code unit : Nat) (s : State) :
    clearFault code unit s = { s with regs := (clearFault code unit s).regs, strata := (clearFault code unit s).strata, red := (clearFault code unit s).red } := by
  unfold clearFault; split
  · rw [faultEvent_frame]
  · rfl

@[simp] theorem clearFault_pending (code unit : Nat) (s : State) : (clearFault code unit s).pending = s.pending :=
  (congrArg State.pending (clearFault_frame code unit s)).trans rfl
@[simp] theorem clearFault_out (code unit : Nat) (s : State) : (clearFault code unit s).out = s.out :=
  (congrArg State.out (clearFault_frame code unit s)).trans rfl
@[simp] theorem clearFault_free (code unit : Nat) (s : State) : (clearFault code unit s).free = s.free :=
  (congrArg State.free (clearFault_frame code unit s)).trans rfl
@[simp] theorem clearFault_variant (code unit : Nat) (s : State) : (clearFault code unit s).variant = s.variant :=
  (congrArg State.variant (clearFault_frame code unit s)).trans rfl
@[simp] theorem clearFault_now (code unit : Nat) (s : State) : (clearFault code unit s).now = s.now :=
  (congrArg State.now (clearFault_frame code unit s)).trans rfl
@[simp] theorem clearFault_pwr (code unit : Nat) (s : State) : (clearFault code unit s).pwr = s.pwr :=
  (congrArg State.pwr (clearFault_frame code unit s)).trans rfl
@[simp] theorem clearFault_wall (code unit : Nat) (s : State) : (clearFault code unit s).wall = s.wall :=
  (congrArg State.wall (clearFault_frame code unit s)).trans rfl
@[simp] theorem clearFault_wide (code unit : Nat) (s : State) : (clearFault code unit s).wide = s.wide :=
  (congrArg State.wide (clearFault_frame code unit s)).trans rfl
@[simp] theorem clearFault_mem (code unit : Nat) (s : State) : (clearFault code unit s).mem = s.mem :=
  (congrArg State.mem (clearFault_frame code unit s)).trans rfl
@[simp] theorem clearFault_bad (code unit : Nat) (s : State) : (clearFault code unit s).bad = s.bad :=
  (congrArg State.bad (clearFault_frame code unit s)).trans rfl
@[simp] theorem clearFault_mtimecmp (code unit : Nat) (s : State) : (clearFault code unit s).mtimecmp = s.mtimecmp :=
  (congrArg State.mtimecmp (clearFault_frame code unit s)).trans rfl
@[simp] theorem clearFault_hartStart (code unit : Nat) (s : State) : (clearFault code unit s).hartStart = s.hartStart :=
  (congrArg State.hartStart (clearFault_frame code unit s)).trans rfl
@[simp] theorem clearFault_reserve (code unit : Nat) (s : State) : (clearFault code unit s).reserve = s.reserve :=
  (congrArg State.reserve (clearFault_frame code unit s)).trans rfl
@[simp] theorem clearFault_l2 (code unit : Nat) (s : State) : (clearFault code unit s).l2 = s.l2 :=
  (congrArg State.l2 (clearFault_frame code unit s)).trans rfl
@[simp] theorem clearFault_l1 (code unit : Nat) (s : State) : (clearFault code unit s).l1 = s.l1 :=
  (congrArg State.l1 (clearFault_frame code unit s)).trans rfl
@[simp] theorem clearFault_ind (code unit : Nat) (s : State) : (clearFault code unit s).ind = s.ind :=
  (congrArg State.ind (clearFault_frame code unit s)).trans rfl
@[simp] theorem clearFault_mirror (code unit : Nat) (s : State) : (clearFault code unit s).mirror = s.mirror :=
  (congrArg State.mirror (clearFault_frame code unit s)).trans rfl
@[simp] theorem clearFault_cap (code unit : Nat) (s : State) : (clearFault code unit s).cap = s.cap :=
  (congrArg State.cap (clearFault_frame code unit s)).trans rfl
@[simp] theorem clearFault_host (code unit : Nat) (s : State) : (clearFault code unit s).host = s.host :=
  (congrArg State.host (clearFault_frame code unit s)).trans rfl
@[simp] theorem clearFault_cmd (code unit : Nat) (s : State) : (clearFault code unit s).cmd = s.cmd :=
  (congrArg State.cmd (clearFault_frame code unit s)).trans rfl
@[simp] theorem clearFault_jrn (code unit : Nat) (s : State) : (clearFault code unit s).jrn = s.jrn :=
  (congrArg State.jrn (clearFault_frame code unit s)).trans rfl
@[simp] theorem clearFault_flash (code unit : Nat) (s : State) : (clearFault code unit s).flash = s.flash :=
  (congrArg State.flash (clearFault_frame code unit s)).trans rfl
@[simp] theorem clearFault_hsl (code unit : Nat) (s : State) : (clearFault code unit s).hsl = s.hsl :=
  (congrArg State.hsl (clearFault_frame code unit s)).trans rfl
@[simp] theorem clearFault_pre (code unit : Nat) (s : State) : (clearFault code unit s).pre = s.pre :=
  (congrArg State.pre (clearFault_frame code unit s)).trans rfl
@[simp] theorem clearFault_chan (code unit : Nat) (s : State) : (clearFault code unit s).chan = s.chan :=
  (congrArg State.chan (clearFault_frame code unit s)).trans rfl
@[simp] theorem clearFault_seq (code unit : Nat) (s : State) : (clearFault code unit s).seq = s.seq :=
  (congrArg State.seq (clearFault_frame code unit s)).trans rfl
@[simp] theorem clearFault_cal (code unit : Nat) (s : State) : (clearFault code unit s).cal = s.cal :=
  (congrArg State.cal (clearFault_frame code unit s)).trans rfl
@[simp] theorem clearFault_bas (code unit : Nat) (s : State) : (clearFault code unit s).bas = s.bas :=
  (congrArg State.bas (clearFault_frame code unit s)).trans rfl
@[simp] theorem clearFault_acc (code unit : Nat) (s : State) : (clearFault code unit s).acc = s.acc :=
  (congrArg State.acc (clearFault_frame code unit s)).trans rfl
@[simp] theorem clearFault_tdm (code unit : Nat) (s : State) : (clearFault code unit s).tdm = s.tdm :=
  (congrArg State.tdm (clearFault_frame code unit s)).trans rfl
@[simp] theorem clearFault_tls (code unit : Nat) (s : State) : (clearFault code unit s).tls = s.tls :=
  (congrArg State.tls (clearFault_frame code unit s)).trans rfl
@[simp] theorem clearFault_flashBig (code unit : Nat) (s : State) : (clearFault code unit s).flashBig = s.flashBig :=
  (congrArg State.flashBig (clearFault_frame code unit s)).trans rfl
@[simp] theorem clearFault_otp (code unit : Nat) (s : State) : (clearFault code unit s).otp = s.otp :=
  (congrArg State.otp (clearFault_frame code unit s)).trans rfl
@[simp] theorem clearFault_sec (code unit : Nat) (s : State) : (clearFault code unit s).sec = s.sec :=
  (congrArg State.sec (clearFault_frame code unit s)).trans rfl
@[simp] theorem clearFault_boot (code unit : Nat) (s : State) : (clearFault code unit s).boot = s.boot :=
  (congrArg State.boot (clearFault_frame code unit s)).trans rfl

/-! ### Recording touches no register but the recorder's own counts -/

theorem reg_enqueue (src code : Nat) (args : List Nat) (s : State) (a : Nat) (h : a ≠ aStrataCount 0) :
    reg (enqueue src code args s) a = reg s a := by
  simp only [enqueue]; split
  · rfl
  · rw [incReg, incRegBy, reg_setReg_ne _ _ h]; rfl

theorem reg_makeSuppressed (src code : Nat) (s : State) (a : Nat) (h : a ≠ aStrataCount 0) :
    reg (makeSuppressed src code s) a = reg s a := by
  simp only [makeSuppressed]; split
  · rfl
  · rw [reg_congr (setBucket_regs _ _ _ _), reg_enqueue _ _ _ _ _ h]

/-- A record made changes no register but STRATA_COUNT0 and STRATA_COUNT1, the dropped and the suppressed events. -/
theorem reg_record (src code : Nat) (args : List Nat) (s : State) (a : Nat) (h0 : a ≠ aStrataCount 0)
    (h1 : a ≠ aStrataCount 1) : reg (record src code args s) a = reg s a := by
  simp only [record]; split
  · rw [reg_enqueue _ _ _ _ _ h0, reg_makeSuppressed _ _ _ _ h0]
  · split
    · rw [reg_congr (setBucket_regs _ _ _ _), reg_enqueue _ _ _ _ _ h0, reg_makeSuppressed _ _ _ _ h0]
    · rw [reg_congr (setBucket_regs _ _ _ _), incReg, incRegBy, reg_setReg_ne _ _ h1]

end Sys2Proof.Machine
end

