-- ==== Sys2Proof/Machine/Operands.lean ====
section
/-! DEFINITION. Commands' operands as the meanings read them. -/

namespace Sys2Proof.Machine

/-- An entry of a list of readings, 0 where the list is too short (log 4). -/
def reading (l : List Int) (i : Nat) : Int := l.getD i 0

end Sys2Proof.Machine
end

