-- ==== Sys2Proof/Machine/Pins.lean ====
section
/-! DEFINITION. What stands on the device's output pins: the reset state of each, and its state once its interface is enabled
(R64, R119, R127). -/

namespace Sys2Proof.Machine

/-- How a pin is driven: high or low, by its interface, at electrical idle, released (open drain), or at high impedance with its
on-die pull, if any (`some true` is a pull-up); a receiver is on, or off and terminated. -/
inductive Drive where
  | high | low | active | idle | released
  | highZ (pull : Option Bool)
  | receiverOn | receiverOff
  deriving DecidableEq, Repr

/-- The signals of R64, by actuator `n`, lane `l`, port `p` or Tandem lane `x`. -/
inductive Pin where
  | hslD (n : Nat) | hslUp (n l : Nat) | paRst (n : Nat) | paMgt (n : Nat)
  | portTx (p : Nat) | portRx (p : Nat) | tl (x : Nat) | tls
  | ddrReset | ddrCommand | ddrData
  | ospiCs | ospiReset | ospiBus
  | spiCs | spiBus | smb | i3c | uart | jtagTdo
  deriving DecidableEq, Repr

/-- The state of a pin in reset, and until its interface is enabled (R64). -/
def resetDrive : Pin → Drive
  | .hslD _ | .portTx _ | .tl _ => .idle
  | .hslUp .. | .portRx _ | .tls => .receiverOff
  | .paMgt _ | .smb => .released
  | .paRst _ | .ddrReset | .ddrCommand | .ospiReset | .ospiBus | .spiBus => .highZ (some false)
  | .ospiCs | .spiCs | .uart => .highZ (some true)
  | .ddrData | .i3c | .jtagTdo => .highZ none

/-- The state of a pin whose device is not in reset: what its interface drives once enabled; after the boot ROM has halted the
flash's pins are released to their reset state, and every other output keeps its own (R64, R119, R226, R232). -/
def liveDrive (s : State) : Pin → Drive
  | .hslD n => if (getHsl s n).dSt = 0 then .idle else .active
  | .hslUp n l => if (getLane (getHsl s n) l).st = 0 then .receiverOff else .receiverOn
  | .paRst n => if regB s (aHslCtl n) 1 then .high else if regB s (aHslCtl n) 0 then .low else resetDrive (.paRst n)
  | .paMgt n => if mgtLow s n then .low else .released
  | .portTx p => if regB s aHostCtl p then .active else .idle
  | .portRx p => if regB s aHostCtl p then .receiverOn else .receiverOff
  | .tl x => if regB s aTdmCtl x then .active else .idle
  | .tls => if regB s aTdmCtl 2 then .receiverOn else .receiverOff
  | .ddrReset => if regB s aDramCfg 7 then .high else resetDrive .ddrReset
  | .ddrCommand => if regB s aDramCfg 7 then .active else resetDrive .ddrCommand
  | .ddrData => if regB s aDramCfg 7 then .active else resetDrive .ddrData
  | .ospiReset => if s.boot.phase = .halted then resetDrive .ospiReset else .high
  | .ospiCs => if s.boot.phase = .halted then resetDrive .ospiCs else .active
  | .ospiBus => if s.boot.phase = .halted then resetDrive .ospiBus else .active
  | .spiCs => if regF s aAccCfg 0 2 = 0 then resetDrive .spiCs else .active
  | .spiBus => if regF s aAccCfg 0 2 = 0 then resetDrive .spiBus else .active
  | .smb => if s.boot.phase = .firmware then .active else .released
  | .i3c => if s.boot.phase = .firmware then .active else resetDrive .i3c
  | .uart => if s.boot.phase = .ready then resetDrive .uart else .active
  | .jtagTdo => if s.pwr.tapReset then resetDrive .jtagTdo else .active

/-- The state of a pin (R64). -/
def pinDrive (s : State) (p : Pin) : Drive := if s.pwr.phase = .reset then resetDrive p else liveDrive s p

end Sys2Proof.Machine
end

