-- ==== Sys2Proof/WellFormed.lean ====
section
/-! DEFINITION. Which commands are well formed: operands within the widths and lengths that the spec gives the things they
stand for. A meaning answers on any operands; nothing outside sends an ill-formed one (log 4). -/

namespace Sys2Proof

/-- A number of at most `n` bits. -/
def inBits (n v : Nat) : Bool := decide (v < 2 ^ n)

/-- A number that a signed field of `n` bits holds. -/
def inInt (n : Nat) (x : Int) : Bool := decide (-(2 ^ (n - 1) : Nat) ≤ x) && decide (x < (2 ^ (n - 1) : Nat))

/-- A command capsule's fields (R143). -/
def Capsule.wf (c : Capsule) : Bool :=
  inBits 8 c.opc && inBits 16 c.cid && inBits 32 c.nsid && inBits 8 c.fctype &&
  [c.cdw10, c.cdw11, c.cdw12, c.cdw13, c.cdw14, c.cdw15].all (inBits 32) && inBits 2 c.fuse

/-- The options and the window of a SYN (R134). -/
def TcpOpts.wf (o : TcpOpts) : Bool :=
  o.mss.all (inBits 16) && o.wscale.all (inBits 8) && o.tsval.all (inBits 32) && inBits 16 o.wnd

/-- A received TCP segment (R134). -/
def AckSeg.wf (a : AckSeg) : Bool :=
  inBits 32 a.ack && inBits 16 a.wnd && (a.sack.all fun b => inBits 32 b.1 && inBits 32 b.2) && a.tsval.all (inBits 32)
    && (a.data.all fun d => inBits 32 d.1)

/-- An Ethernet frame: at least its addresses and type; a pause time and a VLAN identifier of their widths (R130). -/
def EthFrame.wf (f : EthFrame) : Bool :=
  decide (14 ≤ f.bytes.length) && f.pause.all (inBits 16) && f.vlan.all (inBits 12)

/-- A format record: a layout code, actuators in order, and one entry of each list for each of them (R145, R149). -/
def Fmt.wf (f : Fmt) : Bool :=
  decide (f.layout ≤ 1) && f.acts.all (decide <| · < 4) && decide (f.acts.Pairwise (· < ·)) &&
  f.zones.length == f.acts.length && f.conv.length == f.acts.length && f.heads.all (decide <| ·.2 < 8) && f.cheads.all (decide <| ·.2 < 8) &&
  f.lbaf.all (decide <| ·.2 ≤ 1)

/-- An NVMe-MI or MCTP message (R157). -/
def MiMessage.wf (m : MiMessage) : Bool :=
  decide (m.kind ≤ 2) && inBits 8 m.opcode && inBits 32 m.dword0 && inBits 32 m.dword1 && m.admin.all Capsule.wf &&
  (m.kind != 2 || m.admin.isSome)

/-- A link frame's fields (R202). -/
def LinkFrame.wf (f : LinkFrame) : Bool :=
  inBits 32 f.header && f.payload.length == 128 && inBits 32 f.crc && inBits 16 f.aux && inBits 16 f.marker

/-- A sync search is for a slot of a track, or an entry of the buffer (R264, R370). -/
def SyncFor.wf : SyncFor → Bool
  | .read _ k | .verify _ k => decide (k < 2048)
  | .deferred e => decide (e < 4096)
  | .replay => true

/-- An accelerometer's raw axes (R314). -/
def AccRaw.wf (r : AccRaw) : Bool := inInt 16 r.x && inInt 16 r.y && inInt 16 r.z

/-- The command is well formed. -/
def Instr.wf : Instr → Bool
  | .corePowerUp .. => true
  | .thermalSample temps => temps.length == 8 && temps.all (inInt 12)
  | .wdogKick v => inBits 32 v
  | .wdogCfgWrite v => inBits 32 v
  | .softRst v => inBits 32 v
  | .mtimecmpWrite _ v => inBits 32 v
  | .l2ReadMiss _ _ a .. => inBits 40 a
  | .l2FillReturn _ a pick .. => inBits 40 a && decide (pick < 16)
  | .l2Store _ _ a bs _ => inBits 40 a && [1, 2, 4, 8].contains bs.length
  | .l2Hit _ _ a .. => inBits 40 a
  | .cboInval _ a => inBits 40 a
  | .cboClean _ a _ => inBits 40 a
  | .atomicOperation _ _ wide a v _ => inBits 40 a && inBits (if wide then 64 else 32) v
  | .dramScrub c b => c.all (inBits 34) && b.all (inBits 34)
  | .mramScrub c b => c.all (inBits 34) && b.all (inBits 34)
  | .dramCfgLock v => inBits 32 v
  | .mramRegionLock v => inBits 32 v
  | .ospiCommand v => inBits 32 v
  | .linkUp _ partner _ _ => decide (partner < 8)
  | .frameReceive _ f => f.wf
  | .syn _ _ _ mac ip p isn o => inBits 48 mac && inBits 128 ip && inBits 16 p && inBits 32 isn && o.wf
  | .tcpAck x a => inBits 10 x && a.wf
  | .retransmissionTimeout x => inBits 10 x
  | .userTimeout x => inBits 10 x
  | .delayedAck x => inBits 10 x
  | .tcpFinRst x _ => inBits 10 x
  | .icreq x pfv hpda r _ _ => inBits 10 x && inBits 16 pfv && inBits 8 hpda && inBits 32 r
  | .icreqTimeout x => inBits 10 x
  | .capsuleCmd x c _ _ => inBits 10 x && c.wf
  | .h2cData x cid tag ofs _ _ _ => inBits 10 x && inBits 16 cid && inBits 16 tag && inBits 32 ofs
  | .h2cTermReq x => inBits 10 x
  | .hostDataTimeout x tag => inBits 10 x && inBits 16 tag
  | .keepAliveExpiry i => decide (1 ≤ i) && decide (i ≤ 256)
  | .discoveryIdleClose x => inBits 10 x
  | .cdcRegistration _ task => decide (1 ≤ task) && decide (task < 4)
  | .nvmeMiMessage m => m.wf
  | .anattExpiry g => decide (1 ≤ g) && decide (g ≤ 4)
  | .shutdownComplete i => decide (1 ≤ i) && decide (i ≤ 256)
  | .deviceSelfTest r => inBits 4 r
  | .intake x => inBits 10 x
  | .recoveryComplete f allowed => f.wf && decide (allowed.length ≤ 64)
  | .powerStateEntry l => decide l.Nodup
  | .upstreamFrame _ _ f _ _ _ => f.wf
  | .downstreamFrame _ cells _ _ _ => decide (cells.length ≤ 976)
  | .paDownstreamFrame _ f _ _ => f.wf
  | .syncWindowEnd f => f.wf
  | .accelerometerPeriod r0 r1 => r0.wf && r1.wf
  | .driverStatusPeriod m => decide (m.length ≤ 4)
  | .loopTick ins => ins.length == 4
  | .fwRecord _ v => inBits 32 v
  | .verifySlot k => inBits 16 k
  | .activated k => inBits 16 k
  | .lcAdvance k _ => inBits 16 k
  | .ospiCommandEnd bs _ => decide (bs.length ≤ 65536)
  | .supplyMonitorTrip .. | .pwrFailNLow .. | .resetEntered | .restart | .referenceLoss | .referenceReturn
  | .aonXtalTimeout | .crystalStart | .thermalTripRelease | .watchdogTimeout | .rstNLow | .rstNRelease | .pllsLocked
  | .jtagTrst .. | .coreRun .. | .isolate .. | .machineTimerInterrupt .. | .l2Disable .. | .l2Enable ..
  | .registerWrite .. | .counterLowRead .. | .indAddrWrite .. | .indDataRead .. | .indDataWrite .. | .indTimeout ..
  | .busTimeout .. | .bootSequence .. | .flashTimeout .. | .bootRetry | .ospiDataRead .. | .ospiDataWrite ..
  | .headDiscovery .. | .linkDown .. | .portFailed .. | .slowPathTransmit .. | .connect | .cdcRetry ..
  | .portEnable .. | .portDisable .. | .addressEntryClear .. | .propertyGet | .propertySet | .controllerReset
  | .shutdown | .disconnect | .identify | .getLogPage | .discoveryLog | .strataWindowLog | .captureIndexLog
  | .captureStreamLog | .replayOutputLog | .setFeatures | .powerManagement | .keepAliveTimer | .setTimestamp
  | .getFeatures | .getTimestamp | .keepAlive | .asynchronousEventRequest | .abort | .firmwareImageDownload
  | .fwCommitStore | .fwCommitStoreTrial | .fwCommitTrial | .fwCommitActivate | .secSendNonce | .secSendKeyMgmt
  | .secSendToken | .secRecvProtocols | .secRecvReport | .secRecvCertificate | .secRecvChallenge | .formatNvm
  | .formatTakesEffect .. | .read | .write | .flush | .flushComplete .. | .writeZeroes | .verify | .zoneAppend
  | .zoneClose | .zoneFinish | .zoneOpen | .zoneReset | .zoneOffline | .setZoneDescriptorExt | .zoneManagementReceive
  | .journalReservation | .readSourceChoice .. | .pause .. | .pauseExpiry | .safePoint | .powerStateExit
  | .schedulerDispatch .. | .ageBoundExceeded .. | .patrolPass .. | .paRequest .. | .controlRequest ..
  | .controlReply .. | .controlResend .. | .controlGiveUp .. | .paStatus .. | .paSense .. | .laneAcquired ..
  | .laneUp .. | .laneLost .. | .laneFailed .. | .hslEn .. | .paRun .. | .mgtSafe .. | .rxEn .. | .paFaultN ..
  | .decoderGrant | .positionRecord .. | .sampleMemoryTimeout .. | .verifyTimeout .. | .deferredDecodeTimeout ..
  | .ddbRdAdvance .. | .ddbCfgWrite .. | .accelInt .. | .shockHoldEnd | .shockEn .. | .deadlineCutoff .. | .wedgeComputation .. | .globalIterationEnd ..
  | .parkedCommand .. | .manualCommand .. | .seekCommand .. | .spindleFrame .. | .freeRunningFrame ..
  | .statusFrame .. | .driverFrame .. | .driverFrameTimeout .. | .basCfgLock .. | .heaterRecordTimeout .. | .tDUpdate
  | .i3cSensorRead .. | .i3cEn .. | .calCommit .. | .commitCheckDone | .calExchange .. | .calTripClr .. | .mwNop ..
  | .mwLdi .. | .mwLdhi .. | .mwMov .. | .mwAddi .. | .mwAdd .. | .mwSub .. | .mwAnd .. | .mwOr .. | .mwCmp ..
  | .mwCmpi .. | .mwBrt .. | .mwBrf .. | .mwCall .. | .mwRet .. | .mwLdf .. | .mwTmr .. | .mwClr .. | .mwSelhd ..
  | .mwLdsect .. | .mwArmf .. | .mwPopres .. | .mwRev .. | .mwRdback .. | .mwSlot .. | .mwSetsect .. | .mwSignal ..
  | .mwDone .. | .mwFetch .. | .seqTimerExpiry .. | .fragmentBegun .. | .sectPassed .. | .opLimitExpiry .. | .seqEn ..
  | .stop .. | .patchLoad .. | .patchLoadComplete .. | .bankSwitchRequest .. | .bankSwitch .. | .csSnapshot ..
  | .islandRailFault .. | .islandClockFault .. | .crosslinkFrame .. | .goldenCheckDone .. | .periodicGoldenCheck ..
  | .failIsland .. | .rejoinIsland .. | .autoRejoin .. | .rejoining .. | .rejoinCopyDone .. | .shadowComplete ..
  | .crosslinkDown | .crosslinkFailback | .heartbeat .. | .heartbeatTimeout .. | .service .. | .standby .. | .off ..
  | .clusterFail .. | .retest .. | .selfTestTimeout .. | .tandemLaneFailback .. | .statusLaneFault
  | .decoderGoldenDecode .. | .recorderTake | .mirrorCopy .. | .suppressed .. | .snap | .wset | .sramScrub ..
  | .retestStrata | .retestStrataDone .. | .captureEnable .. | .fire | .captureFrozen .. | .rearm .. | .branchSyncItem
  | .laneReplay .. | .servoReplay .. | .replayDone .. | .replayAck | .signReport | .keyMgmt .. | .svnRaise ..
  | .debugUnlock | .genIdentity .. | .challenge | .secCommandDone | .identityDerivation | .debugModuleAccess ..
  | .statusLaneFailback | .coefficientMemoryScrub .. | .receivedPauseExpiry .. | .correctableRateFailback ..
  | .elementCheckComplete .. | .basCtlEn .. | .tandemLaneEnable .. => true

end Sys2Proof
end

