-- ==== Sys2Proof/Tests/Slice0.lean ====
section
/-! SUPPORT. Tests: an ill-formed command for each check of WellFormed, words and codes that the spec gives, and for each
statement a state and operands that meet its hypotheses, clause by clause, with what one step then shows. -/

namespace Sys2Proof.Tests

set_option Elab.async false

open Sys2Proof.Machine

/-- The state after one command. -/
def after (i : Instr) (s : State) : State := match exec i s with | .next t => t | _ => s

/-- The state after reset. -/
abbrev s0 : State := State.reset


/-! ### Ill-formed operands are refused -/

def okCap : Capsule := { opc := 2, cid := 1 }
def okFrame : LinkFrame := { header := 0, payload := zeros 128, crc := 0, marker := 0 }
def okFmt : Fmt := { acts := [0, 1], zones := [1, 1], conv := [0, 0] }

theorem test_wf_values : [Instr.wdogKick (2 ^ 32), .wdogCfgWrite (2 ^ 32), .softRst (2 ^ 32), .mtimecmpWrite 0 (2 ^ 32),
    .dramCfgLock (2 ^ 32), .mramRegionLock (2 ^ 32), .ospiCommand (2 ^ 32), .fwRecord 0 (2 ^ 32)].all (!·.wf) = true := by
  decide +kernel
theorem test_wf_addresses : [Instr.l2ReadMiss 0 0 (2 ^ 40) 2 false none .good,
    .l2FillReturn 0 (2 ^ 40) 0 none .good, .l2FillReturn 0 0 16 none .good,
    .l2Store 0 0 (2 ^ 40) [0] .good, .l2Store 0 0 0 [0, 0, 0] .good, .l2Hit 0 0 (2 ^ 40) 2 false .good .good none, .cboInval 0 (2 ^ 40),
    .cboClean 0 (2 ^ 40) .cboClean, .atomicOperation 0 .add true (2 ^ 40) 0 .good, .atomicOperation 0 .add false 0 (2 ^ 32) .good,
    .dramScrub [2 ^ 34] [], .mramScrub [] [2 ^ 34], .ospiCommandEnd (zeros 65537) .none].all (!·.wf) = true := by decide +kernel
theorem test_wf_lists : [Instr.thermalSample [0], .thermalSample [0, 0, 0, 0, 0, 0, 0, 2048],
    .powerStateEntry [1, 1], .downstreamFrame 0 (List.replicate 977 (.gap true)) true 0 0, .syncWindowEnd (.read 0 2048), .syncWindowEnd (.verify 0 2048),
    .syncWindowEnd (.deferred 4096), .loopTick [],
    .driverStatusPeriod (List.replicate 5 ⟨0, 0, 0, true⟩)].all (!·.wf) = true := by decide +kernel
theorem test_wf_host : [Instr.linkUp 0 8 false false, .syn 0 0 false (2 ^ 48) 0 0 0 {}, .syn 0 0 false 0 (2 ^ 128) 0 0 {},
    .syn 0 0 false 0 0 65536 0 {}, .syn 0 0 false 0 0 0 (2 ^ 32) {}, .syn 0 0 false 0 0 0 0 { mss := some 65536 },
    .syn 0 0 false 0 0 0 0 { wscale := some 256 }, .syn 0 0 false 0 0 0 0 { tsval := some (2 ^ 32) }, .syn 0 0 false 0 0 0 0 { wnd := 65536 },
    .tcpAck 1024 { ack := 0 }, .tcpAck 0 { ack := 2 ^ 32 }, .tcpAck 0 { ack := 0, wnd := 65536 }, .tcpAck 0 { ack := 0, sack := [(0, 2 ^ 32)] },
    .tcpAck 0 { ack := 0, tsval := some (2 ^ 32) }, .tcpAck 0 { ack := 0, data := some (2 ^ 32, 1) }, .retransmissionTimeout 1024,
    .userTimeout 1024, .delayedAck 1024, .tcpFinRst 1024 true, .icreq 0 65536 0 0 false false, .icreq 0 0 256 0 false false,
    .icreq 0 0 0 (2 ^ 32) false false, .icreq 1024 0 0 0 false false, .icreqTimeout 1024, .capsuleCmd 1024 okCap true true,
    .h2cData 1024 0 0 0 [] true true, .h2cData 0 65536 0 0 [] true true,
    .h2cData 0 0 65536 0 [] true true, .h2cData 0 0 0 (2 ^ 32) [] true true, .h2cTermReq 1024, .hostDataTimeout 1024 0, .hostDataTimeout 0 65536, .keepAliveExpiry 0,
    .keepAliveExpiry 257, .shutdownComplete 0, .discoveryIdleClose 1024, .cdcRegistration 0 0, .cdcRegistration 0 4, .anattExpiry 0, .anattExpiry 5,
    .deviceSelfTest 16, .intake 1024].all (!·.wf) = true := by decide +kernel
theorem test_wf_capsules : [{ okCap with opc := 256 }, { okCap with cid := 65536 }, { okCap with nsid := 2 ^ 32 },
    { okCap with fctype := 256 }, { okCap with cdw10 := 2 ^ 32 }, { okCap with cdw15 := 2 ^ 32 }, { okCap with fuse := 4 }].all
      (fun c => !(Instr.capsuleCmd 0 c true true).wf) = true := by decide +kernel
theorem test_wf_frames : (Instr.frameReceive 0 { bytes := zeros 13 }).wf = false ∧
    (Instr.frameReceive 0 { bytes := zeros 14, pause := some 65536 }).wf = false ∧
    (Instr.frameReceive 0 { bytes := zeros 14, vlan := some 4096 }).wf = false ∧
    [{ okFrame with header := 2 ^ 32 }, { okFrame with payload := [] }, { okFrame with crc := 2 ^ 32 }, { okFrame with aux := 65536 },
      { okFrame with marker := 65536 }].all (fun f => !(Instr.upstreamFrame 0 0 f 0 0 0).wf && !(Instr.paDownstreamFrame 0 f 0 true).wf) = true := by
  decide +kernel
theorem test_wf_messages : [{ kind := 3, opcode := 0 }, { kind := 0, opcode := 256 }, { kind := 0, opcode := 0, dword0 := 2 ^ 32 },
    { kind := 0, opcode := 0, dword1 := 2 ^ 32 }, { kind := 2, opcode := 0 },
    { kind := 2, opcode := 0, admin := some { okCap with opc := 256 } }].all
      (fun m => !(Instr.nvmeMiMessage m).wf) = true := by decide +kernel
theorem test_wf_format : okFmt.wf = true ∧ [{ okFmt with layout := 2 }, { okFmt with acts := [0, 4] }, { okFmt with acts := [1, 0] },
    { okFmt with zones := [1] }, { okFmt with conv := [] }, { okFmt with heads := [(0, 8)] }, { okFmt with lbaf := [(1, 2)] }].all
      (fun f => !(Instr.recoveryComplete f []).wf) = true ∧
    (Instr.recoveryComplete okFmt (List.replicate 65 0)).wf = false := by decide +kernel
theorem test_wf_servo : [AccRaw.mk 32768 0 0, .mk 0 32768 0, .mk 0 0 (-32769)].all (fun r =>
    !(Instr.accelerometerPeriod r ⟨0, 0, 0⟩).wf && !(Instr.accelerometerPeriod ⟨0, 0, 0⟩ r).wf) = true := by decide +kernel
theorem test_wf_security : [Instr.verifySlot 65536, .activated 65536, .lcAdvance 65536 true].all (!·.wf) = true := by decide +kernel
theorem test_wf_good : [Instr.wdogKick 0x6B1D, .thermalSample (List.replicate 8 100), .l2Store 0 0 0x1000000000 [1, 2] .good,
    .capsuleCmd 0 okCap true true, .upstreamFrame 0 0 okFrame 0 0 0, .recoveryComplete okFmt [1], .loopTick (List.replicate 4 {}), .read].all
      Instr.wf = true := by decide +kernel
theorem test_no_word_spells_a_command : decodeTableWord 16 0 = none ∧ s0.withFetchWord 16 0 = s0 := ⟨rfl, rfl⟩

/-! ### Words and values the spec works out -/

def ascii9 : List Byte := [0x31, 0x32, 0x33, 0x34, 0x35, 0x36, 0x37, 0x38, 0x39]

/-- The check values of R330 and of R439. -/
theorem test_crc_check_values : crc16 ascii9 = 0x29B1 ∧ crc64xz ascii9 = 0x995DC9BBDF1939FA := by decide +kernel
/-- The formats chapter's Q2.14 example. -/
theorem test_q2_14 : sgn 16 0x6000 = 24576 ∧ sgn 16 0xA000 = -24576 ∧ sgn 16 0x8000 = -32768 ∧ unsgn 16 (-24576) = 0xA000 := by decide
/-- R103: SYS_ID of both variants. -/
theorem test_sys_id : sysId s0 = 0x4120F1B0 ∧ sysId { s0 with variant := .bf } = 0x412032B0 := by decide +kernel
/-- R66: of coincident causes the first of the list is recorded. -/
theorem test_cause_order : causeOf (2 ^ cWdog + 2 ^ cThermal) = 2 ^ cThermal ∧ causeOf (2 ^ cPor + 2 ^ cMonitor) = 2 ^ cPor := by decide +kernel

def limRun (l : Lim) : Nat → Lim
  | 0 => l
  | k + 1 => limRun (limStep ⟨-32768, 32767, 64, 16⟩ l) k
/-- R320: the reversal in mid-ramp, as the servo chapter tables it. -/
theorem test_limiter_reversal :
    let a := limRun { t := 1638 } 9
    (limRun { t := 1638 } 4).x = 160 ∧ a.x = 480 ∧ a.v = 64 ∧ (limRun { a with t := -819 } 4).x = 576 ∧
    (limRun { a with t := -819 } 8).x = 416 ∧ (limRun { a with t := -819 } 26).x = -736 ∧
    (limRun { a with t := -819 } 27).x = -787 ∧ limRun { a with t := -819 } 28 = { x := -819, v := 0, t := -819 } := by
  decide +kernel
/-- R322: the hand-over that disagrees; `rest` 0.02, v_prev 0.12, I_MAX 0.08 in Q8.24. -/
theorem test_handover :
    let c := lawPreset (fun o => if o = 0x08 then 1342177 else 0) 335544 { a := { vPre := 2013266 } }
    c.a.i = 1342177 ∧ c.a.dv = 335545 ∧ c.xfer = true ∧ 335544 + c.a.i + c.a.dv = 2013266 := by decide +kernel
/-- R278: the precompensation example. -/
theorem test_precompensation : symbolsOf 0x42413130 false [true, true, true]
    [(true, true), (true, true), (false, true), (true, true), (true, true), (true, true), (false, true)] = [3, 3, 6, 15, 3, 3, 2] := by decide +kernel
def tpt4 (k : Nat) : Int := ([2560, 6400, 10240, 14080].getD k 0 : Nat)
def ends2 (a b : Nat) (k : Nat) : Int := if k = 1 then a else if k = 2 then b else 0
/-- R358: the temperature-drift example, at 31.75 °C and 31.50 °C. -/
theorem test_interpolation :
    interp 4 8128 tpt4 (ends2 12288 11136) = 11770 ∧ interp 4 8064 tpt4 (ends2 12288 11136) = 11789 ∧
    interp 4 8128 tpt4 (ends2 15872 14208) = 15123 ∧ interp 4 8064 tpt4 (ends2 15872 14208) = 15151 ∧
    interp 4 8128 tpt4 (ends2 11520 11296) = 11419 ∧ interp 4 8064 tpt4 (ends2 11520 11296) = 11423 ∧
    interp 4 8128 tpt4 (ends2 7296 7488) = 7382 ∧ interp 4 8064 tpt4 (ends2 7296 7488) = 7379 := by decide +kernel
/-- R221: the read of PA_HEADS, its request and its reply. -/
theorem test_pa_heads : reqMsg 1 5 2 0 = 0x429 ∧ auxUnits 0x429 = [0x4429, 0x8000, 0x8000, 0x8000] ∧
    reqMsg 1 5 0 0x15 = 0xA80029 ∧ auxUnits 0xA80029 = [0x4029, 0x82A0, 0x8000, 0x8000] := by decide +kernel
/-- R247: three marks at −3, 0 and +5 of distances 2, 5 and 6; and a missed mark with TIMED. -/
theorem test_sync_candidates :
    (formCands 6 6 3 true [[9, 9, 9, 2, 9, 9, 5, 9, 9, 9, 9, 6, 9]]).map (fun c => (c.offs, c.timed)) = [([-3], false), ([0], false), ([5], false)] ∧
    (formCands 6 6 3 true [List.replicate 13 9]).map (fun c => (c.offs, c.timed)) = [([0], true)] ∧
    (formCands 6 6 3 false [List.replicate 13 9]) = [] := by decide +kernel
/-- R377: the word at 0x0911 of the split-sector program. -/
theorem test_microword : wordBits 0x04 { opd := ⟨0x23FFF, by decide⟩, cond := 0, next := ⟨0x912, by decide⟩, wait := 0 } = 0x1000_47FF_E912 := by decide +kernel
/-- R379: every word of the split-sector program is well encoded. -/
theorem test_split_sector_words : [0x3D3C0000E901, 0x0C0040000902, 0x4C0000000903, 0x2C6801208905, 0x340001220905, 0x514400000906,
    0x2C4801206907, 0x100003FFE908, 0x2C8401204909, 0x28000400090A, 0x2C800121890B, 0x356801220909, 0x6C0000000800, 0x540080000911,
    0x100047FFE912, 0x380000000000].all wordGood = true := by decide +kernel

/-! ### Witnesses: the queue, power and reset, clusters -/

theorem wit_StepRunsTheFrontCommand :
    let s := { s0 with pending := [.crystalStart, .read] }
    s.pending = .crystalStart :: [.read] ∧ s0.pending = [] ∧ s0.pwr.refOk = true ∧
    { s0 with pwr := { s0.pwr with refOk := false } }.pwr.refOk = false := by decide +kernel
theorem wit_step_idles : step s0 = .next { s0 with now := 10 } := rfl

/-- A device that PWR_FAIL_N has sent into the power-fail sequence, and then into reset. -/
abbrev sQuiesce : State := after (.pwrFailNLow true true) s0
abbrev sReset : State := after .resetEntered sQuiesce
theorem wit_ResetHoldsEveryOtherCommand : sReset.pwr.phase = .reset ∧ actsInReset (.heartbeat 0) = false ∧
    sReset.pwr.holding = 2 ^ cPwrfail ∧ sQuiesce.pwr.phase = .quiescing := by decide +kernel
theorem wit_SysIdAndTimebaseInvariants : viewReg s0 aSysId = 0x4120F1B0 ∧
    viewReg { s0 with now := 10 } aSysId = 0x4120F1B0 := by decide +kernel

/-- The watchdog runs. -/
abbrev sDog : State := after (.wdogCfgWrite 0x107D0) s0
theorem wit_PinsAndWatchdogFollowTheirRules : Awake s0 ∧ s0.pwr.xtalOk = true ∧ (after .aonXtalTimeout s0).pwr.xtalOk = false ∧
    s0.pwr.pllLocked = false ∧ (after .pllsLocked s0).pwr.pllLocked = true ∧ 0x6B1D % 65536 = 0x6B1D ∧ (7 : Nat) % 65536 ≠ 0x6B1D ∧
    regB s0 aWdogCfg 16 = false ∧ (0x10064 : Nat) / 65536 % 2 = 1 ∧ 100 ≤ (0x10064 : Nat) % 65536 ∧
    0x12710 % 65536 ≤ 10000 ∧ (after (.wdogCfgWrite 0x12710) s0).pwr.wdogTimeout = 10000 ∧
    Awake sDog ∧ regB sDog aWdogCfg 16 = true ∧ (0x7D0 : Nat) / 65536 % 2 = 0 ∧
    reg (after (.wdogCfgWrite 0x7D0) sDog) aLockViol = 1 ∧ regB (after (.wdogCfgWrite 0x7D0) sDog) aWdogCfg 16 = true := by decide +kernel
/-- Eight sensors, of which the last reads `x` and every other 0; and their hottest. -/
def temps8 (x : Int) : List Int := [0, 0, 0, 0, 0, 0, 0, x]
theorem wit_hottest : Hottest (temps8 540) 540 7 := by
  refine ⟨rfl, rfl, fun j y h => ?_⟩
  match j, h with
  | 0, h | 1, h | 2, h | 3, h | 4, h | 5, h | 6, h | 7, h => (simp [temps8] at h; omega)
theorem wit_QuiescingSourcesAndThermalThresholds : s0.pwr.phase = .running ∧ Awake s0 ∧
    regB sDog aWdogCfg 16 = true ∧ sDog.pwr.phase = .running ∧ (after .watchdogTimeout sDog).pwr.recognized = 2 ^ cWdog ∧
    (after (.thermalSample (temps8 540)) s0).pwr.phase = .quiescing ∧ (after (.thermalSample (temps8 539)) s0).pwr.phase = .running ∧
    (after (.thermalSample (temps8 460)) s0).pwr.warn = true ∧ (after (.thermalSample (temps8 459)) s0).pwr.warn = false ∧
    (after (.thermalSample (temps8 452)) (after (.thermalSample (temps8 460)) s0)).pwr.warn = true ∧
    (after (.thermalSample (temps8 451)) (after (.thermalSample (temps8 460)) s0)).pwr.warn = false ∧
    (after (.supplyMonitorTrip 2) s0).pwr.recognized = 2 ^ cMonitor ∧ (after .referenceLoss s0).pwr.recognized = 2 ^ cRefloss ∧
    (0x15A : Nat) / 256 % 2 = 1 ∧ (0x15A : Nat) % 256 = 0x5A ∧ sQuiesce.strata.stopped = true ∧
    (getHsl sQuiesce 3).failPull = true ∧ sQuiesce.pwr.recognized = 2 ^ cPwrfail := by decide +kernel
theorem wit_SoftResetNeedsItsKey : Awake s0 ∧ (after (.softRst 0x15A) s0).pwr.phase = .quiescing ∧ (0x15B : Nat) / 256 % 2 = 1 ∧
    (0x15B : Nat) % 256 ≠ 0x5A ∧ (after (.softRst 0x15B) s0).pwr.phase = .running ∧ (0x5A : Nat) / 256 % 2 = 0 := by decide +kernel
/-- Devices held in reset by one cause. -/
def held (c : Nat) : State := { s0 with pwr := { s0.pwr with phase := .reset, holding := 2 ^ c }, strata := {} }
theorem wit_ResetIsEnteredAndLeft : sQuiesce.pwr.phase = .quiescing ∧ sReset.pwr.resetCount = 1 ∧ sReset.pwr.cause = 2 ^ cPwrfail ∧
    s0.pwr.phase = .running ∧ (after .rstNLow s0).pwr.cause = 2 ^ cPin ∧
    sReset.pwr.phase = .reset ∧ sReset.strata = {} ∧ sReset.otp.lc ≠ 3 ∧ sReset.otp.bad = [] ∧ (after .restart sReset).pwr.phase = .running ∧
    (∀ c, c < 8 → (held c).pwr.phase = .reset ∧ (held c).strata = {} ∧ (held c).otp.lc ≠ 3 ∧ (held c).otp.bad = [] ∧ (held c).pwr.holding = 2 ^ c) ∧
    (after (.corePowerUp [] [] 0x7F) sQuiesce).pwr.holding = 2 ^ cPin ∧ (after (.corePowerUp [] [] 0) s0).pwr.refOk = false ∧
    sgn 12 (held cThermal).pwr.aonTmax < 440 ∧ 440 ≤ sgn 12 { (held cThermal).pwr with aonTmax := 440 }.aonTmax ∧
    (after .referenceReturn (held cRefloss)).pwr.phase = .running ∧ (after .thermalTripRelease (held cThermal)).pwr.phase = .running ∧
    (after .rstNRelease (held cPin)).pwr.phase = .running ∧ (after .restart (held cPin)).pwr.phase = .reset := by decide +kernel

/-- Cluster `c` in a state. -/
def cluIn (c st : Nat) (s : State) : State := setClu c { getClu s c with st := st } s
/-- A cluster whose heartbeat is late. -/
def late (s : State) : State := { s with now := 2000000000000 }
theorem wit_HartsFencesAndTimers : Awake s0 ∧ (getClu s0 7).st ≠ 6 ∧ getHart (after (.coreRun 7 7 true) s0) 63 = some 0 ∧
    (getClu (cluIn 7 6 s0) 7).st = 6 ∧ getHart (after (.coreRun 7 7 true) (cluIn 7 6 s0)) 63 = none ∧
    getCmp (after (.mtimecmpWrite 63 5) s0) 63 = 5 * 2 ^ 32 + 0xFFFFFFFF ∧
    getCmp (setCmp 0 0 s0) 0 ≤ s0.now ∧ (getHart (setCmp 0 0 s0) 0).isSome = true ∧ isolated (setCmp 0 0 s0) 0 = false ∧
    (after (.machineTimerInterrupt 0) (setCmp 0 0 s0)).out = [.timer 0] ∧ s0.now < getCmp s0 1 ∧ externalPending s0 1 = false ∧
    isolated (after (.isolate 0 true) s0) 0 = true := by decide +kernel
theorem wit_ClustersMoveFailAndAreTakenOver : Awake s0 ∧ (getClu s0 (0 / 8)).st ≠ 5 ∧ fenced s0 0 aRedCluCmd = false ∧
    (getClu s0 0).st = 1 ∧ (getClu (after (.off 0 0) s0) 0).st = 0 ∧
    (getClu s0 7).st = 0 ∧ (getClu (after (.service 0 7) s0) 7).st = 1 ∧
    standbyOf s0 = none ∧ (getClu (after (.standby 0 7) s0) 7).st = 2 ∧ standbyOf (cluIn 7 2 s0) = some 7 ∧
    (getClu (after (.standby 0 6) (cluIn 7 2 s0)) 6).st = 0 ∧
    (getClu (cluIn 7 6 s0) 7).st = 6 ∧ fenced (cluIn 7 6 s0) 0 aRedCluCmd = false ∧ (getClu (after (.retest 0 7) (cluIn 7 6 s0)) 7).st = 5 ∧
    getHart (after (.retest 0 7) (cluIn 7 6 s0)) 56 = some 0x8000 ∧
    s0.pwr.phase = .running ∧ beats (getClu s0 0).st = true ∧ isolated s0 0 = false ∧
    (getClu (cluIn 7 2 s0) 0).fails = [] ∧
    heartbeatLate (late (cluIn 7 2 s0)) 0 = true ∧ heartbeatLate s0 0 = false ∧
    (let t := after (.heartbeatTimeout 0) (late (cluIn 7 2 s0))
     (getClu t 0).st = 5 ∧ (getClu t 7).st = 3 ∧ t.red.takeover = some { failed := 0, taker := 7, since := 2000000000000 } ∧ reg t (aIrqRoute 80) = 120) ∧
    (getClu (cluIn 7 2 s0) 7).fails = [] ∧ (getClu (after (.clusterFail 0 7) (cluIn 7 2 s0)) 7).st = 5 ∧
    beats (getClu s0 7).st = false ∧ (getClu (cluIn 7 5 s0) 7).st = 5 ∧ (getClu (after (.selfTestTimeout 7) (cluIn 7 5 s0)) 7).st = 6 := by
  decide +kernel

/-! ### Witnesses: memory and caches -/

/-- DRAM in service, the smallest capacity. -/
abbrev sDram : State := after (.dramCfgLock 0x85) s0
theorem wit_EngineStoresReachMemory : Awake sDram ∧
    (∀ a ∈ [0x1000000000, dramAlias + 8, dramBase + dramUsable sDram - 64], storeRefused sDram (8 * 7 + 7) a = none ∧ regionOf sDram a ≠ .io ∧
      pmpFault sDram (8 * 7 + 7) a 2 pmpW = false) ∧
    (let t := after (.l2Store 7 7 (dramAlias + 8) [1, 2] .good) sDram
     memBytes t (dramBase + 7) 4 = [0, 1, 2, 0] ∧ t.mem.length = 2) ∧
    storeRefused s0 0 0 = some errReadOnly ∧ storeRefused sDram 0 (dramBase + dramUsable sDram) = some errUnmapped ∧
    getRes (after (.l2Store 0 0 dramBase [1] .good) (setRes 5 (some (dramBase / 64)) sDram)) 5 = none := by decide +kernel

/-- A word in DRAM, with a reservation of hart 63 on it. -/
abbrev sRes : State := setRes 63 (some (dramBase / 64)) (memWrite dramBase [5, 0, 0, 0, 1] sDram)
theorem wit_AtomicsReadModifyWrite : Awake sRes ∧ atomicRefused sRes 63 (dramAlias + 4) false = none ∧ (dramAlias + 4) % 4 = 0 ∧
    (dramAlias + 8) % 8 = 0 ∧ isBad sRes (homeAddr sRes (dramAlias + 4) / 64) = false ∧
    pmpFault sRes 63 (dramAlias + 4) 4 pmpR = false ∧ pmpFault sRes 63 (dramAlias + 4) 4 pmpW = false ∧ AmoOp.add ≠ .lr ∧ AmoOp.add ≠ .sc ∧
    (let t := after (.atomicOperation 63 .add false dramBase 3 .good) sRes
     t.out = [.atomic 63 5] ∧ memBytes t dramBase 5 = [8, 0, 0, 0, 1]) ∧
    getRes sRes 63 = some (homeAddr sRes dramBase / 64) ∧
    (let t := after (.atomicOperation 63 .sc true dramBase 9 .good) sRes
     t.out = [.atomic 63 0] ∧ memBytes t dramBase 5 = [9, 0, 0, 0, 0] ∧ getRes t 63 = none) ∧
    getRes sDram 63 ≠ some (homeAddr sDram dramBase / 64) ∧
    (after (.atomicOperation 63 .sc true dramBase 9 .good) sDram).out = [.atomic 63 1] := by decide +kernel

/-- The L2 of cluster 7 is on; a miss of requester 15 is in flight; its line is in the cache. -/
abbrev sL2 : State := after (.l2Enable 7) sDram
abbrev sMiss : State := after (.l2ReadMiss 7 15 dramBase 3 false none .good) sL2
abbrev sHit : State := after (.l2FillReturn 7 dramBase 0 none .good) sMiss
theorem wit_CachesBringMemory : Awake sL2 ∧ pmpFault sL2 (hartOf 7 15) dramBase (2 ^ 3) (readKind 15) = false ∧ readRefused sL2 7 15 dramBase = none ∧ cacheable sL2 dramBase = true ∧
    l2Find sL2 7 (dramBase / 64) = none ∧ missing (getL2 sL2 7) 15 = false ∧ (getL2 sL2 7).fills = [] ∧
    isBad sL2 (homeAddr sL2 (dramBase / 64 * 64) / 64) = false ∧
    l2On sMiss 7 = true ∧ fillWays sMiss 7 15 ≠ [] ∧ (getL2 sMiss 7).waits = [] ∧
    (getL2 sMiss 7).fills = [{ line := dramBase / 64, first := { req := 15, addr := dramBase, size := 3 }, merged := [], data := zeros 64, noAlloc := false, bad := false }] ∧
    readRefused sHit 7 15 dramBase = none ∧ (l2Find sHit 7 (dramBase / 64)).map (·.data) = some (zeros 64) ∧
    (after (.l2Hit 7 15 dramBase 3 false .good .good none) sHit).out.head? = some (.line 7 15 (dramBase / 64) (zeros 64)) ∧
    l2Find (after (.cboInval 7 dramBase) sHit) 7 (dramBase / 64) = none ∧ (getL2 (after (.l2Disable 7) sHit) 7).lines = [] ∧
    regB (after (.l2Disable 7) sHit) (aL2Ctl 7) 1 = false ∧ FenceOp.cboClean ≠ .fenceI ∧
    (after (.cboClean 1 0 .cboClean) { s0 with unfenced := [(0, mramBase, [1]), (1, mramBase, [1])] }).unfenced = [(0, mramBase, [1])] ∧
    regionOf s0 (0x08000000 / 64 * 64) = .flash ∧ { s0.boot with busy := true }.busy = true := by decide +kernel

/-- The recorder's mirror stands in the MRAM; a correctable-rate fault is present. -/
abbrev sMirror : State := { s0 with mirror := { good := true, life := 6, epoch := 255 } }
abbrev sRate : State := { s0 with red := { s0.red with faults := [(0x42, 0)] } }
theorem wit_ScrubsAndMemoryLocks : Awake sDram ∧ 0 < dramUsable sDram ∧ sDram.bad = [] ∧ sDram.red.dramCe = [] ∧
    dramBase ≤ (dramBase / 64) * 64 ∧ (dramBase / 64) * 64 + 64 ≤ dramBase + dramUsable sDram ∧
    wide (after (.dramScrub [dramBase / 64] []) sDram) aDramCeLo = 1 ∧
    s0.red.mramCe = [] ∧ (mramBase / 64 + 0xFFFFFF) * 64 + 64 ≤ mramBase + 0x40000000 ∧
    reg (after (.mramScrub [] [mramBase / 64 + 0xFFFFFF]) s0) aMramUe = 1 ∧
    sRate.red.dramCe = [] ∧ faultPresent sRate 0x42 0 = true ∧ faultPresent (after (.correctableRateFailback false) sRate) 0x42 0 = false ∧
    regB s0 aDramCfg 7 = false ∧ 1 ≤ 0x85 % 4 ∧ 1 ≤ 0x85 / 4 % 8 ∧ 0x85 / 4 % 8 ≤ 3 ∧ (0x85 : Nat) / 128 % 2 = 1 ∧
    reg sDram aDramCfg = 0x85 ∧ regB sDram aDramCfg 7 = true ∧ (0x86 : Nat) % 32 ≠ reg sDram aDramCfg % 32 ∧
    reg (after (.dramCfgLock 0x86) sDram) aDramCfg = 0x85 ∧ reg (after (.dramCfgLock 0x86) sDram) aLockViol = 1 ∧
    mramLocked sMirror = false ∧ (0xC0 : Nat) % 128 ≤ 64 ∧ (0xC0 : Nat) / 128 % 2 = 1 ∧ sMirror.mirror.good = true ∧
    (let t := after (.mramRegionLock 0xC0) sMirror
     mramLocked t = true ∧ fwMib t = 64 ∧ t.mirror.life = 7 ∧ t.mirror.epoch = 0 ∧ 1 % 128 ≠ fwMib t ∧ mramLocked (after (.mramRegionLock 1) t) = true ∧
     fwMib (after (.mramRegionLock 1) t) = 64) := by decide +kernel

/-! ### Witnesses: links and preamplifiers -/

/-- Group 3 with lane `l` in a state, and with the downstream lane in one. -/
def laneIn (l st : Nat) (s : State) : State := setHsl 3 (putLane l { getLane (getHsl s 3) l with st := st } (getHsl s 3)) s
def downIn (st : Nat) (s : State) : State := setHsl 3 { getHsl s 3 with dSt := st } s
/-- The group's control register holds a value. -/
def ctlIs (v : Nat) : State := setReg (aHslCtl 3) v s0
theorem wit_LinkLanesMove : Awake s0 ∧ Quiet s0 ∧ GroupIdle s0 3 ∧ GroupIdle (laneIn 2 1 s0) 3 ∧ GroupIdle (downIn 4 s0) 3 ∧
    (getLane (getHsl (after (.laneAcquired 3 2) (laneIn 2 1 s0)) 3) 2).st = 2 ∧ (getLane (getHsl (after (.laneAcquired 3 2) (laneIn 2 4 s0)) 3) 2).st = 2 ∧
    laneUp (after (.laneUp 3 2) (laneIn 2 2 s0)) 3 2 = true ∧ markerLock (getHsl (downIn 4 (laneIn 2 2 s0)) 3) = true ∧
    downUp (after (.laneUp 3 3) (downIn 4 (laneIn 2 2 s0))) 3 = true ∧ markerLock (getHsl (downIn 4 s0) 3) = false ∧
    laneUp (laneIn 2 3 s0) 3 2 = true ∧ reg (after (.laneLost 3 2) (laneIn 2 3 s0)) (aUpLoss 3 2) = 1 ∧
    downUp (downIn 3 s0) 3 = true ∧ reg (after (.laneLost 3 3) (downIn 3 s0)) (aDnLoss 3) = 1 ∧
    reg (after (.laneFailed 3 2) (laneIn 2 2 s0)) (aUpFail 3 2) = 1 ∧ (getHsl (after (.laneFailed 3 3) (downIn 4 s0)) 3).dSt = 5 := by decide +kernel
theorem wit_LinkControlRegister : actPresent s0 3 = true ∧ reg s0 (aHslCtl 3) = 0 ∧ (getHsl s0 3).dSt = 0 ∧
    (getHsl (after (.hslEn 3 true) s0) 3).dSt = 2 ∧ reg (ctlIs 1) (aHslCtl 3) = 1 ∧ GroupIdle (ctlIs 1) 3 ∧ Quiet (ctlIs 1) ∧
    reg (after (.rxEn 3 2 true) (ctlIs 1)) (aHslCtl 3) = 0x401 ∧ (getPre (after (.paRun 3 true) (ctlIs 1)) 3).running = true ∧
    reg (ctlIs 3) (aHslCtl 3) = 3 ∧ (getPre (after (.mgtSafe 3 true) (ctlIs 3)) 3).safe = true ∧
    reg (after (.mgtSafe 3 true) (ctlIs 3)) (aDnSafe 3) = 1 ∧
    actPresent { s0 with variant := .bf } 3 = false ∧ actPresent { s0 with variant := .bf } 1 = true := by decide +kernel

/-- A frame with the CRC that checks. -/
def withCrc (f : LinkFrame) : LinkFrame :=
  { f with crc := (crc32c (leBytes 4 f.header ++ padTo 128 f.payload ++ leBytes 2 f.aux)).toNat }
/-- A frame with a CRC that does not. -/
def badCrc (f : LinkFrame) : LinkFrame := { withCrc f with crc := (withCrc f).crc + 1 }
theorem wit_frame_good (f : LinkFrame) : frameGood f.marker (withCrc f) = true := by simp [frameGood, withCrc]
theorem wit_frame_bad (m : Nat) (f : LinkFrame) : frameGood m (badCrc f) = false := by simp [frameGood, badCrc, withCrc]
/-- An upstream sample frame with DS_UP. -/
def upFrame0 : LinkFrame := { header := 0x800000, payload := zeros 128, crc := 0, marker := upMarker }
/-- A frame as it stands on the line, after the bits that its scrambler has kept (R203). -/
def onLine (before : Nat) (f : LinkFrame) : LinkFrame := ofLine (scramble before (lineBits f)) f
set_option maxRecDepth 20000 in
/-- What the scrambler sends, a descrambler that has kept the same bits finds again (R203). -/
theorem test_scrambled_frame : received 77 (onLine 77 (withCrc upFrame0)) = withCrc upFrame0 := by decide +kernel
set_option maxRecDepth 20000 in
theorem wit_bad_on_line : received 0 (onLine 0 (badCrc upFrame0)) = badCrc upFrame0 := by decide +kernel
set_option maxRecDepth 20000 in
theorem wit_good_on_line : received 0 (onLine 0 (withCrc upFrame0)) = withCrc upFrame0 := by decide +kernel
/-- By hand: a single 1 comes out of the scrambler again 39 and 58 bits later (R203). -/
theorem test_scrambler_taps : scramble 0 1 % 2 ^ 77 = 1 + 2 ^ 39 + 2 ^ 58 ∧ descramble 0 1 = 1 + 2 ^ 39 + 2 ^ 58 := by decide +kernel
theorem wit_LinkFramesCarrySamples : (getCh s0 3).sectors = [] ∧ (getLane (getHsl s0 3) 2).st = 0 ∧
    ((getLane (getHsl (laneIn 2 2 s0) 3) 2).st = 2 ∧ laneUp (laneIn 2 2 s0) 3 2 = false) ∧ laneUp (laneIn 2 3 s0) 3 2 = true ∧
    (getLane (getHsl (laneIn 2 3 s0) 3) 2).descr = 0 ∧
    frameGood upMarker (withCrc upFrame0) = true ∧ upPtype (withCrc upFrame0) = 0 ∧ upDsUp (withCrc upFrame0) = true ∧
    frameGood upMarker (badCrc upFrame0) = false ∧ (onLine 0 (badCrc upFrame0)).marker = upMarker ∧
    (let s := setHsl 3 (putLane 2 { st := 3, ptype := 0, fseq := 255 } (getHsl s0 3)) s0
     laneUp s 3 2 = true ∧ Quiet s ∧ GroupIdle s 3 ∧ (getCh s 3).sectors = [] ∧ (getLane (getHsl s 3) 2).ptype = 0 ∧
     samplePos (getLane (getHsl s 3) 2).rate (((getLane (getHsl s 3) 2).fseq + 1) % 256) = true) ∧
    (∀ k, k < 3 → k ≠ 2 → laneUp (laneIn 2 3 s0) 3 k = false) ∧ (getHsl (laneIn 2 3 s0) 3).skew = [] ∧
    (getLane (getHsl (laneIn 2 3 s0) 3) 2).errRun < 15 ∧ actPresent s0 3 = true ∧
    actPresent { s0 with variant := .bf } 3 = false ∧ upPtype { upFrame0 with header := 0x1800 } = 3 ∧
    (let s := setHsl 3 (putLane 2 { st := 1, markRun := 7 } (getHsl s0 3)) s0
     (getLane (getHsl s 3) 2).st = 1 ∧ 8 ≤ (getLane (getHsl s 3) 2).markRun + 1 ∧ GroupIdle s 3) ∧
    (let s := setHsl 3 (putLane 2 { st := 2, train := 1023 } (getHsl s0 3)) s0
     (getLane (getHsl s 3) 2).st = 2 ∧ 1024 ≤ (getLane (getHsl s 3) 2).train + 1 ∧ GroupIdle s 3) ∧
    (getHsl (downIn 2 s0) 3).dSt = 2 ∧ (after (.downstreamFrame 3 [] false 0 0) (downIn 2 s0)).out.length = 1 ∧
    (getHsl (downIn 3 s0) 3).dSt = 3 ∧ (after (.downstreamFrame 3 [] false 0 0) (downIn 3 s0)).out.length = 1 ∧
    (getHsl (downIn 5 s0) 3).dSt = 5 ∧ (after (.downstreamFrame 3 [] false 0 0) (downIn 5 s0)).out = [] :=
  ⟨by decide +kernel, by decide +kernel, by decide +kernel, by decide +kernel, by decide +kernel, wit_frame_good upFrame0, by decide,
   by decide, wit_frame_bad _ _, rfl,
   by decide +kernel⟩

/-- The preamplifier of group 3 runs and holds messages. -/
def paWith (ms : List Nat) : State := setPre 3 { getPre s0 3 with running := true, inbox := ms, headstat := 0xFFFF, dsUp := true } s0
/-- A downstream frame: ASSIST 5, heater 6, WRITE_EN. -/
def dnFrame0 : LinkFrame := { header := 0, payload := zeros 122 ++ leBytes 6 (5 + 2 ^ 11 + 6 * 2 ^ 12), crc := 0, marker := downMarker }
theorem wit_down_good : downGood (withCrc dnFrame0) = true := by
  have h := wit_frame_good dnFrame0
  have e : dnFrame0.marker = downMarker := rfl
  rw [e] at h
  simp only [downGood, h]
  decide +kernel
theorem wit_down_bad : downGood (badCrc dnFrame0) = false := by simp only [downGood, wit_frame_bad]; rfl
set_option maxRecDepth 20000 in
theorem wit_down_on_line : received 0 (onLine 0 (withCrc dnFrame0)) = withCrc dnFrame0 ∧
    received 0 (onLine 0 (badCrc dnFrame0)) = badCrc dnFrame0 ∧ (getPre (paWith []) 3).descr = 0 := by decide +kernel
theorem wit_PreamplifierAnswers : (getPre (after (.paFaultN 3 31) s0) 3).faults = 31 ∧ bits (getPre (paWith []) 3).headstat (2 * 7) 2 = 3 ∧
    bits (getPre (after (.elementCheckComplete 3 7 0) (paWith [])) 3).headstat 14 2 = 1 ∧
    bits (getPre (after (.elementCheckComplete 3 7 63) (paWith [])) 3).headstat 14 2 = 2 ∧
    (getPre (paWith [reqMsg 2 63 0x24 7]) 3).inbox = [reqMsg 2 63 0x24 7] ∧ reqMsg 2 63 0x24 7 % 8 = 2 ∧
    preWritable (bits (reqMsg 2 63 0x24 7) 9 10 * 4) = some (0, 0xF3F) ∧ preRefuses (getPre (paWith []) 3) 0x90 = false ∧
    preReg (getPre (after (.paRequest 3) (paWith [reqMsg 2 63 0x24 7])) 3) 0x90 = 7 ∧
    (after (.paRequest 3) (paWith [reqMsg 2 63 0x24 7])).out = [.paReply 3 (2 + 63 * 8)] ∧
    reqMsg 1 5 0x3FF 0 % 8 = 1 ∧ preRead (getPre (paWith []) 3) 3 (bits (reqMsg 1 5 0x3FF 0) 9 10 * 4) 0 = none ∧
    (after (.paRequest 3) (paWith [reqMsg 1 5 0x3FF 0])).out = [.paReply 3 (1 + 5 * 8 + 512)] ∧
    (getPre (paWith []) 3).running = true ∧ (getPre (paWith []) 3).emitting = false ∧ (getPre (paWith []) 3).dsUp = true ∧
    bits (withCrc dnFrame0).header 8 2 = 0 ∧ bits (demandOf dnFrame0) 0 10 = 5 ∧ bits (demandOf dnFrame0) 12 10 = 6 ∧
    bit (demandOf dnFrame0) 11 = true ∧ (getPre s0 3).running = false := by decide +kernel

/-- Group 3's downstream lane is up, with an access waiting, with one in hand, with a message received. -/
def cfReq : CfReq := { pair := some 7, write := false, reg := 2, data := 0 }
def cfQueued : State := setHsl 3 { getHsl s0 3 with dSt := 3, queue := [cfReq], tag := 63 } s0
def cfHeld (resent : Bool) (ms : List Nat) : State :=
  setHsl 3 { getHsl s0 3 with dSt := 3, cur := some { req := cfReq, tag := 5, resent }, inbox := ms } (setInd 7 { busy := some (.read 9 4 0) } s0)
theorem wit_ControlFramesAreSentAndTaken : downUp cfQueued 3 = true ∧ (getHsl cfQueued 3).cur = none ∧ (getHsl cfQueued 3).queue = cfReq :: [] ∧
    cfReq.dead = false ∧ (getHsl (after (.controlRequest 3) cfQueued) 3).tag = 0 ∧
    (getHsl (after (.controlRequest 3) cfQueued) 3).auxOut = auxUnits (reqMsg 1 63 2 0) ∧
    (getHsl (cfHeld false []) 3).cur = some { req := cfReq, tag := 5, resent := false } ∧
    regF (after (.controlResend 3) (cfHeld false [])) (aHslCfCount 3) 0 16 = 1 ∧
    (getHsl (after (.controlResend 3) (cfHeld true [])) 3).auxOut = [] ∧
    reqMsg 6 0 0 9 % 8 = 6 ∧ reg (after (.paSense 3) (cfHeld false [reqMsg 6 0 0 9])) (aHslPaSense 3) = 9 ∧
    Quiet (cfHeld false []) ∧ (getCh (cfHeld false []) 3).write = false ∧ reqMsg 7 0 0 9 % 8 = 7 ∧ bit (bits (reqMsg 7 0 0 9) 19 32) 11 = false ∧
    reg (after (.paStatus 3) (cfHeld false [reqMsg 7 0 0 9])) (aHslPaStat 3) = 9 ∧
    (let s := setHsl 3 { getHsl s0 3 with inbox := [reqMsg 6 0 0 9] } s0
     downUp s 3 = false ∧ Quiet s ∧ (getHsl s 3).inbox = reqMsg 6 0 0 9 :: [] ∧ (getHsl (after (.paSense 3) s) 3).inbox = []) := by decide +kernel

/-- Pair 7 selects a place. -/
def indAt (v : Nat) (s : State) : State := setReg (aIndAddr 7) v s
theorem wit_IndirectPairServesAccesses : fenced s0 127 (aIndAddr 7) = false ∧ fenced s0 127 (aIndAddr 7 + 4) = false ∧
    (let s := after (.isolate 7 true) s0
     Awake s ∧ fenced s 56 (aIndAddr 7) = true ∧ fenced s 56 (aIndAddr 7 + 4) = true) ∧
    indTarget (indAt 0x30000008 s0) 7 = true ∧ indSpace (indAt 0x30000008 s0) 7 = 3 ∧ (after (.indDataRead 7 127) (indAt 0x30000008 s0)).out.length = 1 ∧
    indTarget (indAt 0x1C0000C0 (laneIn 2 3 s0)) 7 = true ∧ indSpace (indAt 0x1C0000C0 (laneIn 2 3 s0)) 7 = 1 ∧ indOfs (indAt 0x1C0000C0 (laneIn 2 3 s0)) 7 = 0xC0 ∧
    (getHsl (after (.indDataWrite 7 127 0x3FFFF) (indAt 0x1C0000C0 (laneIn 2 3 s0))) 3).txFfe = 0x3FFFF ∧
    (getInd s0 7).waiting = [] ∧ (getInd s0 7).busy = none ∧
    reg (after (.indAddrWrite 7 127 0xFFFFFFFF) s0) (aIndAddr 7) = 0xFFFFFFFC ∧
    indTimedOut s0 7 = false ∧ indTarget s0 7 = false ∧ indTimedOut (after (.indDataWrite 7 127 1) s0) 7 = true ∧
    (after (.indDataRead 7 127) (after (.indDataWrite 7 127 1) s0)).out = [.readData 127 0xFFFFFFFF] ∧
    indTarget (indAt 0x2C000008 cfQueued) 7 = true ∧ indSpace (indAt 0x2C000008 cfQueued) 7 = 2 ∧ indUnit (indAt 0x2C000008 cfQueued) 7 = 3 ∧
    downUp (indAt 0x2C000008 cfQueued) 3 = true ∧
    (getHsl (after (.indDataRead 7 127) (indAt 0x2C000008 cfQueued)) 3).queue = [cfReq, cfReq] ∧
    (getInd (cfHeld false []) 7).busy = some (.read 9 4 0) ∧ (getInd (cfHeld false []) 7).waiting = [] ∧
    (after (.indTimeout 7) (cfHeld false [])).out = [.readData 9 0xFFFFFFFF] ∧
    (let s := cfHeld false [0xA80029]
     Quiet s ∧ regB s (aIndCtl 7) 0 = false ∧ (getHsl s 3).inbox = [0xA80029] ∧ 0xA80029 % 8 = 1 ∧ bits 0xA80029 3 6 = 5 ∧ bits 0xA80029 9 2 = 0 ∧
     (after (.controlReply 3) s).out = [.readData 9 0x15]) ∧
    (after (.controlGiveUp 3) (cfHeld true [])).out = [.readData 9 0xFFFFFFFF] ∧ indTimedOut (after (.controlGiveUp 3) (cfHeld true [])) 7 = true := by
  decide +kernel

/-! ### Witnesses: host ports, connections, PDUs -/

/-- Port 1 enabled, down or up. -/
abbrev sPort : State := after (.portEnable 1) s0
abbrev sUp : State := after (.linkUp 1 7 true true) sPort
theorem wit_PortsComeUpAndFail : s0.pwr.phase = .running ∧ HostQuiet s0 ∧ portEnabled s0 1 = false ∧
    portEnabled sPort 1 = true ∧ (getPort sPort 1).up = false ∧ (getPort sPort 1).failed = false ∧ HostQuiet sPort ∧
    commonRate sPort 1 7 = some 0 ∧ commonRate sPort 1 4 = some 2 ∧ commonRate sPort 1 0 = none ∧ regB s0 aSlowCfg 8 = false ∧ (getPort sUp 1).up = true ∧ (getPort sUp 1).rate = 0 ∧ (getPort sUp 1).fec = 1 ∧
    (getPort (after (.linkUp 1 4 false true) sPort) 1).fec = 3 ∧ (getPort (after (.linkUp 1 4 false false) sPort) 1).fec = 0 ∧
    reg (after (.linkDown 1) sUp) (aLinkDown 1) = 1 ∧ faultPresent (after (.portFailed 1) sPort) 0x30 1 = true ∧
    portEnabled sUp 1 = true ∧ (getPort (after (.portDisable 1) sUp) 1).failed = true := by decide +kernel

/-- A frame of a length, and port 1 up with the slow path on, its rings at DRAM offset 4096 with a wrap at the next slot. -/
def ethOf (n : Nat) : EthFrame := { bytes := zeros n }
abbrev sSlow : State :=
  let s := setReg (aPortCfg 1) 1500 (setReg aSlowRxBase 1 (setReg aSlowTxBase 1 (setReg aSlowCfg 0x111 { sDram with host := sUp.host })))
  setReg aSlowRxIdx 0 (memWrite (dramBase + 4096) (leBytes 2 14 ++ [1]) s)
theorem wit_FramesAndSlowPath : Awake sUp ∧ (getPort sSlow 1).up = true ∧
    reg (after (.frameReceive 1 { ethOf 60 with fcsOk := false }) sSlow) (aFcsErr 1) = 1 ∧
    frameFits sSlow 1 (ethOf 59) = false ∧ frameFits sSlow 1 (ethOf 60) = true ∧ frameFits sSlow 1 (ethOf 1514) = true ∧ frameFits sSlow 1 (ethOf 1515) = false ∧
    reg (after (.frameReceive 1 (ethOf 59)) sSlow) (aPortDrop 1) = 1 ∧
    (getPort (after (.frameReceive 1 { ethOf 60 with pause := some 1 }) sSlow) 1).paused = true ∧
    (getPort (after (.frameReceive 1 { ethOf 60 with pause := some 0 }) sSlow) 1).paused = false ∧
    (ethOf 60).sumOk = true ∧ (ethOf 60).pmtu = none ∧ (getPort sUp 1).fec = 1 ∧ (getPort s0 1).fec = 0 ∧ sSlow.bad = [] ∧
    (getPort s0 0).paused = false ∧ (ethOf 60).pause = none ∧ (ethOf 60).forPort = true ∧ (ethOf 60).fragment = false ∧ (ethOf 60).hardware = false ∧ regB sSlow aSlowCfg 8 = true ∧
    (regF sSlow aSlowRxIdx 0 10 + 1) % ringSlots sSlow 0 ≠ regF sSlow aSlowRxIdx 16 10 % ringSlots sSlow 0 ∧
    reg sSlow aSlowRxBase * 4096 + regF sSlow aSlowRxIdx 0 10 * 9216 + 68 ≤ dramUsable sSlow ∧
    (let t := after (.frameReceive 1 (ethOf 60)) sSlow
     memNat t (dramBase + 4096) 8 = 60 + 65536 ∧ regF t aSlowRxIdx 0 10 = 1) ∧
    regF sSlow aSlowTxIdx 0 10 ≠ 1 ∧ 1 = (regF sSlow aSlowTxIdx 0 10 + 1) % ringSlots sSlow 4 ∧
    bits (dramNat sSlow 4096 8) 16 1 = 1 ∧ (getPort sSlow 1).paused = false ∧
    (after (.slowPathTransmit 1) sSlow).out.head? = some (.ethernet 1 none (zeros 14)) ∧
    (let s := setPort 1 { getPort s0 1 with paused := true } s0
     (getPort s 1).paused = true ∧ regB s aSlowCfg 8 = false ∧ (getPort (after (.receivedPauseExpiry 1) s) 1).paused = false) ∧
    HostQuiet s0 ∧ regB (after (.addressEntryClear 1 5) s0) (aAddrCtl 1 5) 0 = false := by decide +kernel

/-- A connection on port 1, in a phase, with a queue of a kind, and a device that holds just it. -/
def ctxOf (ph : CtxPhase) (kind : QKind) : Ctx :=
  { port := 1, entry := 0, disc := false, peerMac := 1, peerIp := 2, peerPort := 3, mss := 1460, cwnd := 14600, phase := ph, kind := kind }
def onCtx (c : Ctx) (s : State) : State := setCtx 0 (some c) s
def tcpCtx : Ctx := { ctxOf .connected .io with segs := [{ endSeq := 100, len := 100, tries := 14 }, { endSeq := 250, len := 150 }], unacked := 1 }
def sListen : State := setReg (aAddrCtl 1 5) 5 (setReg aHostCtl 7 sUp)
theorem wit_TcpConnectionsLiveAndEnd : Awake sListen ∧ sListen.cmd.cmds = [] ∧ sListen.host.ctxs = [] ∧ (getPort sListen 1).up = true ∧
    regB sListen (aAddrCtl 1 5) 0 = true ∧ regB sListen (aAddrCtl 1 5) 2 = true ∧ regB sListen aHostCtl 2 = true ∧
    (after (.syn 1 5 false 9 8 7 5 {}) sListen).out.length = 1 ∧
    ((getCtx (after (.syn 1 5 false 9 8 7 (2 ^ 32 - 1) { mss := some 0, wscale := some 15 }) sListen) 0).map
      fun c => (c.phase, c.port, decide (c.mss ≤ 1), c.rcvNxt, c.wscale)) = some (.halfOpen, 1, true, 0, some 14) ∧
    regB sListen (aAddrCtl 1 4) 0 = false ∧ (after (.syn 1 4 false 9 8 7 5 {}) sListen).host.ctxs = [] ∧
    (let c := ctxOf .halfOpen .unknown
     ((getCtx (after (.tcpAck 0 { ack := 1, wnd := 9 }) (onCtx { c with wscale := some 2 } s0)) 0).map fun d => (d.phase, d.sndWnd)) = some (.opened, 36)) := by decide +kernel
theorem wit_TcpConnectionsLiveAndEnd_acks :
    (let s := onCtx tcpCtx s0
     s.cmd.cmds = [] ∧ getCtx s 0 = some tcpCtx ∧ tcpCtx.phase ≠ .halfOpen ∧
     0 < ((tcpCtx.segs.filter fun g => ackCovers 100 g.endSeq).map (·.len)).sum ∧
     tcpCtx.recover = none ∧ tcpCtx.unsent = [] ∧ tcpCtx.sackOk = false ∧ tcpCtx.cwnd < tcpCtx.ssthresh ∧
     ((getCtx (after (.tcpAck 0 { ack := 100 }) s) 0).map fun d => (d.segs.length, d.sndUna)) = some (1, 100) ∧
     (14 : Nat) < 15 ∧ (after (.retransmissionTimeout 0) s).out = [.resend 0 100 100 (portTag s0 1) (dataHeaders s tcpCtx { endSeq := 100, len := 100 })] ∧
     ((getCtx (after (.retransmissionTimeout 0) s) 0).map fun d => (d.rto, d.cwnd)) = some (2000, 1460) ∧
     tcpCtx.kind = .io ∧ tcpCtx.segs ≠ [] ∧ (after (.userTimeout 0) s).out = [rstFrame s tcpCtx] ∧ getCtx (after (.userTimeout 0) s) 0 = none ∧
     tcpCtx.unacked ≠ 0 ∧ (after (.delayedAck 0) s).out = [ackFrame s tcpCtx] ∧
     (after (.tcpFinRst 0 true) s).out = [] ∧ (after (.tcpFinRst 0 false) s).out = [finFrame s tcpCtx]) := by decide +kernel
theorem wit_TcpConnectionsLiveAndEnd_losses :
    (let c := { tcpCtx with dupAcks := 2, sndNxt := 250 }
     let s := onCtx c s0
     (∀ g, g ∈ c.segs → ackCovers 0 g.endSeq = false) ∧
     ((getCtx (after (.tcpAck 0 { ack := 0 }) s) 0).map fun d => (d.ssthresh, d.cwnd, d.recover)) = some (2920, 7300, some 250)) ∧
    (let s := onCtx { tcpCtx with segs := [] } s0
     (after (.retransmissionTimeout 0) s).out = [] ∧ (getCtx (after (.userTimeout 0) s) 0).isSome = true ∧
     (after (.delayedAck 0) (onCtx { tcpCtx with unacked := 0 } s0)).out = []) := by decide +kernel

/-- A write command with a Ready-to-Transfer of 100 bytes at 4096, on connection 0. -/
def r2t0 : R2T := { tag := 7, off := 4096, len := 100 }
def wrCmd : Cmd := { seq := 0, ctx := some 0, ctrl := 1, hostNqn := 1, hostId := 2, cap := { opc := 1, cid := 5, nsid := 1 }, pool := 1, phase := .reserved,
                     io := true, r2ts := [r2t0] }
def withCmds (cs : List Cmd) (s : State) : State := { s with cmd := { s.cmd with cmds := cs } }
theorem wit_PdusAreTakenInOrder :
    (let s := onCtx (ctxOf .opened .unknown) s0
     s.pwr.phase = .running ∧ getCtx s 0 = some (ctxOf .opened .unknown) ∧ QKind.unknown ≠ .admin ∧ QKind.unknown ≠ .discovery ∧
     ((getCtx (after (.icreq 0 0 31 5 true false) s) 0).map fun d => (d.phase, d.hpda, d.maxR2t, d.hdgst, d.ddgst)) = some (.icDone, 31, 5, true, false) ∧
     .icResp 0 131072 true false ∈ (after (.icreq 0 0 31 5 true false) s).out ∧ s.cmd.cmds = [] ∧
     (after (.icreq 0 1 0 0 false false) s).out = [.termReq 0 fesUnsupported] ∧ getCtx (after (.icreqTimeout 0) s) 0 = none ∧
     (after (.h2cData 0 5 7 0 [1] true true) s).out = [.termReq 0 fesSequence]) := by decide +kernel
theorem wit_PdusAreTakenInOrder_connected :
    (let s := onCtx (ctxOf .connected .io) s0
     getCtx s 0 = some (ctxOf .connected .io) ∧ (zeros 8192).length ≤ 8192 ∧ (ctxOf .connected .io).capsules.length < max 1 (ctxOf .connected .io).sqsize ∧
     ((getCtx (after (.capsuleCmd 0 { opc := 2, cid := 9 } true true) s) 0).map fun d => d.capsules.map (·.cid)) = some [9] ∧
     (getCtx (after (.icreqTimeout 0) s) 0).isSome = true ∧ getCtx (after (.h2cTermReq 0) s) 0 = none ∧
     (ctxOf .connected .io).stale = [] ∧ (after (.h2cData 0 5 7 0 [1] true true) s).out = [.termReq 0 fesOutOfRange] ∧
     (after (.capsuleCmd 0 { opc := 1, cid := 9, data := [1] } true true) s).out = [.termReq 0 fesInvalidHeader] ∧
     (getCtx (after (.hostDataTimeout 0 7) s) 0).isSome = true) := by decide +kernel
theorem wit_PdusAreTakenInOrder_data :
    (let s := onCtx { ctxOf .connected .io with hdgst := true } s0
     getCtx (after (.capsuleCmd 0 { opc := 2, cid := 9 } false true) s) 0 = none ∧
     reg (after (.capsuleCmd 0 { opc := 2, cid := 9 } false true) s) (aHdgstErr 1) = 1) ∧
    (let s := withCmds [wrCmd] (onCtx (ctxOf .connected .io) s0)
     s.cmd.cmds = [wrCmd] ∧ wrCmd.ctx = some 0 ∧ wrCmd.r2ts = [r2t0] ∧ (ctxOf .connected .io).hdgst = false ∧ (ctxOf .connected .io).ddgst = false ∧
     (ctxOf .connected .io).maxR2t = 0 ∧ 4096 = r2t0.off + r2t0.got ∧ r2t0.got + 99 < r2t0.len ∧
     ((after (.h2cData 0 5 7 4096 (zeros 99) true true) s).cmd.cmds.map fun k => (k.data.map fun d => (d.1, d.2.length), k.r2ts.map (·.got))) = [([(4096, 99)], [99])] ∧
     isWrite wrCmd.cap.opc = true ∧ wrCmd.phase = .reserved ∧ wrCmd.zone = none ∧ wrCmd.io = true ∧ wrCmd.ready = false ∧
     (after (.hostDataTimeout 0 7) s).cmd.cmds = [] ∧ getCtx (after (.hostDataTimeout 0 7) s) 0 = none) := by decide +kernel

/-! ### Witnesses: controllers and admin commands -/

/-- Connection 0 of a kind with controller 1 and one fresh command of a capsule. -/
def ctrl0 : Ctrl := { port := 1, hostNqn := 0, hostId := 0, kato := 1000 }
def freshCmd (cap : Capsule) : Cmd := { seq := 0, ctx := some 0, ctrl := 1, hostNqn := 0, hostId := 0, cap := cap, pool := 2 }
def onKind (kind : QKind) : Ctx := { ctxOf .connected kind with ctrl := 1 }
def asked (kind : QKind) (d : Ctrl) (cap : Capsule) : State := withCmds [freshCmd cap] (setCtrl 1 (some d) (onCtx (onKind kind) s0))
def adm (cap : Capsule) : State := asked .admin ctrl0 cap
def fab (t : Nat) : Capsule := { opc := 0x7F, cid := 9, fctype := t }
def op (o dw10 : Nat) : Capsule := { opc := o, cid := 9, cdw10 := dw10 }
def ok9 : Out := .completion 0 9 stOk false 0 0
def ends (i : Instr) (s : State) : Option Out × List Cmd := ((after i s).out.head?, (after i s).cmd.cmds)

theorem wit_ControllersBeginAndEnd_connect :
    (let s := withCmds [freshCmd (fab 1)] (onCtx (ctxOf .icDone .unknown) s0)
     Awake s ∧ getCtx s 0 = some (ctxOf .icDone .unknown) ∧ s.host.ctxs = [(0, some (ctxOf .icDone .unknown))] ∧ Alone (freshCmd (fab 1)) 0 s ∧
     isFabrics 1 (freshCmd (fab 1)) = true ∧ connectStatus s (ctxOf .icDone .unknown) (fab 1) = stOk ∧ s.host.ctrls = [] ∧
     ends .connect s = (some (.completion 0 9 stOk false 1 0), []) ∧ (getCtrl (after .connect s) 1).isSome = true) ∧
    (let cap := { fab 1 with cdw10 := 0x20000, data := zeros 16 ++ [1] ++ zeros 1007 }
     let s := withCmds [freshCmd cap] (setCtrl 1 (some ctrl0) (onCtx (ctxOf .icDone .unknown) s0))
     Alone (freshCmd cap) 0 s ∧ connectStatus s (ctxOf .icDone .unknown) cap = stOk ∧ bits cap.cdw10 16 16 ≠ 0 ∧
     ends .connect s = (some (.completion 0 9 stOk false 1 0), []) ∧ ((getCtx (after .connect s) 0).map (·.qid)) = some 2) ∧
    (let cap := { fab 1 with cdw12 := 300001 }
     let s := withCmds [freshCmd cap] (onCtx (ctxOf .icDone .unknown) s0)
     connectStatus s (ctxOf .icDone .unknown) cap ≠ stOk ∧ ends .connect s = (some (.completion 0 9 stInvalidField false 0 0), [])) := by decide +kernel
theorem wit_ControllersBeginAndEnd_end :
    (let s := asked .io ctrl0 (fab 8)
     Alone (freshCmd (fab 8)) 0 s ∧ isFabrics 8 (freshCmd (fab 8)) = true ∧ ends .disconnect s = (some ok9, []) ∧ getCtx (after .disconnect s) 0 = none) ∧
    (let cap := { fab 0 with cdw11 := 0x14 }
     let s := asked .admin { ctrl0 with cc := 1 } cap
     getCtrl s 1 = some { ctrl0 with cc := 1 } ∧ isFabrics 0 (freshCmd cap) = true ∧ clearsEn { ctrl0 with cc := 1 } (freshCmd cap) = true ∧
     ends .controllerReset s = (some ok9, []) ∧ getCtrl (after .controllerReset s) 1 = none) ∧
    (let cap := { fab 0 with cdw11 := 0x14, cdw12 := 0x4001 }
     let s := asked .admin ctrl0 cap
     asksShutdown ctrl0 (freshCmd cap) = true ∧ ends .shutdown s = (some ok9, []) ∧ (getCtrl (after .shutdown s) 1).map (·.shst) = some 1) ∧
    (let s := setCtrl 1 (some { ctrl0 with shst := 1 }) (onCtx (onKind .admin) s0)
     s.cmd.cmds = [] ∧ (getCtrl (after (.shutdownComplete 1) s) 1).map (·.shst) = some 2 ∧ ctrl0.kato ≠ 0 ∧
     getCtrl (after (.keepAliveExpiry 1) s) 1 = none ∧ getCtx (after (.keepAliveExpiry 1) s) 0 = none) ∧
    (let s := setCtrl 1 (some { ctrl0 with kato := 0, discovery := true }) (onCtx (onKind .discovery) s0)
     (getCtrl (after (.keepAliveExpiry 1) s) 1).isSome = true ∧ getCtx (after (.discoveryIdleClose 0) s) 0 = none) := by decide +kernel

theorem wit_PropertiesFeaturesAndEvents_properties : Awake (adm (fab 4)) ∧ Alone (freshCmd (fab 4)) 0 (adm (fab 4)) ∧ getCtrl (adm (fab 4)) 1 = some ctrl0 ∧
    isFabrics 4 (freshCmd (fab 4)) = true ∧ (property ctrl0 0).isSome = true ∧ ((property ctrl0 0x1C).isSome) = true ∧
    ends .propertyGet (adm { fab 4 with cdw11 := 8 }) = (some (.completion 0 9 stOk false 0x20000 0), []) ∧
    (let cap := { fab 0 with cdw11 := 0x14, cdw12 := 1 }
     clearsEn ctrl0 (freshCmd cap) = false ∧ asksShutdown ctrl0 (freshCmd cap) = false ∧
     (getCtrl (after .propertySet (adm cap)) 1).map (·.cc) = some 1) ∧
    isAdmin 0x09 (freshCmd (op 9 0x8000000B)) = true ∧ ends .setFeatures (adm (op 9 0x8000000B)) = (some (.completion 0 9 stNotSaveable false 0 0), []) ∧
    bits (op 9 0xB).cdw10 0 8 = 0x0B ∧ (getCtrl (after .setFeatures (adm { op 9 0xB with cdw11 := 5 })) 1).map (·.aec) = some 5 ∧
    thresholdSel 0x00100150 = true ∧ tempThreshold ctrl0 1 ≠ 0x150 ∧
    ((getCtrl (after .setFeatures (adm { op 9 4 with cdw11 := 0x00100150 })) 1).map fun d => (tempThreshold d 1, tempThreshold d 0 == tempThreshold ctrl0 0)) = some (0x150, true) ∧
    (getCtrl (after .setFeatures (adm { op 9 0xC with cdw11 := 1, data := zeros 256 })) 1).map (·.apst) = some 1 ∧
    featureValue (adm (op 10 0xF)) ctrl0 0xF 0 = some 1000 ∧ ends .getFeatures (adm (op 10 0xF)) = (some (.completion 0 9 stOk false 1000 0), []) := by
  decide +kernel
theorem wit_PropertiesFeaturesAndEvents_power :
    (let cap := { op 9 2 with cdw11 := 4 }
     isSetFeature (· == 0x02) (freshCmd cap) = true ∧ bits cap.cdw11 0 5 ≤ 4 ∧ bits cap.cdw11 0 5 ≠ (adm cap).cmd.ps ∧
     ends .powerManagement (adm cap) = (some ok9, []) ∧ (after .powerManagement (adm cap)).cmd.target = 4) ∧
    ends .powerManagement (adm { op 9 2 with cdw11 := 5 }) = (some (.completion 0 9 stInvalidField false 0 0), []) ∧
    (let cap := { op 9 0xF with cdw11 := 300000 }
     isSetFeature (· == 0x0F) (freshCmd cap) = true ∧ (getCtrl (after .keepAliveTimer (adm cap)) 1).map (·.kato) = some 300000) ∧
    isAdmin 0x18 (freshCmd (op 0x18 0)) = true ∧ ends .keepAlive (adm (op 0x18 0)) = (some ok9, []) ∧
    isAdmin 0x0C (freshCmd (op 0x0C 0)) = true ∧ ctrl0.aers.length < 4 ∧ ctrl0.notices = [] ∧
    (getCtrl (after .asynchronousEventRequest (adm (op 0x0C 0))) 1).map (·.aers) = some [(0, 9)] ∧
    ends .asynchronousEventRequest (asked .admin { ctrl0 with aers := [(0, 1), (0, 2), (0, 3), (0, 4)] } (op 0x0C 0)) =
      (some (.completion 0 9 stAerLimit false 0 0), []) := by decide +kernel

theorem wit_SubsystemReports_commands :
    isAdmin 0x06 (freshCmd (op 6 1)) = true ∧ (after .identify (adm (op 6 1))).out.head? = some ok9 ∧ 2 ≤ (after .identify (adm (op 6 1))).out.length ∧
    bits (op 6 9).cdw10 0 8 ∉ [0x00, 0x01, 0x02, 0x03, 0x05, 0x06, 0x07, 0x08, 0x1C] ∧
    ends .identify (adm (op 6 9)) = (some (.completion 0 9 stInvalidField false 0 0), []) ∧
    bits (op 2 0x70).cdw10 0 8 = 0x70 ∧ ctrl0.discovery = false ∧ ends .discoveryLog (adm (op 2 0x70)) = (some (.completion 0 9 stLogPage false 0 0), []) ∧
    (let u := after .discoveryLog (asked .discovery { ctrl0 with discovery := true } (op 2 0x70))
     u.out.head? = some ok9 ∧ u.out.getLast? = some (.c2hData 0 9 0 (zeros 4))) ∧
    isAdmin 0x14 (freshCmd (op 0x14 1)) = true ∧ (after (.deviceSelfTest 7) (adm (op 0x14 1))).host.dstResults = [0x17] ∧
    isAdmin 0x0A (freshCmd (op 10 0xE)) = true ∧ (after .getTimestamp (adm (op 10 0xE))).out.getLast? = some (.c2hData 0 9 0 (zeros 8)) ∧
    (after .getTimestamp (adm (op 10 0xE))).out.head? = some ok9 ∧
    isSetFeature (· == 0x0E) (freshCmd (op 9 0xE)) = true ∧ wallNow (after .setTimestamp (adm { op 9 0xE with data := [1, 2, 0, 0, 0, 0, 0, 0] })) = 513 ∧
    (after .setTimestamp (adm { op 9 0xE with data := [1, 2, 0, 0, 0, 0, 0, 0] })).out = [ok9] := by decide +kernel
theorem wit_SubsystemReports_events :
    (let s := { s0 with cmd := { s0.cmd with fmt := { okFmt with acts := [0, 3] } } }
     (anaGroups s.cmd.fmt).contains 4 = true ∧ anaState s 4 = 0x0F ∧ s.host.ctrls = [] ∧ (groupActs s.cmd.fmt 4).contains 3 = true ∧ actInChange s 3 = true ∧
     (getSched (after (.anattExpiry 4) s) 3).st = 5) ∧
    (getCdc s0 1).connected = false ∧ (after (.cdcRegistration 1 1) s0).out = [.cdc 1 1 [], .cdcConnect 1 30000] ∧
    (let s := after (.cdcRegistration 1 1) s0
     (getCdc s 1).connected = true ∧ (getCdc (after (.cdcRegistration 1 3) s) 1).connected = false) ∧
    (getCdc (after (.cdcRetry 1 false) s0) 1).wait = 2 ∧ (after (.cdcRetry 1 true) s0).out = [.cdc 1 1 [], .cdcConnect 1 30000] := by decide +kernel

/-! ### Witnesses: intake, the I/O commands, the pools -/

/-- Two actuators with a zone each and 100 conventional blocks on the first; the journal's regions fixed, recovery complete. -/
def fmt2 : Fmt := { acts := [0, 1], zones := [1, 1], conv := [100, 0] }
abbrev sRec : State := setSched 0 { st := 2 } (after (.recoveryComplete fmt2 []) (after (.mramRegionLock 0x80) s0))
/-- Connection 0 is an I/O queue of controller 1. -/
def ioQ (cs : List Capsule) (s : State) : State := setCtrl 1 (some ctrl0) (onCtx { onKind .io with qid := 2, capsules := cs } s)
def readOf (lba n : Nat) : Capsule := { opc := 2, cid := 9, nsid := 5, cdw10 := lba, cdw12 := n - 1 }
def ioCmd (q : Nat) (ph : CmdPhase) (cap : Capsule) (n : Nat) : Cmd :=
  { seq := q, ctx := some 0, ctrl := 1, hostNqn := 0, hostId := 0, cap := cap, pool := if cap.opc = 2 then 0 else 1, phase := ph, io := true, nlb := n }
theorem wit_IntakeTakesTheFrontCapsule : intakeOpen s0 = false ∧
    (let s := ioQ [readOf 0 1, readOf 1 1] sRec
     Awake s ∧ getCtx s 0 = some { onKind .io with qid := 2, capsules := [readOf 0 1, readOf 1 1] } ∧ capEnabled s 1 = false ∧ Machine.freshCmd s = none ∧
     intakeOpen s = true ∧ ctrl0.shst = 0 ∧ poolFree s (newCmd s 0 (onKind .io) (readOf 0 1)).pool = true ∧
     intakeStatus s (onKind .io) (readOf 0 1) = stOk ∧ ((after (.intake 0) s).cmd.cmds.map fun c => (c.seq, c.io, c.nlb)) = [(2 ^ 20, true, 1)] ∧
     (after (.intake 0) s).cmd.nextSeq = 2 ^ 20 + 1 ∧ (QKind.io = .io ∨ (readOf 0 1).data ≠ [] ∨ adminBytes (readOf 0 1) = 0)) ∧
    (let s := ioQ [readOf 99 2] sRec
     intakeStatus s (onKind .io) (readOf 99 2) ≠ stOk ∧ intakeStatus s (onKind .io) (readOf 99 2) ≠ stDeferred ∧
     (after (.intake 0) s).cmd.cmds = [] ∧ (after (.intake 0) s).out.head? = some (.completion 0 9 stLbaRange false 0 0)) ∧
    (let cap : Capsule := { opc := 0x11, cid := 9, cdw10 := 0xFFFF }
     let s := setCtrl 1 (some ctrl0) (onCtx { onKind .admin with capsules := [cap], sqsize := 4, sqHead := 3 } sRec)
     intakeStatus s (onKind .admin) cap = stOk ∧ cap.data = [] ∧ 0 < adminBytes cap ∧ s.cmd.cmds = [] ∧ r2tCommands s 0 < 32 ∧
     (getCtx (after (.intake 0) s) 0).map (·.sqHead) = some 0 ∧ (after (.intake 0) s).out = [.r2t 0 9 s.cmd.nextTag 0 262144]) ∧
    (let s := setCtrl 1 (some { ctrl0 with shst := 1 }) (ioQ [readOf 0 1] sRec)
     { ctrl0 with shst := 1 }.shst ≠ 0 ∧ (after (.intake 0) s).cmd.cmds = []) := by decide +kernel

/-- One I/O command in flight. -/
def holds (cs : List Cmd) : State := withCmds cs (ioQ [] sRec)
def wrOf (o n : Nat) : Capsule := { opc := o, cid := 9, nsid := 5, cdw12 := n - 1 }
theorem wit_ReadsWritesAndFlushesAreOrdered_fresh :
    (∀ o ∈ [(Instr.read, 2), (.verify, 12), (.flush, 0)], let c := ioCmd 3 .fresh (wrOf o.2 1) 1
      Machine.freshCmd (holds [c]) = some c ∧ c.io = true ∧ ((after o.1 (holds [c])).cmd.cmds.map (·.phase)) = [.waiting]) ∧
    isRead 2 = true ∧ isVerify 12 = true ∧ isFlush 0 = true ∧ isWrite 1 = true ∧ isZeroes 8 = true ∧ isAppend 0x7D = true ∧
    (∀ o ∈ [(Instr.write, 1), (.writeZeroes, 8), (.zoneAppend, 0x7D)], let c := ioCmd 3 .fresh (wrOf o.2 1) 1
      Machine.freshCmd (holds [c]) = some c ∧ (after o.1 (holds [c])).cmd.waits = [3] ∧ reg (after o.1 (holds [c])) aJrnWaits = 0 ∧
      canReserve (holds [c]) c = true) ∧
    canReserve (holds []) (ioCmd 3 .fresh (wrOf 1 1) 239617) = false ∧
    reg (after .write (holds [ioCmd 3 .fresh (wrOf 1 1) 239617])) aJrnWaits = 1 := by decide +kernel
/-- A write that waits first of all for its reservation. -/
def waitsFor (n : Nat) : State := let s := ioQ [] sRec; { s with cmd := { s.cmd with cmds := [ioCmd 3 .waiting (wrOf 1 1) n], waits := [3] } }
theorem wit_ReadsWritesAndFlushesAreOrdered_reservation :
    (let s := waitsFor 1
     findCmd s 3 = some (ioCmd 3 .waiting (wrOf 1 1) 1) ∧ isZeroes 1 = false ∧ (wrOf 1 1).data = [] ∧ takeHostIdx s 0 0 = some 0 ∧
     canReserve s (ioCmd 3 .waiting (wrOf 1 1) 1) = true ∧ ((after .journalReservation s).cmd.cmds.map (·.phase)) = [.reserved] ∧
     (after .journalReservation s).cmd.waits = []) ∧
    canReserve (waitsFor 239617) (ioCmd 3 .waiting (wrOf 1 1) 239617) = false ∧ takeHostIdx (waitsFor 239617) 0 0 = some 0 ∧
    (after .journalReservation (waitsFor 239617)).cmd.waits = [3] := by decide +kernel
set_option maxRecDepth 100000 in
theorem wit_ReadsWritesAndFlushesAreOrdered_reads :
    (let c := ioCmd 3 .waiting (wrOf 0 1) 0
     flushDue (holds [c]) c = true ∧ ends (.flushComplete 3) (holds [c]) = (some ok9, []) ∧
     flushDue (holds [ioCmd 2 .reserved (wrOf 1 1) 1, c]) c = false) ∧
    (let c := ioCmd 3 .waiting (readOf 0 1) 1
     let w := ioCmd 2 .reserved (wrOf 1 1) 1
     blockedBy (holds [w, c]) 3 5 0 1 = true ∧ ((after (.readSourceChoice 3) (holds [w, c])).cmd.cmds.map (·.phase)) = [.reserved, .waiting] ∧
     let s := { holds [c] with jrn := { (holds [c]).jrn with convWritten := [(5, 0, 1)] } }
     s.jrn.recs = [] ∧ s.cmd.bufWaits = [] ∧ blockedBy s 3 5 0 1 = false ∧ sourceOf s 5 0 3 = .medium ∧ mediaBlocks s 5 0 1 3 = [0] ∧
     (∀ d ∈ s.cmd.cmds, d.phase ≠ .effective ∧ isZms d.cap.opc = false ∧ d.ready = false) ∧ sourceOf (holds [c]) 5 0 3 = .bytes (unwritten s0 5) ∧
     ((after (.readSourceChoice 3) s).cmd.cmds.map fun d => (d.phase, d.want)) = [(.media, [0])]) ∧
    (let c : Cmd := { ioCmd 3 .waiting { readOf 0 1 with nsid := 1 } 1 with slba := 65535 }
     mediaBlocks (holds [c]) 1 65535 1 3 = [] ∧ (sourceOf (holds [c]) 1 65535 3 == .medium) = false ∧
     (after (.readSourceChoice 3) (holds [c])).cmd.cmds = [] ∧ (after (.readSourceChoice 3) (holds [c])).out.head? = some ok9) := by decide +kernel

/-- A fresh Zone Management Send of an action on zone 0, in a state. -/
def zmsCmd (a : Nat) : Cmd := { ioCmd 3 .fresh { opc := 0x79, cid := 9, nsid := 1, cdw13 := a } 65536 with zone := some 0 }
def zoned (a st : Nat) : State := setZone 0 { zstate := st } (holds [zmsCmd a])
theorem wit_ZoneCommandsAndAbort_send :
    (∀ e ∈ [(Instr.zoneClose, 1, 2), (.zoneFinish, 2, 0), (.zoneOpen, 3, 0), (.zoneReset, 4, 4), (.zoneOffline, 5, 5)],
      Alone (zmsCmd e.2.1) 0 (zoned e.2.1 e.2.2) ∧ (zoned e.2.1 e.2.2).jrn.recs = [] ∧ isZms (zmsCmd e.2.1).cap.opc = true ∧
      zsa (zmsCmd e.2.1) = e.2.1 ∧ zmsZones (zoned e.2.1 e.2.2) (zmsCmd e.2.1) = [0] ∧
      getZone (after e.1 (zoned e.2.1 e.2.2)) 0 = zoneSent e.2.1 { zstate := e.2.2 } ∧ zoneSent e.2.1 { zstate := e.2.2 } ≠ { zstate := e.2.2 } ∧
      ends e.1 (zoned e.2.1 e.2.2) = (some ok9, [])) := by decide +kernel
theorem wit_ZoneCommandsAndAbort_rest :
    zsa (zmsCmd 16) = 16 ∧ ends .setZoneDescriptorExt (zoned 16 0) = (some (.completion 0 9 stInvalidField false 0 0), []) ∧
    (let c := { ioCmd 3 .fresh { opc := 0x7A, cid := 9, nsid := 1, cdw12 := 3 } 0 with pool := 0 }
     isZmr c.cap.opc = true ∧ bits c.cap.cdw13 0 8 = 0 ∧ Alone c 0 (holds [c]) ∧ ends .zoneManagementReceive (holds [c]) = (some ok9, []) ∧
     ((after .zoneManagementReceive (holds [c])).out.map fun o => match o with | .c2hData _ _ _ d => d.length | _ => 0).sum = 16) ∧
    (let c := { ioCmd 3 .fresh { opc := 0x7A, cid := 9, nsid := 1, cdw13 := 1 } 0 with pool := 0 }
     ends .zoneManagementReceive (holds [c]) = (some (.completion 0 9 stInvalidField false 0 0), [])) ∧
    (let a := { freshCmd { opc := 8, cid := 9, cdw10 := 2 + 7 * 65536 } with seq := 4 }
     let r := { ioCmd 3 .waiting { readOf 0 1 with cid := 7 } 1 with pool := 0 }
     Alone a 0 (holds [a]) ∧ a.io = false ∧ ends .abort (holds [a]) = (some (.completion 0 9 stOk false 1 0), []) ∧
     r.started = false ∧ r.seq ≠ a.seq ∧ r.cap.cid = bits a.cap.cdw10 16 16 ∧ bits a.cap.cdw10 0 16 = 2 ∧
     (after .abort (holds [r, a])).out = [ok9, .completion 0 7 stAborted false 0 0] ∧ (after .abort (holds [r, a])).cmd.cmds = []) := by decide +kernel

/-- A zone found Read Only as a Reset takes effect, and an Abort of a held Asynchronous Event Request. -/
theorem wit_ZoneCommandsAndAbort_late :
    (let c := { zmsCmd 4 with phase := .fresh }
     let s := setZone 0 { zstate := 5 } (holds [c])
     zmsLate s c = stZoneReadOnly ∧ ends .zoneReset s = (some (.completion 0 9 stZoneReadOnly false 0 0), [])) ∧
    (let a := { freshCmd { opc := 8, cid := 9, cdw10 := 2 + 7 * 65536 } with seq := 4 }
     let s := setCtrl 1 (some { ctrl0 with aers := [(0, 7)] }) (holds [a])
     ((getCtrl (after .abort s) 1).map (·.aers)) = some [] ∧
     (after .abort s).out = [ok9, .completion 0 7 stAborted false 0 0]) := by decide +kernel
/-- R162: a Reset taken in behind a read waits until the read has chosen its sources. -/
theorem test_reset_waits_for_an_earlier_read :
    let r : Cmd := { ioCmd 2 .waiting { readOf 0 1 with nsid := 1 } 1 with pool := 0 }
    let s := setZone 0 { zstate := 4, mediaWp := 5 } (holds [r, zmsCmd 4])
    let t := after .zoneReset s
    (getZone t 0).zstate = 4 ∧ t.cmd.cmds.length = 2 ∧ (getZone (after (.readSourceChoice 2) t) 0).zstate = 0 := by decide +kernel
/-- R164, R183: a write aborted in an Empty zone leaves the zone as intake sees it Empty, its write pointer at the start. -/
theorem test_aborted_write_leaves_zone_empty :
    let w : Cmd := { ioCmd 2 .waiting { opc := 1, cid := 7, nsid := 1 } 1 with zone := some 0 }
    let v : Cmd := { ioCmd 3 .waiting { opc := 1, cid := 8, nsid := 1, cdw10 := 1 } 1 with zone := some 0, slba := 1 }
    let a := { freshCmd { opc := 8, cid := 9, cdw10 := 2 + 7 * 65536 } with seq := 4 }
    let t := after .abort (setIZ 0 { st := 1, wp := 2, lastSeq := 3 } (holds [w, v, a]))
    getIZ t 0 = { st := 0, wp := 0, lastSeq := 3 } ∧
    t.out = [ok9, .completion 0 8 stZoneInvalidWrite false 0 0, .completion 0 7 stAborted false 0 0] := by decide +kernel
/-- R183: an aborted Reset leaves the zone as intake sees it where it stood. -/
theorem test_aborted_reset_keeps_zone :
    let w : Cmd := { ioCmd 2 .reserved { opc := 1, cid := 6, nsid := 1 } 1 with zone := some 0 }
    let z : Cmd := { zmsCmd 4 with phase := .waiting, cap := { (zmsCmd 4).cap with cid := 7 } }
    let a := { freshCmd { opc := 8, cid := 9, cdw10 := 2 + 7 * 65536 } with seq := 4 }
    let t := after .abort (setIZ 0 {} (holds [w, z, a]))
    getIZ t 0 = { st := 1, wp := 1, lastSeq := 2 } := by decide +kernel

/-- PAUSE stands. -/
abbrev sPause : State := after (.pause true) s0
/-- A power state entry to PS2 in progress, and an exit. -/
def movingTo (t : Nat) (entering abandon : Bool) : State := { s0 with cmd := { s0.cmd with moving := true, target := t, entering := entering, abandon := abandon } }
theorem wit_PauseAndPowerStates_pause : s0.host.activating = false ∧ regB s0 aCmdCtl 0 = false ∧ regB sPause aCmdCtl 0 = true ∧ Awake sPause ∧
    reg (after (.pause false) sPause) aCmdCtl = 0 ∧ reg (after .pauseExpiry sPause) aCmdCtl = 0 := by decide +kernel
theorem wit_PauseAndPowerStates_entry :
    (let s := movingTo 1 true false
     Quiet s ∧ s.cmd.moving = true ∧ s.cmd.entering = true ∧ idled s 1 [1, 2] = [0, 3] ∧ regB (after (.powerStateEntry [1, 2]) s) (seqBase 3) 1 = true ∧
     regB (after (.powerStateEntry [1, 2]) s) (seqBase 2) 1 = false ∧ (after (.powerStateEntry [1, 2]) s).cmd.active = [1, 2] ∧
     s.cmd.abandon = false ∧ s.host.ctrls = [] ∧ NothingSaved s ∧ s.cmd.target ≤ 2 ∧ nextStep s = .done ∧
     (after .safePoint s).cmd.ps = 1 ∧ (after .safePoint s).cmd.moving = false) ∧
    (let s := setSq 0 { getSq s0 0 with inOp := true } (movingTo 1 true false)
     nextStep s = .wait ∧ (after .safePoint s).cmd.moving = true) ∧
    s0.cmd.moving = false ∧ apstDue s0 = none ∧ (movingTo 2 true true).cmd.abandon = true ∧ nextStep (movingTo 2 true true) ≠ .wait ∧
    (after .safePoint (movingTo 2 true true)).cmd.entering = false ∧
    (movingTo 0 false false).cmd.entering = false ∧ NothingSaved (movingTo 0 false false) ∧
    (after .powerStateExit (movingTo 0 false false)).cmd.moving = false := by decide +kernel
/-- A controller whose table sends PS0 to PS2 after 1 ms without a command. -/
theorem wit_PauseAndPowerStates_apst :
    (let s := setCtrl 1 (some { ctrl0 with cc := 1, apst := 1, apstTable := leBytes 8 (2 * 8 + 256) }) { s0 with now := 1000000 }
     apstDue s = some 2 ∧ (after (.powerStateEntry []) s).cmd.target = 2 ∧ apstDue { s with now := 999999 } = none) := by decide +kernel
theorem wit_PauseAndPowerStates_steps :
    (let s := setSched 3 { st := 2 } (movingTo 3 true false)
     nextStep s = .park 3 ∧ (∀ x, x < 2 → serves s x 3 = false) ∧ (getSched (after .safePoint s) 3).st = 4) ∧
    (let s := setReg (aBasSpinCmd 1) 7200 (movingTo 3 true false)
     nextStep s = .slow ∧ spinCmd (after .safePoint s) 1 = 6600) ∧
    nextStep (movingTo 3 true false) = .done ∧ (after .safePoint (movingTo 3 true false)).cmd.ps = 3 ∧
    nextStep (movingTo 4 true false) = .cluster 0 ∧ getHart (after .safePoint (movingTo 4 true false)) 0 = none := by decide +kernel
theorem wit_RecoveryAndFormat :
    (let s := setZone 1 { zstate := 2 } (after (.mramRegionLock 0x80) s0)
     Awake s ∧ mramLocked s = true ∧ s.cmd.recovered = false ∧ s.jrn.degraded = [] ∧ regF s aBootStatus 2 2 ≠ 2 ∧ (after (.recoveryComplete fmt2 [7]) s).host.allowed = [7] ∧ s.jrn.recs = [] ∧ s.host.ctrls = [] ∧
     (getZone (after (.recoveryComplete fmt2 [7]) s) 1).zstate = 3 ∧ (after (.recoveryComplete fmt2 [7]) s).cmd.recovered = true ∧ mramLocked s0 = false) ∧
    (∀ e ∈ [(0x200, 5, stInvalidField), (2, 5, stInvalidFormat), (0, 6, stInvalidNs)],
      let c := freshCmd { opc := 0x80, cid := 9, nsid := e.2.1, cdw10 := e.1 }
      Alone c 0 (holds [c]) ∧ ends .formatNvm (holds [c]) = (some (.completion 0 9 e.2.2 false 0 0), [])) ∧
    (let c := freshCmd { opc := 0x80, cid := 9, nsid := 1, cdw10 := 1 }
     Machine.freshCmd (holds [c]) = some c ∧ bits c.cap.cdw10 9 3 = 0 ∧ bits c.cap.cdw10 0 4 ≤ 1 ∧ nsExists fmt2 1 = true ∧
     (after .formatNvm (holds [c])).cmd.formatting = [1]) ∧
    (let c := { freshCmd { opc := 0x80, cid := 9, nsid := 1, cdw10 := 1 } with phase := .waiting }
     let s := setZone 0 { zstate := 4, zgen := 3 } { withCmds [c] (onCtx (onKind .admin) sRec) with host := { (onCtx (onKind .admin) sRec).host with ctrls := [] } }
     s.cmd.cmds = [c] ∧ capEnabled s 1 = false ∧ s.jrn.recs = [] ∧ s.host.ctrls = [] ∧ s.jrn.degraded = [] ∧
     lbaf (after (.formatTakesEffect 0) s).cmd.fmt 1 = 1 ∧ getZone (after (.formatTakesEffect 0) s) 0 = {} ∧
     ends (.formatTakesEffect 0) s = (some ok9, [])) := by decide +kernel

/-- A read and a destage wait at scheduler 1. -/
def rdEnt : SchedEnt := { kind := 0, seq := 3, rcd := 0, nsid := 5, lba := 0, nlb := 1, since := 0 }
def dsEnt : SchedEnt := { kind := 1, seq := 2, rcd := 6, nsid := 5, lba := 0, nlb := 1, since := 0 }
def atSched (now : Nat) (q : List SchedEnt) : State := { setSched 1 { st := 2, queue := q } (holds [ioCmd 3 .media (readOf 0 1) 1]) with now := now }
theorem wit_SchedulersServeAndPatrolRecommends :
    (let s := atSched 0 [rdEnt, dsEnt]
     Awake s ∧ mayStart s 1 = true ∧ (fillWindow (getSched s 1).queue.length (getSched s 1)).window[0]? = some rdEnt ∧
     rdEnt ∈ eligible s 1 (fillWindow (getSched s 1).queue.length (getSched s 1)).window ∧
     (getSched (after (.schedulerDispatch 1 0) s) 1).running = [rdEnt] ∧ reg (after (.schedulerDispatch 1 0) s) (aSchAged 1) = 0 ∧
     ((findCmd (after (.schedulerDispatch 1 0) s) 3).map (·.started)) = some true) ∧
    (let s := atSched 10000000000 [rdEnt, dsEnt]
     (fillWindow (getSched s 1).queue.length (getSched s 1)).window[1]? = some dsEnt ∧ aged s 1 dsEnt = true ∧
     dsEnt ∈ eligible s 1 (fillWindow (getSched s 1).queue.length (getSched s 1)).window ∧
     reg (after (.schedulerDispatch 1 1) s) (aSchAged 1) = 1 ∧ (getRec (after (.schedulerDispatch 1 1) s) 6).state = 3) ∧
    (let s := atSched 0 []
     findCmd s 3 = some (ioCmd 3 .media (readOf 0 1) 1) ∧ reg (after (.ageBoundExceeded 3) s) (aBreach 5) = 1) ∧
    regB (setReg aPatrolCfg 0 s0) aPatrolCfg 0 = false ∧ (getZone s0 1).zstate ≠ 3 ∧ (getZone s0 1).zstate ≠ 4 := by decide +kernel
/-- Patrol with WEAK_MAX 2 on actuator 1, which has a Full zone with 300 blocks on the medium; and a zone of it in hand. -/
def patrolling (p : Option Patrol) : State :=
  setSched 1 { st := 2, patrol := p } (setZone 1 { zstate := 4, mediaWp := 300 } (setReg aPatrolCfg 0x02000001 { sRec with cmd := { sRec.cmd with sched := [] } }))
theorem wit_SchedulersServeAndPatrolRecommends_patrol :
    (let s := patrolling none
     regB s aPatrolCfg 0 = true ∧ actPresent s 1 = true ∧ patrolBusy s 1 = false ∧ (getSched s 1).patrol = none ∧
     (patrolZones s 1).filter (fun z => !(getSched s 1).patDone.contains z) = (2, 0) :: [] ∧
     (getSched (after (.patrolPass 1) s) 1).patrol = some { nsid := 2, z := 0 }) ∧
    (let p : Patrol := { nsid := 2, z := 0, pos := 256 }
     let s := patrolling (some p)
     patrolNext s p = some (256, 44) ∧ ((getSched (after (.patrolPass 1) s) 1).queue.map fun e => (e.kind, e.lba, e.nlb)) = [(2, 256, 44)]) ∧
    (let p : Patrol := { nsid := 2, z := 0, pos := 300, weak := 3 }
     let s := patrolling (some p)
     patrolNext s p = none ∧ s.host.ctrls = [] ∧ zoneIdx s.cmd.fmt 2 0 = 1 ∧ isZoned s.cmd.fmt 2 = true ∧ regF s aPatrolCfg 24 8 < p.weak ∧
     (getZone (after (.patrolPass 1) s) 1).rzr = true ∧ reg (after (.patrolPass 1) s) aPatrolStatus = 0x10001) ∧
    (let s := patrolling (some { nsid := 2, z := 0, pos := 300, weak := 2 })
     (getZone (after (.patrolPass 1) s) 1).rzr = false ∧ (getSched (after (.patrolPass 1) s) 1).patDone = [(2, 0)]) := by decide +kernel

/-! ### Witnesses: log pages, images, NVMe-MI, start-up, the bus -/

/-- A Get Log Page of `n` Dwords at an offset, with an LSP. -/
def pageOf (id lsp n off : Nat) : Capsule := { opc := 2, cid := 9, cdw10 := id + lsp * 256 + (n - 1) * 65536, cdw12 := off }
theorem wit_LogPagesAreReturned : Awake (adm (pageOf 1 0 1 0)) ∧ Alone (freshCmd (pageOf 1 0 1 0)) 0 (adm (pageOf 1 0 1 0)) ∧
    (∀ id ∈ [0x01, 0x02, 0x03, 0x04, 0x05, 0x06, 0x0C, 0xBF, 0xC0, 0xC1, 0xC2], pageId (pageOf id 0 1 0) = id ∧ isAdmin 2 (freshCmd (pageOf id 0 1 0)) = true ∧
      ends .getLogPage (adm (pageOf id 0 1 0)) = (some ok9, [])) ∧
    (after .getLogPage (adm (pageOf 0xC1 0 2 0))).out.getLast? =
      some (.c2hData 0 9 0 (pageSlice (pageOf 0xC1 0 2 0) (deferPage (adm (pageOf 0xC1 0 2 0))))) ∧
    ends .getLogPage (adm (pageOf 0x42 0 1 0)) = (some (.completion 0 9 stLogPage false 0 0), []) ∧
    ends .strataWindowLog (adm (pageOf 0xC3 0 1 0)) = (some ok9, []) ∧ (after .strataWindowLog (adm (pageOf 0xC3 0 1 0))).strata.snapId = 1 ∧
    pageOff (pageOf 0xC3 0 1 64) ≠ 0 ∧ (after .strataWindowLog (adm (pageOf 0xC3 0 1 64))).strata.snapId = 0 := by decide +kernel
theorem wit_LogPagesAreReturned_capture : pageLsp (pageOf 0xC4 0 1 0) = 0 ∧ ends .captureIndexLog (adm (pageOf 0xC4 0 1 0)) = (some ok9, []) ∧
    5 < pageLsp (pageOf 0xC4 6 1 0) ∧ ends .captureIndexLog (adm (pageOf 0xC4 6 1 0)) = (some (.completion 0 9 stInvalidField false 0 0), []) ∧
    pageLsp (pageOf 0xC4 4 1 0) = 3 + 1 ∧ (getStream (adm (pageOf 0xC4 4 1 0)) 3).frozen = false ∧
    ends .captureStreamLog (adm (pageOf 0xC4 4 1 0)) = (some (.completion 0 9 stInvalidField false 0 0), []) ∧
    (let s := setStream 3 { frozen := true } (adm (pageOf 0xC4 4 1 0))
     Alone (freshCmd (pageOf 0xC4 4 1 0)) 0 s ∧ ends .captureStreamLog s = (some ok9, [])) ∧
    pageLsp (pageOf 0xC4 5 1 0) = 5 ∧ ends .replayOutputLog (adm (pageOf 0xC4 5 1 0)) = (some ok9, []) := by decide +kernel

/-- A Firmware Image Download of 8 bytes at an offset in Dwords, and a Firmware Commit. -/
def dl (off : Nat) : Capsule := { opc := 0x11, cid := 9, cdw10 := 1, cdw11 := off, data := [1, 2, 3, 4, 5, 6, 7, 8] }
def commit (ca fs : Nat) : Capsule := { opc := 0x10, cid := 9, cdw10 := fs + ca * 8 }
theorem wit_FirmwareImagesAreVerifiedAndNamed : isAdmin 0x11 (freshCmd (dl 2)) = true ∧ ((dl 2).cdw10 + 1) * 4 ≤ (dl 2).data.length ∧
    (dl 2).cdw11 * 4 + ((dl 2).cdw10 + 1) * 4 ≤ slotSize (adm (dl 2)) ∧
    flashBytes (after .firmwareImageDownload (adm (dl 2))) (slotBase (adm (dl 2)) 1 + 7) 10 = [0xFF, 1, 2, 3, 4, 5, 6, 7, 8, 0xFF] ∧
    slotSize s0 < slotSize s0 / 4 * 4 + 8 ∧ ends .firmwareImageDownload (adm (dl (slotSize s0 / 4))) = (some (.completion 0 9 stInvalidField false 0 0), []) ∧
    3 < bits (commit 4 1).cdw10 3 3 ∧ ends .fwCommitStore (adm (commit 4 1)) = (some (.completion 0 9 stInvalidField false 0 0), []) ∧
    (∀ e ∈ [(Instr.fwCommitStore, 0), (.fwCommitStoreTrial, 1), (.fwCommitTrial, 2), (.fwCommitActivate, 3)],
      bits (commit e.2 3).cdw10 3 3 = e.2 ∧ commitSlot (adm (commit e.2 3)) (commit e.2 3) = none ∧
      ends e.1 (adm (commit e.2 3)) = (some (.completion 0 9 stFwSlot false 0 0), []) ∧
      commitSlot (adm (commit e.2 2)) (commit e.2 2) = some 1 ∧ 1 ≠ (adm (commit e.2 2)).host.running ∧ slotCode (adm (commit e.2 2)) 1 ≠ 0 ∧
      ends e.1 (adm (commit e.2 2)) = (some (.completion 0 9 stFwImage false 0 0), []) ∧ reg (after e.1 (adm (commit e.2 2))) (aSecCount 0) = 0) ∧
    commitSlot (adm (commit 1 1)) (commit 1 1) = some (adm (commit 1 1)).host.running ∧
    ends .fwCommitStoreTrial (adm (commit 1 1)) = (some (.completion 0 9 stFwSlot false 0 0), []) ∧ interrupted s0 = false ∧ s0.host.heldActivations = [] ∧
    interrupted (cluIn 7 3 s0) = true := by decide +kernel
/-- What a slot needs to pass every check. SLH-DSA's verification is not written out in the spec (log 51), so no closed term
shows that a signature verifies; this is where that check stands among those that can be computed. -/
theorem wit_slot_passes (s : State) (k : Nat) (h0 : s.boot.dead.contains k = false) (h1 : fieldN (manifest s k) 0 4 = 0x4942515A)
    (h2 : manifestGood (slotSize s) (manifest s k) = true)
    (h3 : sigCheck s 1 (manifest s k) (flashBytes s (slotBase s k + 0x1000) sigLen) = 0) (h4 : imageFloor s.otp ≤ fieldN (manifest s k) 0xC 4)
    (h5 : variantGood s (manifest s k) = true) (h6 : (sects (manifest s k)).all (sectHashed s k) = true) (h7 : configGood (configOf s k) = true)
    (h8 : (sects (manifest s k)).all (fun x => decide (x.load + x.len ≤ usableOf (fieldN (configOf s k) 9 1))) = true) : slotCode s k = 0 := by
  have h6' := List.all_eq_true.1 h6
  have h8' := List.all_eq_true.1 h8
  unfold slotCode
  simp only [h0, h1, h2, h3, h5, h7, Nat.not_lt.2 h4, Bool.false_eq_true, ne_eq, not_true_eq_false, if_false, Bool.not_true]
  rw [if_neg, if_neg, if_neg]
  · simp only [Bool.not_eq_true', List.all_eq_false, not_exists, not_and, Bool.not_eq_true, Bool.not_eq_false]
    rintro x hx
    exact h6' x (List.mem_filter.1 hx).1
  · simp only [List.any_eq_true, not_exists, not_and, decide_eq_true_eq, Nat.not_lt]
    intro x hx
    exact of_decide_eq_true (h8' x (List.mem_filter.1 hx).1)
  · simp only [Bool.not_eq_true', List.all_eq_false, not_exists, not_and, Bool.not_eq_true, Bool.not_eq_false]
    rintro x hx
    exact h6' x (List.mem_filter.1 hx).1
/-- A manifest and a configuration block that are well formed. -/
def goodManifest : List Byte :=
  padTo 4096 (leBytes 4 0x4942515A ++ leBytes 2 1 ++ leBytes 2 2 ++ leBytes 4 1 ++ leBytes 4 64 ++ leBytes 4 0x20000 ++ leBytes 2 3 ++ zeros 42 ++
    leBytes 8 1 ++ leBytes 4 0x10000 ++ leBytes 4 4096 ++ zeros 48 ++ leBytes 8 2 ++ leBytes 4 0x11000 ++ leBytes 4 64 ++ leBytes 8 0x1000)
def goodConfig : List Byte :=
  padTo 64 (leBytes 4 0x4643515A ++ leBytes 2 1 ++ zeros 2 ++ [1, 1, 64, 15, 0, 0, 0, 0] ++ leBytes 2 7200 ++ leBytes 2 600 ++ [1, 8, 0, 0, 2, 0, 0, 0, 0, 1, 2, 0, 0, 0, 0, 2])
theorem wit_manifest_and_config : manifestGood (slotSize s0) goodManifest = true ∧ configGood goodConfig = true := by decide +kernel

def miOf (kind opcode d0 d1 size : Nat) : MiMessage := { kind := kind, opcode := opcode, dword0 := d0, dword1 := d1, size := size }
theorem wit_MiMessagesAreAnswered : { miOf 0 1 8 0 64 with pecOk := false }.pecOk = false ∧ 4224 < (miOf 0 1 8 0 4225).size ∧
    (after (.nvmeMiMessage (miOf 0 1 8 0 4225)) s0).out = [] ∧ (miOf 0 1 8 0 4224).pecOk = true ∧ (miOf 0 1 8 0 4224).kind ≤ 1 ∧
    (after (.nvmeMiMessage (miOf 0 1 8 0 4224)) s0).host.mctpEid = 8 ∧ (after (.nvmeMiMessage (miOf 0 1 8 0 4224)) s0).out.length = 1 ∧
    (after (.nvmeMiMessage (miOf 1 3 3 64 64)) s0).host.mctpUnit = 64 ∧ (after (.nvmeMiMessage (miOf 1 3 3 256 64)) s0).host.mctpUnit = 256 ∧
    (after (.nvmeMiMessage (miOf 1 4 1 0 64)) s0).out.length = 1 ∧
    (after (.nvmeMiMessage { miOf 2 0 0 0 64 with admin := some (op 6 1) }) s0).out.length = 1 := by decide +kernel

/-- The flash port busy, with a FIFO; an actuator expected. -/
def ospi (busy : Bool) (fifo : List Byte) : State := { s0 with boot := { s0.boot with busy := busy, fifo := fifo } }
abbrev sExpect : State := memWrite (dramBase + 0xB) [15] s0
/-- The PLLs have reported lock. -/
abbrev sLocked : State := { s0 with pwr := { s0.pwr with pllLocked := true } }
theorem wit_BootRoundsBootOrFail : Awake sLocked ∧ sLocked.boot.phase = .ready ∧ sLocked.pwr.pllLocked = true ∧ sLocked.flash = [] ∧ sLocked.boot.dead = [] ∧
    s0.pwr.pllLocked = false ∧ (after (.bootSequence 0 0 5) s0).out = [] ∧
    (let t := after (.bootSequence 0 0 5) sLocked
     t.out = [.uart 3 3] ∧ reg t aBootStatus = 0xF333 ∧ t.boot.phase = .retry ∧ t.boot.failed = 1 ∧ (after .bootRetry t).boot.phase = .ready ∧
     t.boot.phase ≠ .ready ∧ (after (.bootSequence 0 0 5) t).boot.failed = 1) ∧
    s0.boot.phase ≠ .retry ∧ slotCode (after (.flashTimeout 1) s0) 1 = 0xC ∧
    (let s := { sLocked with boot := { s0.boot with failed := 2 } }
     (after (.bootSequence 0 0 5) s).boot.phase = .halted) ∧
    (let c := chooseSlots sLocked
     c.1.spent = none ∧ (tryAll 0 0 c.1.order {} c.2).1.booted = none) := by decide +kernel
theorem wit_FlashPort : (2 ^ 31 : Nat) / 2 ^ 31 % 2 = 1 ∧ (ospi true []).boot.busy = true ∧ (ospi false []).boot.busy = false ∧
    bits (2 ^ 31 + 256 * 65536) 16 9 ≤ 256 ∧ (after (.ospiCommand (2 ^ 31 + 256 * 65536 + 0x203)) (ospi false (zeros 252))).boot.busy = true ∧
    (after (.ospiCommand (2 ^ 31 + 4 * 65536 + 0x203)) (ospi false (zeros 252))).boot.fifo.length = 248 ∧
    (zeros 252).length ≤ 252 ∧ (after (.ospiDataWrite 7) (ospi false (zeros 252))).boot.fifo.length = 256 ∧ 252 < (zeros 253).length ∧
    (after (.ospiDataWrite 7) (ospi false (zeros 253))).boot.fifo.length = 253 ∧ (after (.ospiDataRead 127) (ospi false [])).out = [.readData 127 0xFFFFFFFF] ∧
    (after (.ospiDataRead 127) (ospi false [1, 2, 3, 4, 5])).out = [.readData 127 0x04030201] ∧
    (after (.ospiDataRead 127) (ospi false [1, 2, 3, 4, 5])).boot.fifo = [5] ∧
    (after (.ospiCommand (2 ^ 31 + 2 * 65536 + 0x102)) (setReg aOspiAddr 4 (ospi false [1]))).out = [.flash 2 (some 4) 0 [] 2] ∧
    (after (.ospiCommand (2 ^ 31 + 2 * 65536 + 0x1302)) (setReg aOspiAddr 4 (ospi false [1, 2, 3]))).out = [.flash 2 (some 4) 2 [1, 2] 0] ∧
    (after (.ospiCommandEnd [9, 8] .none) (setReg aOspiCmd 0x20000 (ospi true [7]))).boot.fifo = [7, 9, 8] ∧
    (after (.ospiCommandEnd [9, 8] .none) (ospi false [7])).boot.fifo = [7] := by decide +kernel
/-- A command of the flash port that sends two bytes to address 4. -/
def sending : State := setReg aOspiAddr 4 (setReg aOspiCmd 0x20302 { s0 with boot := { s0.boot with busy := true, sending := [1, 2] } })
theorem wit_FlashPort_effects : sending.boot.busy = true ∧ regB sending aOspiCmd 8 = true ∧ reg sending aOspiAddr = 4 ∧
    4 + sending.boot.sending.length ≤ flashSize sending ∧ reg sending aOspiAddr < flashSize sending ∧
    flashBytes (after (.ospiCommandEnd [] .program) sending) 3 4 = [0xFF, 1, 2, 0xFF] ∧
    (let t := after (.ospiCommandEnd [] .program) sending
     flashBytes (after (.ospiCommandEnd [] .erase) { t with boot := sending.boot }) 3 4 = [0xFF, 0xFF, 0xFF, 0xFF]) := by decide +kernel
theorem wit_HeadDiscovery : smGet (fun _ => 0) sExpect.boot.acts 3 = 0 ∧
    actExpected sExpect 3 = true ∧ reg (after (.headDiscovery 3 0 0) sExpect) (aHslCtl 3) = 0x703 ∧ actExpected s0 3 = false ∧
    discoverState sExpect 3 ≠ 1 ∧ sExpect.host.ctrls = [] ∧ (getHsl sExpect 3).cur = none ∧ (getHsl sExpect 3).queue = [] ∧
    (let s := downIn 3 (setReg (aHslCtl 3) 0x703 sExpect)
     regB s (aHslCtl 3) 0 = true ∧ reg (after (.headDiscovery 3 1 0) s) (aHslCtl 3) = 0x700 ∧ downUp (after (.headDiscovery 3 1 0) s) 3 = false) ∧ smGet (fun _ => 0) (after (.headDiscovery 3 1 0) sExpect).boot.acts 3 = 2 ∧
    (let s := { sExpect with cmd := { sExpect.cmd with fmt := { acts := [3], zones := [1], conv := [0] } } }
     s.cmd.fmt.acts.contains 3 = true ∧ (getSched s 3).st = 1 ∧ s.cmd.cmds = [] ∧ (getSched (after (.headDiscovery 3 3 0) s) 3).st = 5 ∧
     (getSched (after (.headDiscovery 3 1 0) s) 3).st = 5 ∧ (getSched (after (.headDiscovery 2 3 0) s) 2).st = 1) ∧
    (let s := after (.headDiscovery 3 1 0) sExpect
     smGet (fun _ => 0) s.boot.acts 3 ≠ 0 ∧ reg (after (.headDiscovery 3 0 0) s) (aHslCtl 3) = reg s (aHslCtl 3)) := by decide +kernel
/-- An actuator found at start with one head present, which its one zone lies on. -/
def sFound (zst : Nat) : State :=
  setZone 0 { zstate := zst } { sExpect with
    boot := { sExpect.boot with acts := smSet (fun _ => 0) [] 3 1, heads := smSet (fun _ => 0) [] 29 1 },
    cmd := { sExpect.cmd with fmt := { acts := [3], zones := [1], conv := [0], heads := [(0, 5)] } } }
/-- A head that yields no servo mark is faulty, and its zones are Read Only (R125, R181). -/
theorem wit_head_fails : actExpected (sFound 1) 3 = true ∧ smGet (fun _ => 0) (sFound 1).boot.acts 3 = 1 ∧
    smGet (fun _ => 0) (sFound 1).boot.heads 29 = 1 ∧ zoneCount (sFound 1).cmd.fmt = 1 ∧
    (let t := after (.headDiscovery 3 2 5) (sFound 1)
     smGet (fun _ => 0) t.boot.heads 29 = 2 ∧ zoneHeadBad t 0 = true ∧ getZone t 0 = { zstate := 5, zfc := true }) ∧
    (getZone (after (.headDiscovery 3 2 5) (sFound 6)) 0).zstate = 6 ∧
    smGet (fun _ => 0) (sFound 1).boot.heads 28 ≠ 1 ∧ (getZone (after (.headDiscovery 3 2 4) (sFound 1)) 0).zstate = 1 := by decide +kernel
/-- Discovery finds an actuator whose preamplifier answers as R124 asks; what it answers is its maker's. -/
theorem wit_discovery_finds (h : bits (Config.preamp 3 4) 0 8 = 1) (h2 : Config.preamp 3 8 = 0x15) :
    let s := setPre 3 { headstat := 0x5555 } (laneIn 0 3 (downIn 3 sExpect))
    actExpected s 3 = true ∧ discoverState s 3 = 1 := by
  refine ⟨by decide +kernel, ?_⟩
  unfold discoverState
  simp only [h, h2]
  decide +kernel

/-- DEBUG out of TAP reset, on an open device. -/
abbrev sTap : State := after (.jtagTrst false) s0
theorem wit_BusAccessesFollowTheAccessTypes : Awake s0 ∧ Quiet s0 ∧ pmpFault s0 63 aRedSeen 4 pmpW = false ∧ pmpFault s0 63 aTimebaseLo 8 pmpR = false ∧ accessRefused s0 63 0x18000001 2 true ≠ none ∧ accessRefused s0 63 0 2 true = some errReadOnly ∧
    (after (.registerWrite 63 0 2 1) s0).out = [.busError 63 errReadOnly] ∧ reg (after (.registerWrite 63 0 2 1) s0) aAccerrInfo = errReadOnly + 16 + 64 + 63 * 256 + 65536 ∧
    accessRefused s0 63 aRedSeen 1 true = none ∧ regionOf s0 aRedSeen = .io ∧ (after (.registerWrite 63 (BitVec.ofNat 40 aRedSeen) 1 1) s0).out = [.busError 63 errNarrow] ∧
    (∀ a ∈ [aOspiAddr, aRedSeen, aSecCmdIn, aSecCmdOut, aRplSrc, aRplOut, aSlowRxBase, aSlowTxBase, aWallNewLo],
      (BitVec.ofNat 40 a).toNat = a ∧ accessRefused s0 63 a 2 true = none ∧ reg (after (.registerWrite 63 (BitVec.ofNat 40 a) 2 0x1FFFFFFFF) s0) a = 0xFFFFFFFF) ∧
    fenced s0 63 aWallNewLo = false ∧ fenced s0 63 (aWallNewLo + 4) = false ∧ accessRefused s0 63 aWallNewLo 3 true = none ∧
    reg (after (.registerWrite 63 (BitVec.ofNat 40 aWallNewLo) 3 0x700000005) s0) aWallNewHi = 7 ∧ accessRefused s0 63 aDramScrub 2 true = none ∧ regF (after (.registerWrite 63 (BitVec.ofNat 40 aDramScrub) 2 168) s0) aDramScrub 0 8 = 168 ∧
    reg (after (.registerWrite 63 (BitVec.ofNat 40 aDramScrub) 2 169) s0) aDramScrub = reg s0 aDramScrub ∧
    reg s0 aBootGen = (regReset aBootGen).toNat ∧
    (let t := after (.registerWrite 63 (BitVec.ofNat 40 aBootGen) 2 5) s0
     reg t aBootGen = 5 ∧ reg t aBootGen ≠ (regReset aBootGen).toNat ∧ reg (after (.registerWrite 63 (BitVec.ofNat 40 aBootGen) 2 6) t) aBootGen = 5 ∧
     reg (after (.registerWrite 63 (BitVec.ofNat 40 aBootGen) 2 6) t) aLockViol = 1) := by decide +kernel
/-- The timebase is beyond 32 bits. -/
abbrev sLate (s : State) : State := { s with now := 2 ^ 33 + 5 }
theorem wit_BusAccesses_reads :
    counter64 (sLate s0) aTimebaseLo = some (2 ^ 33 + 5) ∧ accessRefused (sLate s0) 63 aTimebaseLo 2 false = none ∧ accessRefused (sLate s0) 63 aTimebaseLo 3 false = none ∧
    (after (.counterLowRead 63 (BitVec.ofNat 40 aTimebaseLo) false) (sLate s0)).out = [.readData 63 5] ∧
    reg (after (.counterLowRead 63 (BitVec.ofNat 40 aTimebaseLo) false) (sLate s0)) (aTimebaseLo + 4) = 2 ∧
    (after (.counterLowRead 63 (BitVec.ofNat 40 aTimebaseLo) true) (sLate s0)).out = [.readData 63 (2 ^ 33 + 5)] ∧
    accessRefused s0 64 aRedSeen 2 true = none ∧ aRedSeen < indBase ∨ indBase + 0x10000 ≤ aRedSeen := by decide +kernel
theorem wit_BusAccesses_debug : (after (.busTimeout 64 (BitVec.ofNat 40 aRedSeen) 2 true) s0).out = [.busError 64 errTimeout] ∧
    debugReachable s0 = true ∧ s0.pwr.tapReset = true ∧ debugReachable sTap = true ∧ sTap.pwr.tapReset = false ∧
    accessRefused sTap 64 aRedSeen 2 false = none ∧ accessRefused sTap 64 aRedSeen 2 true = none ∧ regionOf sTap aRedSeen = .io ∧ counter64 sTap aRedSeen = none ∧
    aRedSeen ≠ aOspiData ∧ isIndData aRedSeen = false ∧ (after (.debugModuleAccess (BitVec.ofNat 40 aRedSeen) 2 none .good) sTap).out = [.readData 64 (viewReg sTap aRedSeen % 2 ^ 32)] ∧
    reg (after (.debugModuleAccess (BitVec.ofNat 40 aRedSeen) 2 (some 9) .good) sTap) aRedSeen = 9 ∧
    accessRefused sTap 64 0 2 true = some errReadOnly ∧ (after (.debugModuleAccess 0 2 (some 9) .good) sTap).out = [.busError 64 errReadOnly] ∧
    accessRefused (sLate sTap) 64 aTimebaseLo 2 false = none ∧ accessRefused (sLate sTap) 64 (aTimebaseLo + 4) 2 false = none ∧
    regionOf (sLate sTap) aTimebaseLo = .io ∧ counter64 (sLate sTap) aTimebaseLo = some (2 ^ 33 + 5) ∧
    (let t := after (.debugModuleAccess (BitVec.ofNat 40 aTimebaseLo) 2 none .good) (sLate sTap)
     t.out = [.readData 64 5] ∧ (after (.debugModuleAccess (BitVec.ofNat 40 (aTimebaseLo + 4)) 2 none .good) t).out = [.readData 64 2, .readData 64 5]) := by decide +kernel
/-- Behind its cluster's fence a hart's 64-bit write gets one error response; and a core whose PMP denies the store sends nothing (R69, R71). -/
theorem wit_BusAccesses_fences :
    (let s := after (.isolate 7 true) s0
     pmpFault s 63 aWallNewLo 8 pmpW = false ∧ accessRefused s 63 aWallNewLo 3 true = none ∧ regionOf s aWallNewLo = .io ∧
     fenced s 63 aWallNewLo = true ∧ fenced s 63 (aWallNewLo + 4) = true ∧
     (after (.registerWrite 63 (BitVec.ofNat 40 aWallNewLo) 3 1) s).out = [.busError 63 errIsolated]) ∧
    (let s := setHartRegs 63 { user := true } s0
     pmpFault s 63 aRedSeen 4 pmpW = true ∧ (after (.registerWrite 63 (BitVec.ofNat 40 aRedSeen) 2 1) s).out = []) ∧
    (accessRefused s0 63 0 2 true).isSome = true ∧ (after (.busTimeout 63 0 2 true) s0).out = [] := by decide +kernel

/-! ### Witnesses: the channel, sequencers, assist, capture, the recorder -/

/-- A sector of slot 5 with one fragment, read by lane 3. -/
def sec5 : Sector := { slot := 5, psn := 9, parity := false, ra := false, group := 0, data := 5, expect := 1, wedge := 0, frags := [(0, 576)] }
def withSec (x : Sector) (s : State) : State := setCh 3 { getCh s 3 with sectors := [x] } s
def withJobs (js : List Job) (s : State) : State := { s with chan := { s.chan with jobs := js } }
def job5 : Job := { lane := 3, cls := 0, target := .otf 5 0, key := 0, limit := 10 }
theorem wit_DecodersServeTheirRequests_search :
    (let s := withSec { sec5 with begun := 1 } s0
     Awake s ∧ Quiet s ∧ findSec s 3 5 = some { sec5 with begun := 1 } ∧ (getCh s 3).write = false ∧ sec5.formed = false ∧ sec5.passed = false ∧ 1 = sec5.frags.length ∧
     (findSec (after (.syncWindowEnd (.read 3 5)) s) 3 5).map (·.formed) = some true) ∧
    (let s := withJobs [job5] s0
     job5.dec = none ∧ job5.cls < 2 ∧ (freeDecs s).head? = some 0 ∧ ((after .decoderGrant s).chan.jobs.map (·.dec)) = [some 0] ∧ s0.chan.jobs = []) ∧
    decBusy s0 11 = false := by decide +kernel
/-- Decoder 11 runs a decode that has an iteration left, or none. What an iteration's LLRs are, and so whether it ends with syndrome zero,
rests on the channel's free arithmetic (log 116): either may be. -/
def decRun (k : Nat) : State := withJobs [{ job5 with dec := some 11, run := k }] (withSec sec5 s0)
/-- An iteration before the limit, and one at it: whichever way its syndrome comes out, the clause of that outcome applies. -/
theorem wit_DecodersServeTheirRequests_iteration : Quiet (decRun 9) ∧ decBusy (decRun 9) 11 = true ∧
    (decRun 9).chan.jobs = [{ job5 with dec := some 11, run := 9 }] ∧ ({ job5 with run := 9 } : Job).run < job5.limit ∧
    job5.limit ≤ ({ job5 with run := 10 } : Job).run ∧ heldWord (decRun 9) job5 = none ∧ preempts (decRun 9) job5 = false := by decide +kernel
/-- Entry 7 of the ring is decoded, its second candidate waiting. -/
def cand (d : Nat) : Cand := { offs := [0], dist := d, timed := false }
def ent7 : DefEnt := { st := 2, lane := 3, pset := 0, psetBytes := [], sec := sec5, pi := false, stage := none, piStage := 0, block := none, order := 0,
                       cur := some (cand 1), todo := [cand 2], step := 1 }
theorem wit_DecodersServeTheirRequests_rest :
    (let s := setEnt 7 (some ent7) (withJobs [{ lane := 3, cls := 2, target := .deferred 7, key := 0, limit := 10, dec := some 11, run := 10 }] s0)
     Quiet s ∧ getEnt s 7 = some ent7 ∧ ent7.cur = some (cand 1) ∧ ent7.todo = cand 2 :: []) ∧
    (let x := { sec5 with begun := 1, parity := false }
     let s := withSec x s0
     (getCh s 3).sectors = [x] ∧ x.res = 0 ∧ s.chan.jobs = [] ∧ capEnabled s 3 = false ∧ 0 < x.begun ∧ x.entry = none ∧ x.posted = false ∧
     dFlag (getCh s 3).dsc 1 = false ∧ regB s aChanCtl 0 = false ∧ (getCh s 3).results.length < 64 ∧
     (getCh (after (.sampleMemoryTimeout 3 5) s) 3).results = [5 + 4 * 65536 + 4095 * 2 ^ 20] ∧ reg (after (.sampleMemoryTimeout 3 5) s) (aChl 3 1) = 1) ∧
    (let x := { sec5 with passed := true, formed := true }
     let s := setCh 3 { sectors := [x], write := true } s0
     (getCh s 3).write = true ∧ (getCh s 3).sectors = [x] ∧ reg (after (.verifyTimeout 3 5) s) (aWr 3 1) = 1) ∧
    (let s := setEnt 7 (some ent7) s0
     ent7.st = 2 ∧ (getEnt (after (.deferredDecodeTimeout 7) s) 7).map (·.st) = some 3 ∧ getEnt s 8 = none) := by decide +kernel

theorem wit_DeferredRingAndShockInhibit :
    (let s := setReg aDdbCfg 2 s0
     Awake s ∧ Quiet s ∧ ddbEntries s = 2 ∧ s.cmd.cmds = [] ∧ s.cmd.bufWaits = [] ∧ regF (after (.ddbRdAdvance 2 false) s) aDdbRd 0 12 = 0 ∧
     regF s aDdbRd 0 12 < ddbEntries s ∧ 1 = (regF s aDdbRd 0 12 + 1) % ddbEntries s ∧ s.chan.jobs = [] ∧
     (let u := setEnt 0 (some { ent7 with st := 4 }) s
      getEnt u (regF u aDdbRd 0 12) = some { ent7 with st := 4 } ∧ getEnt (after (.ddbRdAdvance 1 false) u) 0 = none ∧
      reg (after (.ddbRdAdvance 1 false) u) aDdbRd = 1)) ∧
    regB (setReg aChanCtl 1 s0) aChanCtl 0 = true ∧ reg (after (.ddbCfgWrite true 9) (setReg aChanCtl 1 s0)) aDdbBase = 0 ∧
    regB s0 aChanCtl 0 = false ∧ reg (after (.ddbCfgWrite true 0x1FFFF) s0) aDdbBase = 65535 ∧
    bits 0x003F0FFF 0 12 = 4095 ∧ 16 ≤ bits 0x003F0010 0 12 ∧ bits 0x003F0010 16 6 ≠ 0 ∧ ddbEntries (after (.ddbCfgWrite false 0x003F0010) s0) = 16 ∧
    bit s0.chan.shock.cfg 18 = false ∧ bit (after (.accelInt 1 true) s0).chan.shock.ints 1 = true ∧ (after (.accelInt 1 true) s0).chan.shock.active = false ∧
    (let s := setReg (aWrCtl 3) 4 { s0 with chan := { s0.chan with shock := { s0.chan.shock with cfg := 0x40500 } } }
     bit s.chan.shock.ints 1 = false ∧ bit s.chan.shock.cfg 18 = true ∧ s.chan.shock.active = false ∧ regB s (aWrCtl 3) 2 = true ∧
     (let t := after (.accelInt 1 true) s
      t.chan.shock.active = true ∧ t.chan.shock.hold = 5 ∧ (getHsl t 3).shockPull = true ∧ reg t aShockCount = 1 ∧
      (after .shockHoldEnd t).chan.shock.active = true ∧ (getHsl (after .shockHoldEnd (after (.accelInt 1 false) t)) 3).shockPull = false)) ∧
    actPresent s0 3 = true ∧ regB (after (.shockEn 3 true) s0) (aWrCtl 3) 2 = true ∧ actPresent { s0 with variant := .bf } 3 = false := by decide +kernel

/-- A position record of island `x`; lane 3 has it on its way, and armed fragments. -/
def posOf (x w : Nat) : PosRec := { isl := x, wedge := w, mark := 0, trk := true, pes := 0, mode := 4, wper := 0, tb := 0 }
def armed (j : Nat) : State := setCh 3 { sectors := [sec5], arm := [(5, j), (6, 0)] } s0
/-- Island 0 healthy and serving actuator 3, island 1 as given. -/
def islands (st : Nat) : State :=
  setIsl 0 { st := 1 } (setIsl 1 { st := st } (setReg (aBasCtl 0) 0x81 (setReg (aBasCfg 0) 0x80000258 (setReg (aBasCtl 1) 0x81 (setReg (aBasCfg 1) 0x80000258 s0)))))
theorem wit_FragmentsAndPositionsArrive :
    findSec (armed 1) 3 5 = some sec5 ∧ (getCh (armed 1) 3).arm = (5, 1) :: [(6, 0)] ∧ (getCh (armed 1) 3).write = false ∧ (getCh (armed 1) 3).sectors.length ≤ 8 ∧ Quiet (armed 1) ∧
    (getCh (after (.fragmentBegun 3 false 0) (armed 1)) 3).arm = [(6, 0)] ∧ 0x17 ∈ (getSq (after (.fragmentBegun 3 false 0) (armed 0)) 3).latch ∧
    (getCh (after (.fragmentBegun 3 true 0) (armed 0)) 3).slips = 1 ∧ reg (after (.fragmentBegun 3 true 0) (armed 0)) (aSeqCount 3 4) = 1 ∧
    (getCh s0 3).arm = [] ∧
    (let s := withSec { sec5 with begun := 1 } s0
     findSec s 3 5 = some { sec5 with begun := 1 } ∧ sec5.passed = false ∧ 1 = sec5.frags.length ∧ 0x18 ∈ (getSq (after (.sectPassed 3 5) s) 3).latch) ∧ findSec s0 3 2047 = none ∧
    takeFirst (fun r : PosRec => r.isl == 1) (getCh s0 3).posq = none ∧
    (let s := setCh 3 { posq := [posOf 0 0] } (islands 1)
     takeFirst (fun r : PosRec => r.isl == 0) (getCh s 3).posq = some (posOf 0 0, []) ∧ islHealthy s 0 = true ∧ (getCh s 3).half = [] ∧ deciders s 3 = [0, 1] ∧
     (getCh (after (.positionRecord 0 3) s) 3).half = [posOf 0 0]) ∧
    (let s := setCh 3 { posq := [posOf 0 0] } (islands 2)
     deciders s 3 = [0] ∧ s.chan.ddb = [] ∧ (getSq s 3).clkMove = none ∧ (getCh s 3).busy = false ∧ ((getCh (after (.positionRecord 0 3) s) 3).last.map fun w => (w.no, w.recs)) = some (0, [posOf 0 0]) ∧
     0x03 ∈ (getSq (after (.positionRecord 0 3) s) 3).latch) ∧
    (let s := setCh 3 { posq := [posOf 1 0] } (islands 2)
     islHealthy s 1 = false ∧ takeFirst (fun r : PosRec => r.isl == 1) (getCh s 3).posq = some (posOf 1 0, []) ∧
     (getCh (after (.positionRecord 1 3) s) 3).posq = []) := by decide +kernel

/-- Sequencer 3 as given. -/
def sqIs (q : Seqr) : State := setSq 3 q s0
def seqOn (q : Seqr) : State := setReg (aSeqCtl 3) 1 (sqIs q)
theorem wit_SequencersAreControlled : (getSq (after (.seqTimerExpiry 3 false) (sqIs { t0 := some ⟨false, 0, 0, 5⟩ })) 3).t0 = none ∧
    0x0E ∈ (getSq (after (.seqTimerExpiry 3 true) (sqIs { t1 := some ⟨false, 0, 0, 5⟩ })) 3).latch ∧ (getSq s0 3).t0 = none ∧ Quiet (sqIs {}) ∧
    (let s := sqIs { inOp := true, stack := [1], waiting := true }
     (getSq s 3).inOp = true ∧ (getCh s 3).write = false ∧ (getCh s 3).sectors = [] ∧ s.chan.jobs = [] ∧ (getSq (after (.opLimitExpiry 3) s) 3).inOp = false ∧
     reg (after (.opLimitExpiry 3) s) (aSeqCount 3 1) = 1 ∧ regB (after (.stop 3) s) (aSeqCtl 3) 1 = true) ∧ (getSq s0 3).inOp = false ∧
    actPresent s0 3 = true ∧ regB s0 (aSeqCtl 3) 0 = false ∧ regB (after (.seqEn 3 true) s0) (aSeqCtl 3) 0 = true ∧
    (let s := seqOn { pc := 5, stack := [1], latch := [2], g := [(1, 7)] }
     regB s (aSeqCtl 3) 0 = true ∧ (getSq s 3).inOp = false ∧ (getSq (after (.seqEn 3 false) s) 3).pc = 0 ∧ getG (after (.seqEn 3 false) s) 3 1 = 0 ∧
     regB (after (.stop 3) s) (aSeqCtl 3) 1 = false) ∧
    (let s := setReg (aSeqBankState 3 1) 2 s0
     (2 : Fin 4) ≠ 3 ∧ 2 ≠ (getSq s 3).active ∧ bankValid s 3 2 = true ∧ (getSq (after (.bankSwitchRequest 3 2) s) 3).pend = some 2 ∧
     bankValid s 3 1 = false ∧ reg (after (.bankSwitchRequest 3 1) s) (aSeqCount 3 7) = 1) ∧
    (let s := seqOn { pend := some 2 }
     regB s (aSeqCtl 3) 0 = true ∧ switchHeld s = false ∧ (getSq (after (.bankSwitch 3) s) 3).active = 2 ∧ reg (after (.bankSwitch 3) s) (aSeqCount 3 6) = 1) ∧
    (getSq s0 3).pend = none ∧ regB (sqIs { pend := some 2 }) (aSeqCtl 3) 0 = false ∧ (getSq (after (.bankSwitch 3) (sqIs { pend := some 2 })) 3).active = 0 ∧ reg (after (.csSnapshot 3 8191) s0) (aSeqCsAddr 3) = 8191 := by decide +kernel

/-! Assist and calibration. -/

theorem wit_LoopsAndTemperature : Awake s0 ∧ Quiet s0 ∧ (∀ n, n < 4 → (getAst s0 n).fresh = false) ∧ cal8 s0 false (8 * 3 + (getHsl s0 3).head) 0 = 0 ∧
    (after (.loopTick [{}, {}, {}, {}]) s0).cal.td = 0 ∧ reg (after (.loopTick [{}, {}, {}, {}]) s0) (aAstDem 3) = 0 ∧ (getAst (after (.heaterRecordTimeout 3) s0) 3).noRec = true ∧
    (let s := setReg aCalCfg 0x100 (setReg aCalTempOvr 0xFF00 s0)
     regB s aCalCfg 8 = true ∧ (after .tDUpdate s).cal.td = -256 ∧ (after .tDUpdate s).cal.tsrc = 1) ∧
    regB s0 aCalCfg 8 = false ∧ validReadings s0 = [] ∧ (after .tDUpdate s0).cal.tsrc = 2 ∧
    (let s := setReg (aI3cCfg 3) 0x0C00AA91 (setReg aI3cCtl 1 s0)
     regB s (aI3cCfg 3) 0 = true ∧ regB s aI3cCtl 0 = true ∧ reg (after (.i3cSensorRead 3 none) s) aI3cErr = 1 ∧
     (smGet (fun _ => ({} : Sensor)) (after (.i3cSensorRead 3 (some 0)) s).cal.sens 3).run = 1) ∧
    (let s := setReg (aI3cCfg 3) 0x0C00AA91 s0
     regB s aI3cCtl 0 = false ∧ regB s (aI3cCfg 2) 0 = false ∧ (after (.i3cEn true 11) s).out = [.i3c 3 0x48 0x2A] ∧ regF (after (.i3cEn true 11) s) aI3cCtl 4 4 = 11) ∧
    regB (after (.i3cEn false 0) (setReg aI3cCtl 1 s0)) aI3cCtl 0 = false := by decide +kernel
/-- A staging block that is written. -/
def staged (h : Nat) (s : State) : State := setCal true h 8 41 (setCal true h 0 0x02010102 s)
theorem wit_CalibrationBlocksAreExchanged : s0.cal.check = none ∧ (after (.calCommit 31 false) s0).cal.check = some (31, false) ∧
    (after (.calCommit 31 false) s0).cal.check.isSome = true ∧ (after (.calCommit 0 true) (after (.calCommit 31 false) s0)).cal.check = some (31, false) ∧
    commitResult (after (.calCommit 31 false) s0) 31 false ≠ 0 ∧ reg (after .commitCheckDone (after (.calCommit 31 false) s0)) aCalReject = 1 ∧
    (let s := staged 31 { s0 with cal := { s0.cal with pending := 2 ^ 31, td := -1 } }
     bit s.cal.pending 31 = true ∧ writingHead s (31 / 8) (31 % 8) = false ∧ smWf (fun _ => (0 : Word)) s.cal.tab = true ∧ bit s.cal.restore 31 = false ∧
     (let t := after (.calExchange 31 false) s
      calWord t false 31 0 = 0x02010102 ∧ calWord t false 31 8 = 1 ∧ calWord t false 31 0xC = 0xFFFF ∧ calWord t true 31 0 = 0 ∧ reg t aCalApplied = 1)) ∧
    (let s := staged 31 { s0 with cal := { s0.cal with pending := 2 ^ 31, restore := 2 ^ 31 } }
     bit s.cal.restore 31 = true ∧ calWord (after (.calExchange 31 true) s) false 31 8 = 41 ∧ reg (after (.calExchange 31 true) s) aCalApplied = 0) ∧
    bit s0.cal.pending 31 = false ∧
    (let s := { s0 with cal := { s0.cal with trips := [(31, 3)] } }
     smGet (fun _ => 0) (after (.calTripClr 31 true false) s).cal.trips 31 = 2) := by decide +kernel
/-- A staging block of a laser head that breaks no rule; its type is what the preamplifier says. -/
def accepted : State :=
  let s := setReg aCalPresent 0x80000000 { s0 with cal := { s0.cal with check := some (31, false) } }
  let s := setCal true 31 0 0x01010102 (setCal true 31 4 2 s)
  let s := setCal true 31 0x30 0x00010000 (setCal true 31 0x34 0x00010001 s)
  setCal true 31 0x38 0x00010000 (setCal true 31 0x3C 0x00010001 (setCal true 31 0x4C 1 s))
theorem wit_commit_accepted (h : Config.preamp 3 8 = 0x15) : accepted.cal.check = some (31, false) ∧ commitResult accepted 31 false = 0 := by
  refine ⟨by decide +kernel, ?_⟩
  unfold commitResult
  simp only [h]
  decide +kernel

/-! Capture and replay. -/

/-- Stream 2 runs, and is frozen in part or whole. -/
noncomputable abbrev sCap : State := after (.captureEnable 2 15) sDram
noncomputable def stream2 (v : Stream) : State := setStream 2 v sCap
theorem wit_StreamsAreCapturedAndFrozen : Awake s0 ∧ capEnabled s0 3 = false ∧ capEnabled (after (.captureEnable 3 15) s0) 3 = true ∧
    regF (after (.captureEnable 3 15) s0) (aCapCtl 3) 4 4 = 15 ∧ getStream (after (.captureEnable 3 15) s0) 3 = {} ∧
    (getStream (stream2 { frozen := true, trigger := 9 }) 2).frozen = true ∧ (getStream (after (.rearm 2) (stream2 { frozen := true, trigger := 9 })) 2).frozen = false ∧
    capEnabled sCap 2 = true ∧ (getStream sCap 2).frozen = false ∧ (getStream sCap 2).freezing = false ∧
    (getStream (after .fire sCap) 2).freezing = true ∧ (getStream (after .fire sCap) 2).trigger = 128 ∧ getStream (after .fire s0) 2 = {} ∧
    (getStream (stream2 { freezing := true }) 2).left = 0 ∧ (getStream (after (.captureFrozen 2) (stream2 { freezing := true })) 2).frozen = true ∧
    (after (.captureFrozen 2) (stream2 { freezing := true })).cap.freezes = 1 ∧ (getStream (after (.captureFrozen 2) (stream2 { freezing := true, left := 1 })) 2).frozen = false ∧
    capEnabled s0 2 = false ∧ capSize (setReg (aCapSize 2) 16 sCap) 2 ≠ 0 ∧ wide s0 (aCapWrLo 2) = 0 ∧ (let s := setReg (aCapSize 2) 16 sCap; wide (after .branchSyncItem s) (aCapWrLo 2) = 32) := by decide +kernel

/-- A SECTOR entry at DRAM's start that can be replayed. -/
abbrev sEntry : State :=
  memWrite (dramBase + 0x110) [1] (memWrite (dramBase + 0x130) [0xB0] (memWrite (dramBase + 0x48) [0, 0, 0, 0x40, 6, 3, 6, 10] (memWrite dramBase [0x10] sDram)))
abbrev sServo : State := setIsl 1 { st := 1 } (memWrite dramBase [4, 13] sDram)
def rplIs (st kind : Nat) (due : Option Nat) : State := { s0 with cap := { s0.cap with rplState := st, rplKind := kind, rplDue := due } }
theorem wit_ReplaysRunAndEnd : sEntry.cap.rplState = 0 ∧ actPresent sEntry 3 = true ∧ regB sEntry (aChlCtl 3) 0 = false ∧ regB sEntry (aWrCtl 3) 0 = false ∧
    (getCh sEntry 3).busy = false ∧ entryBad sEntry 0 (dramBytes sEntry 0 0x240) = false ∧ poisoned sEntry 0 262144 = false ∧ reg sEntry aRplSrc * 64 = 0 ∧
    (after (.laneReplay 3 true 1) sEntry).cap.rplState = 1 ∧ (after (.laneReplay 3 true 65535) sEntry).cap.rplCount = 65535 ∧
    entryBad sDram 0 (dramBytes sDram 0 0x240) = true ∧ (after (.laneReplay 3 true 1) sDram).cap.rplResult = 3 ∧
    regB (setReg (aChlCtl 3) 1 s0) (aChlCtl 3) 0 = true ∧ (after (.laneReplay 3 true 1) (setReg (aChlCtl 3) 1 s0)).cap.rplResult = 2 ∧
    servoIdle sServo 1 3 = true ∧ servoInput sServo 1 3 = true ∧ (after (.servoReplay 1 3 1) sServo).cap.rplState = 1 ∧
    servoIdle s0 1 3 = false ∧ (after (.servoReplay 1 3 1) s0).cap.rplResult = 2 ∧
    (let s := setIsl 1 { st := 1 } sDram
     servoIdle s 1 3 = true ∧ servoInput s 1 3 = false ∧ (after (.servoReplay 1 3 1) s).cap.rplResult = 3) ∧
    (after (.replayDone 0) (rplIs 1 1 (some 1))).cap.rplResult = 1 ∧ (rplIs 1 2 none).cap.rplKind ≠ 1 ∧ (after (.replayDone 3) (rplIs 1 2 none)).cap.rplState = 2 ∧
    (after .replayAck (rplIs 2 1 none)).cap.rplState = 0 ∧ s0.cap.rplState ≠ 1 ∧ s0.cap.rplState ≠ 2 := by decide +kernel

/-! The recorder. -/

def recIn (f : Strata → Strata) (s : State) : State := { s with strata := f s.strata }
theorem wit_RecordsAreNumberedQueuedAndCopied :
    bits 0x7FF 0 12 < 0x800 ∧ reg (after (.fwRecord 63 0x7FF) s0) (aStrataCount 5) = 1 ∧ bits (0x800 + 61 * 65536) 16 6 % 2 = 1 ∧ 60 < bits (0x800 + 62 * 65536) 16 6 ∧
    0x800 ≤ bits (0xFFF + 60 * 65536) 0 12 ∧ bits (0xFFF + 60 * 65536) 16 6 % 2 = 0 ∧ bits (0xFFF + 60 * 65536) 16 6 ≤ 60 ∧ rateOf (setReg (aRateLimit 0xFFF) 0 s0) 0xFFF = 0 ∧
    (getBucket s0 (srcClu 7) 0xFFF).suppressed = 0 ∧ (s0.strata.queue.filter fun r => r.src == srcClu (63 / 8)).length < 8 ∧
    ((after (.fwRecord 63 (0xFFF + 60 * 65536)) (setReg (aRateLimit 0xFFF) 0 s0)).strata.queue.map fun r => (r.src, r.code, r.args.length)) = [(srcSys, 1, 3), (srcClu 7, 0xFFF, 30)] ∧
    (let s := setReg (aRateLimit 0x800) 1 s0
     rateOf s 0x800 ≠ 0 ∧ bucketTokens s (srcClu 7) 0x800 < oneToken ∧ (after (.fwRecord 63 0x800) s).strata.queue.length = 1 ∧
     (getBucket (after (.fwRecord 63 0x800) s) (srcClu 7) 0x800).suppressed = 1) ∧
    (s0.strata.queue.map (·.args.length)) = [3] ∧ s0.strata.stopped = false ∧ s0.strata.onMirror = false ∧ (after .recorderTake s0).strata.head = 40 ∧
    (let s := recIn (fun x => { x with onMirror := true, mirrorRun := true }) s0
     (after .recorderTake s).mirror.mhead = 40 ∧ (after .recorderTake s).strata.head = 0) ∧
    (after .recorderTake s0).strata.queue = [] ∧
    (let s := recIn (fun x => { x with mirrorRun := true }) (after .recorderTake s0)
     (nextUncopied s).isSome = true ∧ s.strata.mirrorRun = true ∧ s.strata.onMirror = false ∧ s.strata.stopped = false ∧ s.host.ctrls = [] ∧
     (after (.mirrorCopy .good) s).strata.copied = 40 ∧ (after (.mirrorCopy .good) s).mirror.ring.length = 1 ∧
     (after (.mirrorCopy .corrected) s).strata.copied = 40 ∧ reg (after (.mirrorCopy .corrected) s) (aStrataCount 3) = 1 ∧
     (after (.mirrorCopy .uncorrectable) s).strata.onMirror = true ∧ ((after (.mirrorCopy .uncorrectable) s).strata.queue.head?.map (·.code)) = some 0xC1) ∧ s0.strata.mirrorRun = false ∧
    (let s := setBucket (srcClu 7) 0xFFF { suppressed := 2 } s0
     (getBucket s (srcClu 7) 0xFFF).suppressed ≠ 0 ∧ (after (.suppressed ⟨srcClu 7, by decide⟩ 0xFFF) s).strata.queue.length = 2) ∧
    (let s := setReg (aRateLimit 0xFFF) 1 (setBucket (srcClu 7) 0xFFF { suppressed := 2 } s0)
     bucketTokens s (srcClu 7) 0xFFF < oneToken ∧ rateOf s 0xFFF ≠ 0 ∧ (after (.suppressed ⟨srcClu 7, by decide⟩ 0xFFF) s).strata.queue.length = 1) := by decide +kernel
theorem wit_SnapshotsWallClockAndMirrorMode : reg (after .snap s0) (aSnapSeq srcSys) = 0 ∧ reg (after .snap s0) (aSnapSeq 63) = 2 ^ 32 - 1 ∧
    wallNow (after .wset (setReg aWallNewHi 1 (setReg aWallNewLo 5 s0))) = 2 ^ 32 + 5 ∧ (after .wset s0).mirror.epoch = 1 ∧
    s0.strata.onMirror = false ∧ reg (after (.sramScrub 3 none) s0) (aStrataCount 3) = 3 ∧ s0.host.ctrls = [] ∧
    (let t := after (.sramScrub 0 (some 4194303)) s0
     t.strata.onMirror = true ∧ faultPresent t 0x44 0 = true ∧ (t.strata.queue.head?.map fun r => (r.src, r.code, r.args.head?)) = some (srcStrata, 0xC1, some 4194303) ∧
     (after .retestStrata t).strata.retest = true ∧
     (let u := after .retestStrata t
      u.host.ctrls = [] ∧ (after (.retestStrataDone false) u).strata.retest = false ∧ (after (.retestStrataDone true) u).strata.onMirror = false ∧
      faultPresent (after (.retestStrataDone true) u) 0x44 0 = false)) ∧
    (after .retestStrata s0).strata.retest = false ∧ s0.strata.retest = false := by decide +kernel

/-! ### Witnesses: microwords -/

/-- A word of operands and NEXT, without a wait. -/
def mw (opd next : Nat) (h : opd < 2097152 := by decide) (h2 : next < 8192 := by decide) : MWord := { opd := ⟨opd, h⟩, wait := 0, cond := 0, next := ⟨next, h2⟩ }
/-- Gd, Ga, Gb and the 13-bit immediate in their places. -/
abbrev oD (d : Nat) : Nat := d * 2 ^ 17
abbrev oA (a : Nat) : Nat := a * 2 ^ 13
abbrev oB (b : Nat) : Nat := b * 2 ^ 9
/-- Sequencer 3 enabled with G1 = 5 and G2 = 7, in ROM. -/
def seqG : State := seqOn { pc := 9, g := [(1, 5), (2, 7)], latch := [0x0D, 0x0E, 0x17] }
def gAfter (i : Instr) (k : Nat) : Nat := getG (after i seqG) 3 k
theorem wit_PlainMicrowordsCompute_runs : Awake seqG ∧ Quiet seqG ∧ capEnabled seqG 2 = false ∧
    (∀ o ∈ [(0, mw 0 8), (1, mw (oD 15 + 0x1FFFF) 8), (2, mw (oD 1 + 0xFFFF) 8), (3, mw (oD 3 + oA 1) 8), (4, mw (oD 3 + oA 1 + 0x1FFF) 8),
      (5, mw (oD 3 + oA 1 + oB 2) 8), (6, mw (oD 3 + oA 1 + oB 2) 8), (7, mw (oD 3 + oA 1 + oB 2) 8), (8, mw (oD 3 + oA 1 + oB 2) 8), (9, mw (oA 1 + oB 2) 8),
      (0xA, mw (oA 1 + 0x1FFB) 8), (0xF, mw (oD 3 + 0x14) 8), (0x10, mw (2 ^ 20 + 9) 8), (0x10, mw 0 8), (0x11, { mw 0 8 with cond := 0x17 }), (0x19, mw (oA 1) 8),
      (0x18, mw (oD 3 + oA 1) 8)], Runs 3 o.1 o.2 seqG) := by decide +kernel
theorem wit_PlainMicrowordsCompute_results : (getSq (after (.mwNop 3 (mw 0 0x7FF)) seqG) 3).pc = 0x7FF ∧ (getSq (after (.mwNop 3 (mw 0 8)) seqG) 3).pc = 8 ∧
    gAfter (.mwLdi 3 (mw (oD 15 + 0x1FFFF) 8)) 15 = 0x1FFFF ∧ gAfter (.mwLdhi 3 (mw (oD 1 + 0xFFFF) 8)) 1 = 0xFFFF0005 ∧ gAfter (.mwMov 3 (mw (oD 3 + oA 1) 8)) 3 = 5 ∧
    gAfter (.mwAddi 3 (mw (oD 3 + oA 1 + 0x1FFF) 8)) 3 = 4 ∧ gAfter (.mwAdd 3 (mw (oD 3 + oA 1 + oB 2) 8)) 3 = 12 ∧
    gAfter (.mwSub 3 (mw (oD 3 + oA 1 + oB 2) 8)) 3 = 0xFFFFFFFE ∧ (getSq (after (.mwSub 3 (mw (oD 3 + oA 1 + oB 2) 8)) seqG) 3).lt = true ∧
    gAfter (.mwAnd 3 (mw (oD 3 + oA 1 + oB 2) 8)) 3 = 5 ∧ gAfter (.mwOr 3 (mw (oD 3 + oA 1 + oB 2) 8)) 3 = 7 ∧
    (getSq (after (.mwCmp 3 (mw (oA 1 + oB 2) 8)) seqG) 3).lt = true ∧ (getSq (after (.mwCmpi 3 (mw (oA 1 + 0x1FFB) 8)) seqG) 3).lt = false ∧
    (getSq (after (.mwCmpi 3 (mw (oA 1 + 5) 8)) seqG) 3).z = true ∧ gAfter (.mwLdf 3 (mw (oD 3 + 0x14) 8)) 3 = 0 ∧
    ((getSq (after (.mwTmr 3 (mw (2 ^ 20 + 9) 8)) seqG) 3).t1.map (·.left)) = some 9 ∧ (getSq (after (.mwTmr 3 (mw (2 ^ 20 + 9) 8)) seqG) 3).latch = [0x0D, 0x17] ∧
    (getSq (after (.mwClr 3 { mw 0 8 with cond := 0x17 }) seqG) 3).latch = [0x0D, 0x0E] ∧ (getSq (after (.mwSetsect 3 (mw (oA 1) 8)) seqG) 3).ptr = 5 ∧
    (getSq seqG 3).inOp = false ∧ gAfter (.mwSlot 3 (mw (oD 2 + oA 1) 8)) 2 = 0 := by decide +kernel
/-- A word with a condition and a kind of wait. -/
def mwc (opd next : Nat) (wait : Fin 4) (cond : Fin 64) (h : opd < 2097152 := by decide) (h2 : next < 8192 := by decide) : MWord :=
  { opd := ⟨opd, h⟩, wait := wait, cond := cond, next := ⟨next, h2⟩ }
def deep : State := seqOn { pc := 9, stack := [4, 3, 2, 1] }
def pcOf (i : Instr) (s : State) : Nat := (getSq (after i s) 3).pc
theorem wit_MicrowordsBranchAndWait_flow : condTrue seqG 3 0x17 = true ∧ condTrue seqG 3 0x18 = false ∧ addrGood seqG 3 0x7FF = true ∧
    Runs 3 0x0B (mwc 0x7FF 8 0 0x17) seqG ∧ Runs 3 0x0C (mwc 0x7FF 8 0 0x18) seqG ∧ pcOf (.mwBrt 3 (mwc 0x7FF 8 0 0x17)) seqG = 0x7FF ∧
    pcOf (.mwBrt 3 (mwc 0x7FF 8 0 0x18)) seqG = 8 ∧ pcOf (.mwBrf 3 (mwc 0x7FF 8 0 0x18)) seqG = 0x7FF ∧
    Runs 3 0x0D (mw 0x7FF 8) seqG ∧ (getSq seqG 3).stack.length < 4 ∧ (getSq (after (.mwCall 3 (mw 0x7FF 8)) seqG) 3).stack = [8] ∧
    Runs 3 0x0D (mw 0x7FF 8) deep ∧ 4 ≤ (getSq deep 3).stack.length ∧ (getSq deep 3).inOp = false ∧ (getSq deep 3).active = 0 ∧
    pcOf (.mwCall 3 (mw 0x7FF 8)) deep = 0 ∧ reg (after (.mwCall 3 (mw 0x7FF 8)) deep) (aSeqCount 3 3) = 1 ∧
    Runs 3 0x0E (mw 0 0) deep ∧ (getSq deep 3).stack = 4 :: [3, 2, 1] ∧ addrGood deep 3 4 = true ∧ pcOf (.mwRet 3 (mw 0 0)) deep = 4 ∧
    Runs 3 0x0E (mw 0 0) seqG ∧ (getSq seqG 3).stack = [] ∧ reg (after (.mwRet 3 (mw 0 0)) seqG) (aSeqCount 3 3) = 1 := by decide +kernel
theorem wit_MicrowordsBranchAndWait_waits : wordAt seqG 3 (wordBits 0 (mwc 0 8 1 0x17)) = true ∧ wordGood (wordBits 0 (mwc 0 8 1 0x17)) = true ∧
    wordGood (wordBits 0 (mwc 0 8 2 0x18)) = true ∧ wordGood (wordBits 0 (mwc 0 8 3 0x18)) = true ∧ addrGood seqG 3 8 = true ∧ condTrue seqG 3 0x0D = true ∧
    (getSq (after (.mwNop 3 (mwc 0 8 1 0x18)) seqG) 3).waiting = true ∧ pcOf (.mwNop 3 (mwc 0 8 1 0x18)) seqG = 9 ∧ pcOf (.mwNop 3 (mwc 0 8 1 0x17)) seqG = 8 ∧
    (getSq (after (.mwNop 3 (mwc 0 8 1 0x17)) seqG) 3).latch = [0x0D, 0x0E] ∧ pcOf (.mwNop 3 (mwc 0 8 2 0x18)) seqG = 8 ∧ pcOf (.mwNop 3 (mwc 0 8 2 0x17)) seqG = 9 ∧
    pcOf (.mwNop 3 (mwc 0 8 3 0x18)) seqG = 8 ∧ (getSq (after (.mwNop 3 (mwc 0 8 3 0x18)) seqG) 3).latch = [0x0E, 0x17] ∧
    reg (after (.mwNop 3 { mw 0 8 with err := .corrected }) seqG) (aSeqCount 3 5) = 1 ∧
    reg (after (.mwNop 3 { mw 0 8 with err := .uncorrectable }) seqG) (aSeqCount 3 3) = 1 ∧ wordGood (wordBits 0 (mw 1 8)) = false ∧
    reg (after (.mwNop 3 (mw 1 8)) seqG) (aSeqCount 3 3) = 1 ∧ regB s0 (aSeqCtl 3) 0 = false ∧ pcOf (.mwNop 3 (mw 0 8)) s0 = 0 := by decide +kernel

/-- An operation of one slot in hand at sequencer 3, with its layout at DRAM's offset 64: one fragment of 576 words. -/
def dsc1 : List Byte := padTo 128 ([1] ++ zeros 31 ++ leBytes 8 64 ++ leBytes 2 0 ++ leBytes 2 1 ++ zeros 20 ++ leBytes 8 0x1000)
abbrev inOp (w : Bool) : State :=
  setCh 3 { busy := true, write := w, dsc := dsc1, wset := zeros 28 ++ [2] } (setSq 3 { pc := 9, inOp := true } (setReg (aSeqCtl 3) 1
    (memWrite (dramBase + 64) (leBytes 2 216 ++ [0, 1] ++ leBytes 3 2000 ++ leBytes 2 576) sDram)))
theorem wit_TrackOperations_read : Runs 3 0x12 (mw (oA 2) 8) seqG ∧ (getHsl seqG 3).writeEn = false ∧ headBad seqG 3 7 = false ∧
    (let s := { seqG with boot := { seqG.boot with acts := [(3, 1)] } }
     Runs 3 0x12 (mw (oA 2) 8) s ∧ getG s 3 (opGa (mw (oA 2) 8)) % 8 = 7 ∧ headBad s 3 7 = true ∧ (getSq (after (.mwSelhd 3 (mw (oA 2) 8)) s) 3).head = 0) ∧
    (getHsl (after (.mwSelhd 3 (mw (oA 2) 8)) seqG) 3).head = 7 := by decide +kernel
theorem wit_TrackOperations_load : Quiet (inOp false) ∧ Runs 3 0x13 (mw 0 8) (inOp false) ∧ (getSq (inOp false) 3).inOp = true ∧ (getSq (inOp false) 3).ptr < dFirst dsc1 + dCount dsc1 ∧
    poisoned (inOp false) 64 32 = false ∧ dLayout dsc1 + 32 * 0 = 64 ∧ layoutGood (dramBytes (inOp false) 64 32) false = true ∧
    ((getSq (after (.mwLdsect 3 (mw 0 8)) (inOp false)) 3).loaded.map (·.frags)) = some [(2000, 576)] ∧
    (let s := after (.mwLdsect 3 (mw 0 8)) (inOp false)
     ((getSq s 3).loaded.map fun x => decide (x.armed < x.frags.length) && !rereadSpent s x) = some true ∧ Runs 3 0x14 (mw 0 8) s ∧
     (getCh s 3).arm.length < 4 ∧ ((getSq s 3).loaded.map fun x => beyondReach s 3 x) = some true ∧ (getCh s 3).results = [] ∧
     (getCh (after (.mwArmf 3 (mw 0 8)) s) 3).results = [5 * 65536 + 4095 * 2 ^ 20] ∧
     (let s := setCh 3 { getCh s 3 with ctl := 0x100 } s
      Runs 3 0x14 (mw 0 8) s ∧ ((getSq s 3).loaded.map fun x => beyondReach s 3 x) = some false ∧
      (getCh (after (.mwArmf 3 (mw 0 8)) s) 3).arm = [(0, 0)] ∧ (getCh (after (.mwArmf 3 (mw 0 8)) s) 3).sectors.length = 1)) := by decide +kernel
theorem wit_TrackOperations_results :
    (let s := setCh 3 { getCh (inOp false) 3 with results := [0xFFF10005] } (inOp false)
     Runs 3 0x15 (mw (oD 2) 8) s ∧ (getCh s 3).results = 0xFFF10005 :: [] ∧ dRes dsc1 + 4 * (0xFFF10005 % 2048) + 4 ≤ dramUsable s ∧
     getG (after (.mwPopres 3 (mw (oD 2) 8)) s) 3 2 = 0xFFF10005 ∧ dramNat (after (.mwPopres 3 (mw (oD 2) 8)) s) (0x1000 + 20) 4 = 0xFFF10005) := by decide +kernel
theorem wit_TrackOperations_write : Runs 3 0x16 (mw 0 8) (inOp true) ∧ (getCh (inOp true) 3).write = true ∧ (getCh (inOp true) 3).revs < wsRevMax (getCh (inOp true) 3).wset ∧
    (∀ i, i < dCount (getCh (inOp true) 3).dsc → (getW (getCh (inOp true) 3) i).recopy = false) ∧ (getCh (after (.mwRev 3 (mw 0 8)) (inOp true)) 3).revs = 1 ∧
    (let s := setCh 3 { getCh (inOp true) 3 with revs := 2 } (inOp true)
     wsRevMax (getCh s 3).wset ≤ (getCh s 3).revs ∧ (getW (getCh (after (.mwRev 3 (mw 0 8)) s) 3) 0).st = 4) ∧
    Runs 3 0x17 (mw 0 8) (inOp true) ∧ (getCh (inOp true) 3).rdback = false ∧ reg (after (.mwRdback 3 (mw 0 8)) (inOp true)) (aWr 3 7) = 1 ∧
    Runs 3 0x1A (mw 0 8) seqG ∧ pcOf (.mwSignal 3 (mw 0 8)) seqG = 8 ∧
    Runs 3 0x1B (mw 0 8) (inOp false) ∧ (getCh (inOp false) 3).sectors = [] ∧ (inOp false).chan.jobs = [] ∧ (getSq (after (.mwDone 3 (mw 0 8)) (inOp false)) 3).inOp = false ∧
    reg (after (.mwDone 3 (mw 0 8)) (inOp false)) (aSeqCount 3 0) = 1 := by decide +kernel
/-- FETCH stands in the ROM at address 2 alone. -/
abbrev at2 : State := seqOn { pc := 2 }
/-- A descriptor in the operation ring of sequencer 3 (DRAM page 1): a read of one sector, of kind 1. -/
def dscRead : List Byte :=
  padTo 128 ([1] ++ zeros 21 ++ leBytes 2 1 ++ zeros 8 ++ leBytes 8 0x2000 ++ leBytes 2 0 ++ leBytes 2 1 ++ leBytes 2 0 ++ leBytes 2 1 ++ leBytes 8 0x4000 ++ zeros 8 ++ leBytes 8 0x3000)
abbrev ringOf (d : List Byte) : State :=
  setReg (aPset 0) 0x40000000 (setReg (aPset 0 + 4) 0x0A060306 (setReg (aChlCtl 3) 1 (setReg (aSeqOpqCfg 3) 4 (setReg (aSeqOpqBase 3) 1 (setReg (aSeqOpqIdx 3) 1
    (memWrite (dramBase + 4096) d { at2 with mem := sDram.mem, regs := at2.regs })))))) |> after (.dramCfgLock 0x85)
theorem wit_TrackOperations_fetch : Runs 3 0x1C (mw 0x10 8) at2 ∧ (getSq at2 3).inOp = false ∧ opAvail at2 3 = false ∧
    (getSq (after (.mwFetch 3 (mw 0x10 8)) at2) 3).waiting = true ∧
    (let s := ringOf dscRead
     Runs 3 0x1C (mw 0x10 8) s ∧ opAvail s 3 = true ∧ regF s (aSeqOpqIdx 3) 16 8 = 0 ∧ dramBytes s 4096 128 = dscRead ∧ poisoned s 4096 128 = false ∧ descGood s 3 dscRead = true ∧
     dFlag dscRead 4 = false ∧ regB s (aChlCtl 3) 0 = true ∧ capEnabled s 2 = false ∧ psetGood (regBytes s (aPset (dPset dscRead)) 48) = true ∧
     addrGood s 3 ((opTarget (mw 0x10 8) + dKind dscRead) % 8192) = true ∧ pcOf (.mwFetch 3 (mw 0x10 8)) s = 0x11 ∧
     (getSq (after (.mwFetch 3 (mw 0x10 8)) s) 3).inOp = true ∧ (getCh (after (.mwFetch 3 (mw 0x10 8)) s) 3).busy = true) := by decide +kernel
theorem wit_TrackOperations_reject :
    (let s := ringOf (dscRead.set 5 1)
     opAvail s 3 = true ∧ descGood s 3 (dscRead.set 5 1) = false ∧ reg (after (.mwFetch 3 (mw 0x10 8)) s) (aSeqCount 3 2) = 1 ∧
     regF (after (.mwFetch 3 (mw 0x10 8)) s) (aSeqOpqIdx 3) 16 8 = 1) := by decide +kernel
/-- Sequencer 3 in ROM addresses of bank 0's fallback, three microcode faults of that bank within the second. -/
def faulty : State := seqOn { pc := 9, active := 1, faultAt := [0, 0, 0] }
theorem wit_PatchBanksFallBackToRom :
    (let s := setReg (aRateLimit 0x142) 0 faulty
     let w := { mw 0 8 with err := .uncorrectable }
     Awake s ∧ Quiet s ∧ actPresent s 3 = true ∧ regB s (aSeqCtl 3) 0 = true ∧ wordAt s 3 (wordBits 0 w) = true ∧ (getSq s 3).active ≠ 0 ∧
     3 ≤ ((getSq s 3).faultAt.filter fun a => decide (s.now - a < 1000000000)).length ∧ rateOf s 0x142 = 0 ∧
     (s.strata.queue.filter fun r => r.src == srcSeq 3).length ≤ 2 ∧ (getSq (after (.mwNop 3 w) s) 3).active = 0 ∧
     viewReg (after (.mwNop 3 w) s) (aSeqBankSel 3) = 0 ∧ ((after (.mwNop 3 w) s).strata.queue.any fun r => r.src == srcSeq 3 && r.code == 0x142) = true) := by decide +kernel

/-! ### Witnesses: the islands' loops, frames and the Tandem link -/

/-- The other variant. -/
def onBf (s : State) : State := { s with variant := .bf }
/-- The loop of an actuator as given. -/
def loopIs (x n : Nat) (a : ActSt) (s : State) : State := setAct x n a s
/-- Island 1 serves actuator 3, both islands healthy; the Tandem lanes and the status lane are on. -/
noncomputable def sBas : State := after (.tandemLaneEnable true true true) (islands 1)
def armedBy (i : Instr) (s : State) : Option (Nat × Nat × Option Nat × Bool) := (getAct (after i s) 1 3).armed.map fun k => (k.mode, k.bank, k.due, k.late)
theorem wit_ServoCommandsAreArmed : Awake sBas ∧ islHeld sBas 1 = false ∧ actPresent sBas 3 = true ∧ basWedges sBas 1 = 600 ∧
    armedBy (.seekCommand 1 3 true false 1) sBas == some (2, 1, some 1, false) ∧ armedBy (.seekCommand 1 3 false false 64) sBas == some (2, 0, some 64, false) ∧
    armedBy (.manualCommand 1 3 true false 65) sBas == some (1, 1, none, true) ∧ armedBy (.parkedCommand 1 3 true false 0) sBas == some (0, 1, none, true) ∧
    armedBy (.parkedCommand 1 3 true true 0) sBas == some (0, 1, none, false) := by decide +kernel
theorem wit_ServoCommandsAreArmed_not : armedBy (.seekCommand 1 3 true false 64) (loopIs 1 3 { wedge := 599 } sBas) == some (2, 1, none, true) ∧
    armedBy (.seekCommand 1 3 true false 63) (loopIs 1 3 { wedge := 599 } sBas) == some (2, 1, some 63, false) ∧
    islHeld (islands 5) 1 = true ∧ armedBy (.seekCommand 1 3 true true 0) (islands 5) = none ∧
    actPresent (onBf sBas) 3 = false ∧ armedBy (.seekCommand 1 3 true true 0) (onBf sBas) = none := by decide +kernel

/-- A reader without a servo mark, and one that found a wedge. -/
def rd0 : Reader := { sam := false, wedge := none, track := none, rro := none, enough := false, n := 0, q := 0 }
def rdAt (w : Nat) : Reader := { rd0 with sam := true, wedge := some w, track := some 5, rro := some 1 }
def obs (r : Reader) : WedgeObs := { a := r, b := rd0, samTime := 7, hsw := false, inBurst := false }
/-- The loop of actuator 3 in island 1, with the link's lane 0 up. -/
noncomputable def sLoop (a : ActSt) : State := loopIs 1 3 a (laneIn 0 3 sBas)
def follow : ActSt := { mode := mTrack, locked := true, wedge := 599, coast := 14 }
def actAfter (i : Instr) (s : State) : ActSt := getAct (after i s) 1 3
/-- What island 1 sees of a wedge of actuator 3 in streams that hold nothing. -/
def seen (s : State) : WedgeObs := seenWedge s 3 (observe s 1 3 7 (headEntry s 1 3))
/-- The head's entry is in range: 200 quarter-cells in each burst. -/
def headOk (s : State) : State := setCm 1 (0x2000 + 3 * 0x200 + 8) (200 * 64) s
theorem wit_ServoFramesAreComputedAndSent_wedges :
    (let s := sLoop follow
     Awake s ∧ Quiet s ∧ serves s 1 3 = true ∧ (getAct s 1 3).mode ≠ mParked ∧ servoHead s 3 = some 0 ∧ capEnabled s 0 = false ∧ (getAct s 1 3).locked = true ∧
     (seen s).inBurst = false ∧ (getAct s 1 3).coast < 15 ∧
     (demodNow 1 3 (seen s) s).y.isNone = true ∧ (demodNow 1 3 (seen s) s).found = false ∧
     (let t := after (.wedgeComputation 1 3 7 false .good) s
      (getAct t 1 3).wedge = 0 ∧ (getAct t 1 3).coast = 15 ∧ reg t (aBasCount 1 3 1) = 1 ∧ (getAct t 1 3).frame.length = 8 ∧ t.tdm.wire.length = 1 ∧ wide t (aTdmFramesLo 1) = 1)) ∧
    (let s := headOk (sLoop { follow with wedge := 4 })
     (demod (headWord s 1 3 0) 600 { follow with wedge := 4 } (obs (rdAt 5))).found = true ∧ (demod (headWord s 1 3 0) 600 { follow with wedge := 4 } (obs (rdAt 6))).found = false) ∧
    serves s0 1 3 = false ∧ serves (sLoop {}) 1 3 = true ∧ (getAct (sLoop {}) 1 3).mode = mParked ∧
    (let s := sLoop { mode := mManual, run := 2 }
     (getAct s 1 3).mode = mManual ∧ (getAct s 1 3).locked = false ∧ (demodNow 1 3 (seen s) s).found = false ∧
     (actAfter (.wedgeComputation 1 3 7 false .good) s).run = 0) ∧
    islHealthy (sLoop follow) 1 = true ∧ (getIsl (after (.wedgeComputation 1 3 7 true .uncorrectable) (sLoop follow)) 1).st = 2 ∧
    faultPresent (after (.wedgeComputation 1 3 7 true .uncorrectable) (sLoop follow)) 4 1 = true := by decide +kernel
theorem wit_ServoFramesAreComputedAndSent_cutoff :
    (let a : ActSt := { follow with late := some ([7, 9, 8], true), frame := [7, 8, 8, 1, 2, 3, 4, 4] }
     let s := sLoop a
     (getAct s 1 3).late = some ([7, 9, 8], true) ∧ [7, 9, 8].length = 3 ∧ (getAct s 1 3).lateRun = 0 ∧
     (actAfter (.deadlineCutoff 1 3) s).frame = [0x87, 9, 8, 1, 2, 3, 4, 12] ∧ (actAfter (.deadlineCutoff 1 3) s).lateRun = 1 ∧
     (let u := loopIs 0 3 { follow with lateRun := 0 } (sLoop { a with lateRun := 1 })
      (getAct u 1 3).late = some ([7, 9, 8], true) ∧ (getAct u 1 3).lateRun = 1 ∧ u.pwr.phase = .running ∧ islHealthy u 1 = true ∧ peerOnTime u 1 3 = true ∧
      (getIsl (after (.deadlineCutoff 1 3) u) 1).st = 2 ∧ faultPresent (after (.deadlineCutoff 1 3) u) 3 1 = true)) ∧
    (getAct s0 1 3).late = none ∧
    (let s := sLoop { wedge := 599 }
     Awake s ∧ serves s 1 3 = true ∧ (getAct s 1 3).mode = mParked ∧ (getAct s 1 3).armed = none ∧ capEnabled s 0 = false ∧ (getSq s 3).clkMove = none ∧
     (actAfter (.freeRunningFrame 1 3) s).wedge = 0 ∧ (actAfter (.freeRunningFrame 1 3) s).frame.length = 8 ∧ (after (.freeRunningFrame 1 3) s).tdm.wire.length = 1) ∧
    (getAct (sLoop follow) 1 3).mode ≠ mParked ∧ (getAct (sLoop follow) 1 3).mode ≠ mManual ∧
    (getAct (sLoop { mode := mManual, locked := true }) 1 3).mode = mManual ∧ (getAct (sLoop { mode := mManual, locked := true }) 1 3).locked = true := by decide +kernel

theorem wit_IslandRegistersAndScrub : Awake s0 ∧ islHeld s0 1 = false ∧ regB s0 (aBasCfg 1) 31 = false ∧ (getIsl s0 1).st = 0 ∧ regB s0 (aBasCtl 1) 0 = false ∧
    basWedges (after (.basCfgLock 1 256 5400) s0) 1 = 256 ∧ reg (after (.basCfgLock 1 256 5400) s0) (aBasSpinN 1) = spinN 5400 256 ∧
    basWedges (after (.basCfgLock 1 1024 7200) s0) 1 = 1024 ∧ spinN 7200 1024 = 3516 ∧
    (let s := after (.basCfgLock 1 1024 7200) s0
     islHeld s 1 = false ∧ regB s (aBasCfg 1) 31 = true ∧ bits (reg s (aBasCfg 1)) 0 24 ≠ (256 : Fin 2048) + (5400 : Fin 8192) * 2048 ∧
     reg (after (.basCfgLock 1 256 5400) s) aLockViol = 1 ∧
     (getIsl s 1).st = 0 ∧ (getIsl s 1).code = 0 ∧ railOk s 1 = true ∧ (getIsl s 1).clockBad = false ∧ s.host.ctrls = [] ∧
     islHealthy (after (.basCtlEn 1 true 15) s) 1 = true ∧ (getIsl (after (.basCtlEn 1 false 15) s) 1).st = 0) ∧
    islHeld sBas 1 = false ∧ (getIsl (after (.basCtlEn 1 false 15) sBas) 1).st = 0 ∧
    reg (after (.coefficientMemoryScrub 1 5 0) sBas) (aBasCmemCe 1) = 5 ∧ (1 : Nat) ≠ 0 ∧ sBas.pwr.phase = .running ∧ islHealthy sBas 1 = true ∧
    (getIsl (after (.coefficientMemoryScrub 1 5 1) sBas) 1).st = 2 ∧ faultPresent (after (.coefficientMemoryScrub 1 5 1) sBas) 4 1 = true ∧
    islHeld (islands 2) 1 = true ∧ reg (after (.coefficientMemoryScrub 1 5 1) (islands 2)) (aBasCmemCe 1) = 0 := by decide +kernel

/-- A frame on a lane, with its code. -/
def onLane (l : Nat) (bs : List Byte) : Nat × List Byte := (l, bs ++ leBytes 2 (crc16 bs).toNat)
def wired (ws : List (Nat × List Byte)) (s : State) : State := { s with tdm := { s.tdm with wire := ws } }
def lanesBad (m : SMap Nat) (s : State) : State := { s with red := { s.red with tlBad := m } }
def told (bs : List (List Byte)) (s : State) : State := { s with tdm := { s.tdm with status := bs } }
def frm (isl seq d : Byte) : List Byte := [3 + isl * 4, seq, 0, d, 0, 0, 0, 0]
def meas0 : DrvMeas := { vcmI := 5, spin := 6, flags := 7, parked := false }
def drvHas (bs : List Byte) (s : State) : State := setDrv 3 { getDrv s 3 with frame := bs } s
theorem wit_TandemFramesAreSentAndTaken_lanes : Awake sBas ∧ regB sBas aTdmCtl 1 = true ∧ regB (after (.tandemLaneEnable false false true) s0) aTdmCtl 2 = true ∧
    islOn sBas 1 = true ∧ islHealthy sBas 1 = true ∧ (after (.spindleFrame 1) sBas).tdm.wire = [onLane 1 [12, 0, 0, 0, 0, 0, 0, 0]] ∧ islOn s0 1 = false ∧
    takeFirst (fun e : Nat × List Byte => e.1 == (1 : Fin 2).val) s0.tdm.wire = none ∧
    (let s := wired [onLane 0 (frm 0 1 0), onLane 1 (frm 1 1 0)] s0
     takeFirst (fun e => e.1 == (1 : Fin 2).val) s.tdm.wire = some (((1 : Fin 2).val, (onLane 1 (frm 1 1 0)).2), [onLane 0 (frm 0 1 0)]) ∧
     fieldN (onLane 1 (frm 1 1 0)).2 8 2 = (crc16 ((onLane 1 (frm 1 1 0)).2.take 8)).toNat ∧ fieldN (zeros 8 ++ [1, 2]) 8 2 ≠ (crc16 ((zeros 8 ++ [1, 2]).take 8)).toNat ∧
     bit (fieldN (onLane 1 (frm 1 1 0)).2 0 1) 3 = false ∧ (getDrv s (fieldN (onLane 1 (frm 1 1 0)).2 0 1 % 4)).frame = [] ∧
     (after (.driverFrame 1 false meas0) s).tdm.status = [] ∧ (after (.driverFrame 1 false meas0) s).tdm.wire = [onLane 0 (frm 0 1 0)] ∧
     (let t := after (.driverFrame 1 true meas0) s
      t.tdm.status.length = 1 ∧ (getDrv t 3).frame = frm 1 1 0 ∧ (getDrv t 3).lane = 1 ∧
      (getDrv (after (.driverFrame 0 true meas0) t) 3).mismatch = false ∧
      (let u := wired [onLane 0 (frm 0 1 9)] t
       (getDrv u 3).frame ≠ [] ∧ seg (getDrv u 3).frame 1 2 = seg (onLane 0 (frm 0 1 9)).2 1 2 ∧ (getDrv (after (.driverFrame 0 true meas0) u) 3).mismatch = true))) ∧
    (let b := [12, 0, 0, 0x40, 0x1F, 0, 0, 0]
     bit (fieldN (onLane 1 b).2 0 1) 3 = true ∧ (after (.driverFrame 1 true meas0) (wired [onLane 1 b] s0)).tdm.spin = 8000) ∧
    (getDrv (after (.driverFrameTimeout 3) s0) 3).held = true ∧
    (List.replicate 4 meas0).length = actCount s0 ∧ (after (.driverStatusPeriod (List.replicate 4 meas0)) s0).tdm.status.length = 4 := by decide +kernel
/-- A status frame of actuator 3: both lanes good, or neither, retracting, at its limits. -/
def stat (b0 : Byte) : List Byte := [b0, 1, 0, 2, 0, 3, 0, 7, 0, 0]
theorem wit_TandemFramesAreSentAndTaken_status : s0.tdm.status = [] ∧
    (let s := told [stat 0x33] sBas
     s.tdm.status = stat 0x33 :: [] ∧ regB s aTdmCtl 2 = true ∧ islHeld s 1 = false ∧ bits (fieldN (stat 0x33) 0 1) 3 3 = 6 ∧ actPresent s (fieldN (stat 0x33) 0 1 % 4) = true ∧
     reg (after (.statusFrame false) s) aTdmTlsErr = 1 ∧ reg (after (.statusFrame true) s) aTdmTlsFrames = 1 ∧
     (after (.statusFrame true) s).tls = { at_ := some 0, last7 := 7, spin := 3 } ∧ regF (after (.statusFrame true) s) (aTdmDrv 3) 0 16 = 2) ∧
    regB s0 aTdmCtl 2 = false ∧
    (let s := told [stat 0x13] (lanesBad [(1, 2)] sBas)
     s.tdm.status = stat 0x13 :: [] ∧ bit (fieldN (stat 0x13) 0 1) (4 + (1 : Fin 2)) = false ∧ bit (fieldN (stat 0x13) 0 1) 3 = false ∧ islHealthy s 1 = true ∧
     regB s aTdmCtl 1 = true ∧ smGet (fun _ => 0) s.red.tlBad 1 = 2 ∧ faultPresent (after (.statusFrame true) s) 0x10 1 = true) ∧
    Quiet s0 ∧ regB s0 aAccCfg 0 = false ∧ regB s0 aAccCfg 1 = false ∧
    (let s := setReg aAccCfg 1 (setReg aAccScale 0x8000 (setReg aShockCfg 0 s0))
     regB s aAccCfg 0 = true ∧ regB s aAccCfg 1 = false ∧ capEnabled s 0 = false ∧ regB s aShockCfg 16 = false ∧ regB s aShockCfg 18 = false ∧
     (after (.accelerometerPeriod ⟨1000, -5, 32767⟩ ⟨0, 0, 0⟩) s).acc.s0 = [1000, -5, 32767] ∧
     (after (.accelerometerPeriod ⟨1000, -5, 32767⟩ ⟨0, 0, 0⟩) s).out = [.spiRead 0 false 0 0] ∧ reg (after (.accelerometerPeriod ⟨1000, -5, 32767⟩ ⟨0, 0, 0⟩) s) aAccSeq = 1) := by decide +kernel

/-! ### Witnesses: redundancy -/

/-- Island 1 as given, beside a healthy island 0; a state code after a command. -/
def islIs (i : IslRed) : State := setIsl 1 i (islands 1)
def stAfter (i : Instr) (s : State) : Nat := (getIsl (after i s) 1).st
def faultsAre (fs : List (Nat × Nat)) (s : State) : State := { s with red := { s.red with faults := fs } }
theorem wit_IslandsFailAndAreDeclaredFailed : Awake (islands 1) ∧ (islands 1).pwr.phase = .running ∧ islHealthy (islands 1) 1 = true ∧ (islands 1).host.ctrls = [] ∧
    railOk (after (.islandRailFault 1 true) (islands 1)) 1 = true ∧ (getIsl (islands 1) 1).clockStopped = false ∧
    getCrossed (after (.islandRailFault 1 true) (islands 1)) 1 = none ∧ stAfter (.islandRailFault 1 false) (islands 1) = 2 ∧
    faultPresent (after (.islandRailFault 1 false) (islands 1)) 1 1 = true ∧ (∀ stopped, stAfter (.islandClockFault 1 false stopped) (islands 1) = 2 ∧
      (getIsl (after (.islandClockFault 1 false stopped) (islands 1)) 1).clockStopped = stopped ∧ faultPresent (after (.islandClockFault 1 false stopped) (islands 1)) 2 1 = true) ∧
    (getIsl (after (.islandClockFault 1 false true) (islands 1)) 1).clockBad = true ∧
    (getIsl s0 1).st = 0 ∧ stAfter (.islandRailFault 1 false) s0 = 0 ∧ railOk (after (.islandRailFault 1 false) s0) 1 = false ∧
    (getCrossed (after (.islandRailFault 1 false) s0) 1).isSome = true ∧
    (getIsl (after (.islandClockFault 1 true false) (islIs { st := 2, clockBad := true })) 1).clockBad = false ∧
    (let s := islIs { st := 1, golden := true }
     (getIsl s 1).golden = true ∧ stAfter (.goldenCheckDone 1 false) s = 2 ∧ reg (after (.goldenCheckDone 1 false) s) (aRedCount 5) = 1) ∧
    islHealthy (islands 1) (1 - (1 : Fin 2).val) = true ∧ islHeld (islands 1) 1 = false ∧ stAfter (.failIsland 1) (islands 1) = 2 ∧
    (getIsl (after (.failIsland 1) (islands 1)) 1).code = 6 ∧ stAfter (.failIsland 1) s0 = 0 ∧ reg (after (.failIsland 1) s0) aRedEvents = 1 ∧
    stAfter (.failIsland 1) (setIsl 0 { st := 2 } (islands 1)) = 1 ∧
    (let s := islIs { st := 1, fails := [0, 0] }
     stAfter (.islandRailFault 1 false) s = 5 ∧ islHeld (after (.islandRailFault 1 false) s) 1 = true) := by decide +kernel

/-- An island with AUTO_REJOIN. -/
def autoOn (s : State) : State := setReg aRedCfg 0x1000 s
theorem wit_IslandsRejoin : islHeld (islands 5) 1 = true ∧ stAfter (.rejoinIsland 1) (islands 5) = 3 ∧ stAfter (.rejoinIsland 1) (islands 2) = 3 ∧
    islHeld (islands 1) 1 = false ∧ stAfter (.rejoinIsland 1) (islands 1) = 1 ∧
    (let s := autoOn (islIs { st := 2, code := 1 })
     Awake s ∧ s.pwr.phase = .running ∧ (getIsl s 1).st = 2 ∧ regB s aRedCfg 12 = true ∧ causeGone s 1 = true ∧ stAfter (.autoRejoin 1) s = 3 ∧
     causeGone (autoOn (islIs { st := 2, code := 6 })) 1 = false ∧ stAfter (.autoRejoin 1) (autoOn (islIs { st := 2, code := 6 })) = 2) ∧
    regB (setReg aRedCfg 0 (islands 2)) aRedCfg 12 = false ∧ stAfter (.autoRejoin 1) (setReg aRedCfg 0 (islands 2)) = 2 ∧ (getIsl (islands 5) 1).st ≠ 2 ∧
    (let s := islands 3
     (getIsl s 1).st = 3 ∧ railOk s 1 = true ∧ (getIsl s 1).clockBad = false ∧ s.red.xlinkUp = true ∧ islHealthy s (1 - (1 : Fin 2).val) = true ∧
     stAfter (.rejoining 1) s = 4 ∧ (getIsl (after (.rejoining 1) s) 1).step = 1 ∧ stAfter (.rejoining 1) (setIsl 0 { st := 2 } s) = 3) ∧
    (getIsl (islands 1) 1).st ≠ 3 := by decide +kernel
theorem wit_IslandsRejoin_copy :
    (let s := setReg (aBasTgt 0 3) 77 (setCm 0 0x40 9 (loopIs 0 3 { mode := 4, wedge := 5, late := some ([1], true) } (islIs { st := 4, step := 1 })))
     Awake s ∧ (getIsl s 1).st = 4 ∧ (getIsl s 1).step = 1 ∧ smWf regReset s.regs = true ∧
     (let t := after (.rejoinCopyDone 1) s
      (getIsl t 1).step = 2 ∧ cmWord t 1 0x40 = 9 ∧ (getAct t 1 3).wedge = 5 ∧ (getAct t 1 3).late = none ∧ reg t (aBasTgt 1 3) = 77)) ∧
    (let s := loopIs 1 3 { rev := 12 } (faultsAre [(1, 1)] (islIs { st := 4, step := 2, code := 1, revs := [0, 0, 0, 2] }))
     s.pwr.phase = .running ∧ (getIsl s 1).st = 4 ∧ (getIsl s 1).step = 2 ∧ (getIsl s 1).code ≠ 0 ∧ faultPresent s (getIsl s 1).code 1 = true ∧ shadowDone s 1 = true ∧
     islHealthy (after (.shadowComplete 1) s) 1 = true ∧ faultPresent (after (.shadowComplete 1) s) 1 1 = false ∧ (after (.shadowComplete 1) s).red.hist.length = 1) ∧
    (getIsl (islands 1) 1).st ≠ 4 ∧ (getIsl (islIs { st := 4, step := 2 }) 1).step ≠ 1 ∧ (getIsl (islIs { st := 4, step := 1 }) 1).step ≠ 2 ∧
    shadowDone (islIs { st := 4, step := 2, revs := [0, 0, 0, 2] }) 1 = false := by decide +kernel

/-- Island 0 has sent `f` for actuator 3, and island 1 `own`. -/
def sentIs (f own : List Byte) (s : State) : State := loopIs 1 3 { frame := own } { s with red := { s.red with sent := [(3, f)] } }
theorem wit_ChecksLanesAndDecodersAreJudged_compare :
    (let s := sentIs (frm 0 1 7) (frm 1 1 7) (islands 1)
     Awake s ∧ s.red.xlinkUp = true ∧ smGet (fun _ => []) s.red.sent (4 * (1 - (1 : Fin 2).val) + (3 : Fin 4).val) = frm 0 1 7 ∧ frm 0 1 7 ≠ [] ∧
     seg (frm 0 1 7) 1 2 = seg (getAct s 1 3).frame 1 2 ∧ bit (fieldN (frm 0 1 7) 0 1) 7 = false ∧ bit (fieldN (getAct s 1 3).frame 0 1) 7 = false ∧
     withoutIsl (frm 0 1 7) = withoutIsl (getAct s 1 3).frame ∧ (after (.crosslinkFrame 1 3) s).red.sent = [] ∧ (getIsl (after (.crosslinkFrame 1 3) s) 1).goldenOrdered = false) ∧
    (let s := sentIs (frm 0 1 7) (frm 1 1 8) (islands 1)
     withoutIsl (frm 0 1 7) ≠ withoutIsl (getAct s 1 3).frame ∧ islHealthy s 0 = true ∧ islHealthy s 1 = true ∧
     (getIsl s 0).goldenOrdered = false ∧ (getIsl s 1).goldenOrdered = false ∧ (getIsl (after (.crosslinkFrame 1 3) s) 0).goldenOrdered = true) ∧
    (let s := sentIs (frm 0 1 7) (frm 1 1 8) (islIs { st := 4, step := 2 })
     (getIsl s 1).st = 4 ∧ (getIsl s 1).step = 2 ∧ stAfter (.crosslinkFrame 1 3) s = 3 ∧ reg (after (.crosslinkFrame 1 3) s) (aRedCount 3) = 1) ∧
    smGet (fun _ => []) (islands 1).red.sent 3 = [] ∧ (after (.crosslinkFrame 1 3) (sentIs (frm 0 2 7) (frm 1 1 7) (islands 1))).red.sent = [(3, frm 0 2 7)] ∧
    islHealthy (islands 1) 1 = true ∧ (getIsl (after (.periodicGoldenCheck 1) (islands 1)) 1).golden = true ∧ islHealthy (islands 2) 1 = false ∧
    (let s := islIs { st := 1, golden := true }
     (getIsl s 1).golden = true ∧ (getIsl s 1).goldenOrdered = false ∧ (getIsl (after (.goldenCheckDone 1 true) s) 1).golden = false) ∧
    (let s := setIsl 0 { st := 1, goldenOrdered := true, goldenResult := some true } (islIs { st := 1, goldenOrdered := true })
     (getIsl s 1).goldenOrdered = true ∧ (getIsl s (1 - (1 : Fin 2).val)).goldenOrdered = true ∧ (getIsl s (1 - (1 : Fin 2).val)).goldenResult = some true ∧
     reg (after (.goldenCheckDone 1 true) s) (aRedCount 4) = 1) := by decide +kernel
theorem wit_ChecksLanesAndDecodersAreJudged_lanes :
    (let s := islands 4
     Awake s ∧ s.pwr.phase = .running ∧ s.red.xlinkUp = true ∧ (∀ x, x < 2 → (getIsl s x).st ≠ 0 ∧ islHeld s x = false) ∧
     stAfter .crosslinkDown s = 3 ∧ (after .crosslinkDown s).red.xlinkUp = false ∧ faultPresent (after .crosslinkDown s) 0x12 0 = true ∧
     (let t := after .crosslinkDown s
      faultPresent (after .crosslinkFailback t) 0x12 0 = false ∧ (after .crosslinkFailback t).red.xlinkUp = true)) ∧
    (getIsl s0 0).st = 0 ∧ (after .crosslinkDown s0).red.xlinkUp = true ∧
    (let s := faultsAre [(0x10, 1)] s0
     smGet (fun _ => 0) s.red.tlBad 1 = 0 ∧ faultPresent s 0x10 1 = true ∧ faultPresent (after (.tandemLaneFailback 1) s) 0x10 1 = false) ∧ faultPresent s0 0x10 1 = false ∧
    sBas.pwr.phase = .running ∧ regB sBas aTdmCtl 2 = true ∧ islHealthy sBas 1 = true ∧ tlsLock sBas = false ∧ faultPresent sBas 0x11 2 = false ∧
    faultPresent (after .statusLaneFault sBas) 0x11 2 = true ∧ regB s0 aTdmCtl 2 = false ∧ faultPresent (after .statusLaneFault s0) 0x11 2 = false ∧
    (let s := faultsAre [(0x11, 2)] { sBas with tls := { at_ := some 0 } }
     tlsLock s = true ∧ faultPresent s 0x11 2 = true ∧ faultPresent (after .statusLaneFailback s) 0x11 2 = false) := by decide +kernel
/-- Decoder 11 has failed `k` golden decodes in a row. -/
def decFailed (k : Nat) : State := { setReg aRedCfg 0x2000 s0 with red := { s0.red with decFails := smSet (fun _ => 0) [] 11 k } }
theorem wit_ChecksLanesAndDecodersAreJudged_decoders : regB (decFailed 0) aRedCfg 13 = true ∧ (freeDecs (decFailed 0)).contains 11 = true ∧
    rtReserve (decFailed 0) + 1 ≤ (freeDecs (decFailed 0)).length ∧ smGet (fun _ => 0) (after (.decoderGoldenDecode 11 true) (decFailed 1)).red.decFails 11 = 0 ∧
    smGet (fun _ => 0) (decFailed 0).red.decFails 11 = 0 ∧ smGet (fun _ => 0) (after (.decoderGoldenDecode 11 false) (decFailed 0)).red.decFails 11 = 1 ∧
    smGet (fun _ => 0) (decFailed 1).red.decFails 11 = 1 ∧ (decFailed 1).pwr.phase = .running ∧ (decFailed 1).host.ctrls = [] ∧
    bit (after (.decoderGoldenDecode 11 false) (decFailed 1)).red.decRetired 11 = true ∧ (freeDecs (after (.decoderGoldenDecode 11 false) (decFailed 1))).contains 11 = false ∧
    regB (setReg aRedCfg 0 s0) aRedCfg 13 = false := by decide +kernel

/-! ### Witnesses: security and patches -/

/-- Changes of the SEC block and of the OTP. -/
def sec (f : Sec → Sec) (s : State) : State := { s with sec := f s.sec }
def otp (f : Otp → Otp) (s : State) : State := { s with otp := f s.otp }
/-- RESULT of the command that a GO starts. -/
def resultOf (i : Instr) (s : State) : Option (Nat × Nat) := (after i s).sec.cmd.map fun c => (c.op, c.result)
def meas1 : Meas := { slot := 1, signer := 1, gen := 2, svn := 64, version := [], hash := [] }
theorem wit_SecCommandsRunAndEnd : Awake sDram ∧ sDram.sec.cmd = none ∧ slotCode s0 1 ≠ 0 ∧ (resultOf (.verifySlot 1) s0 == some (1, 1)) = true ∧
    ((after (.verifySlot 1) s0).sec.cmd.map (·.boot)) = some 3 ∧ (resultOf (.verifySlot 2) s0 == some (1, 1)) = true ∧ (resultOf (.verifySlot 65535) s0 == some (1, 1)) = true ∧
    (let s := sec (fun c => { c with verified := smSet (fun _ => none) [] 1 (some meas1) }) s0
     smGet (fun _ => none) s.sec.verified 1 = some meas1 ∧ (resultOf (.activated 1) s == some (2, 0)) = true ∧ (after (.activated 1) s).sec.run = some meas1) ∧
    smGet (fun _ => none) s0.sec.verified 65535 = none ∧ (resultOf (.activated 65535) s0 == some (2, 1)) = true ∧
    (let s := sec (fun c => { c with idReady := true }) sDram
     s.sec.idReady = true ∧ s.sec.lc ≠ 3 ∧ areaBad s (secIn s) 96 = false ∧ areaBad s (secOut s) 36224 = false) ∧
    s0.sec.idReady = false ∧ s0.sec.lc ≠ 3 ∧ (resultOf .signReport s0 == some (3, 0xA)) = true ∧
    sDram.sec.lc = 0 ∧ sDram.otp.dus = none ∧ areaBad sDram (secOut sDram) 48 = false ∧
    (let s := otp (fun o => { o with dus := some [] }) sDram
     s.otp.dus.isSome = true ∧ (resultOf (.genIdentity true) s == some (8, 4)) = true) ∧
    areaBad sDram (secOut sDram) 32 = false ∧ (resultOf .challenge sDram == some (9, 0)) = true ∧ areaBad s0 (secOut s0) 32 = true ∧
    (resultOf .challenge s0 == some (9, 8)) = true := by decide +kernel
/-- A report on a device in RMA, whose key and signature are zeros: its body begins with the magic and the nonce. -/
theorem test_report_in_rma :
    let s := sec (fun c => { c with lc := 3 }) (memWrite dramBase [0xAA] sDram)
    ((secSignReport s).out.take 10) = [0x5A, 0x51, 0x41, 0x52, 1, 0, 0, 2, 0xAA, 0] := by decide +kernel
def running (c : SecCmd) (s : State) : State := sec (fun x => { x with cmd := some c }) s
def cmd1 : SecCmd := { op := 9, result := 0, boot := 7, out := [1, 2], at_ := 64 }
theorem wit_SecCommandsRunAndEnd_end : (running cmd1 sDram).sec.cmd.isSome = true ∧
    (∀ i ∈ [Instr.signReport, .debugUnlock, .challenge, .verifySlot 0, .activated 1, .keyMgmt true, .genIdentity true],
      reg (after i (running cmd1 sDram)) (aSecCount 3) = 1 ∧ (after i (running cmd1 sDram)).sec.cmd = some cmd1) ∧
    (after .secCommandDone s0).sec.done = false ∧ cmd1.op ∈ [1, 2, 5, 8, 9] ∧ cmd1.result < 256 ∧ cmd1.boot < 256 ∧ cmd1.at_ + cmd1.out.length ≤ dramUsable (running cmd1 sDram) ∧
    (let t := after .secCommandDone (running cmd1 sDram)
     reg t aSecCmdStatus = 0x70000 ∧ memBytes t (dramBase + 63) 4 = [0, 1, 2, 0] ∧ t.sec.cmd = none ∧ t.sec.done = true) ∧
    reg (after .secCommandDone (running { cmd1 with result := 255 } sDram)) aSecCmdStatus = 0x7FF00 ∧
    s0.sec.seen.dus = none ∧ (after .identityDerivation s0).sec.idReady = false ∧
    (let s := sec (fun c => { c with seen := { c.seen with dus := some [1] } }) s0
     s.sec.seen.dus = some [1] ∧ s.sec.lc ≠ 3 ∧ otpBad s.sec.seen 4 = false ∧ (after .identityDerivation s).sec.idReady = true ∧
     (after .identityDerivation (sec (fun c => { c with lc := 3 }) s)).sec.idReady = false ∧
     otpBad { s.sec.seen with bad := [4] } 4 = true) := by decide +kernel

/-- A key management object at DRAM's offset 0. -/
def keyObj (action k : Byte) (hash : List Byte) : State := memWrite dramBase (leBytes 4 0x4D4B515A ++ leBytes 2 1 ++ [action, k] ++ zeros 32 ++ hash) sDram
def owned (o : Otp) : Otp := { o with owner := smSet (fun _ => []) o.owner 3 [9] }
theorem wit_KeysFloorsLifecycleAndDebug_keys : Awake (keyObj 1 3 [7]) ∧ (keyObj 1 3 [7]).sec.cmd = none ∧ (keyObj 1 3 [7]).sec.lc < 2 ∧ KeyObject (keyObj 1 3 [7]) 1 3 ∧
    ownerSet (keyObj 1 3 [7]).otp 3 = false ∧ (resultOf (.keyMgmt true) (keyObj 1 3 [7]) == some (4, 0)) = true ∧
    smGet (fun _ => []) (after (.keyMgmt true) (keyObj 1 3 [7])).otp.owner 3 = 7 :: zeros 31 ∧
    ownerSet (otp owned (keyObj 1 3 [7])).otp 3 = true ∧ (resultOf (.keyMgmt true) (otp owned (keyObj 1 3 [7])) == some (4, 9)) = true ∧
    KeyObject (keyObj 2 3 []) 2 3 ∧ allZero (objBody (keyObj 2 3 [])) 0x28 32 = true ∧ bit (keyObj 2 3 []).otp.ownerRevoked 3 = false ∧
    (resultOf (.keyMgmt true) (keyObj 2 3 []) == some (4, 0)) = true ∧ (after (.keyMgmt true) (keyObj 2 3 [])).otp.ownerRevoked = 8 ∧
    (sec (fun c => { c with lc := 3 }) s0).sec.lc = 3 ∧ (resultOf (.keyMgmt true) (sec (fun c => { c with lc := 3 }) s0) == some (4, 4)) = true ∧
    areaBad sDram (secIn sDram) 128 = false ∧ areaBad sDram (secIn sDram) (128 + sigLen) = false ∧ fieldN (objBody sDram) 0 4 ≠ 0x4D4B515A ∧
    (resultOf (.keyMgmt true) sDram == some (4, 1)) = true ∧ (resultOf (.keyMgmt true) (sec (fun c => { c with lc := 2 }) sDram) == some (4, 1)) = true := by decide +kernel
def floors (o : Otp) : Otp := { o with imageFloor := 5, mcFloor := 6 }
theorem wit_KeysFloorsLifecycleAndDebug_floors : (5 : Fin 128).val = imageFloor (otp floors s0).otp ∧ (6 : Fin 128).val = mcFloor (otp floors s0).otp ∧
    (resultOf (.svnRaise 5 6 false) (otp floors s0) == some (5, 0)) = true ∧
    (let s := sec (fun c => { c with run := some meas1 }) (otp floors s0)
     s.sec.run = some meas1 ∧ imageFloor s.otp < (64 : Fin 128).val ∧ (64 : Fin 128).val ≤ min 64 meas1.svn ∧
     (resultOf (.svnRaise 64 6 true) s == some (5, 0)) = true ∧ (after (.svnRaise 64 6 true) s).otp.imageFloor = 64 ∧
     (resultOf (.svnRaise 65 6 true) s == some (5, 5)) = true) ∧
    (resultOf (.svnRaise 4 6 true) (otp floors s0) == some (5, 5)) = true ∧ (resultOf (.svnRaise 5 5 true) (otp floors s0) == some (5, 5)) = true := by decide +kernel
theorem wit_KeysFloorsLifecycleAndDebug_lifecycle :
    (let s := sec (fun c => { c with idReady := true }) s0
     s.otp.lc = 0 ∧ s.sec.idReady = true ∧ s.otp.vendorSet = true ∧ (resultOf (.lcAdvance 1 true) s == some (6, 0)) = true ∧ (after (.lcAdvance 1 true) s).otp.lc = 1 ∧
     (after (.lcAdvance 1 true) s).sec.lc = 0) ∧
    (let s := otp (fun o => { owned o with lc := 1 }) s0
     s.otp.lc = 1 ∧ anyOwner s.otp = true ∧ (after (.lcAdvance 2 true) s).otp.lc = 2 ∧ (resultOf (.lcAdvance 2 false) s == some (6, 7)) = true ∧
     otpBad (after (.lcAdvance 2 false) s).otp 5 = true) ∧
    (let s := sec (fun c => { c with lc := 1 }) (otp (fun o => { o with lc := 2 }) s0)
     s.otp.lc = 2 ∧ s.sec.lc = 1 ∧ journalEmpty s = true ∧ (after (.lcAdvance 3 true) s).otp.lc = 3) ∧
    s0.sec.idReady = false ∧ (resultOf (.lcAdvance 1 true) s0 == some (6, 4)) = true ∧ s0.otp.lc ≠ 1 ∧ (resultOf (.lcAdvance 2 true) s0 == some (6, 4)) = true ∧
    (resultOf (.lcAdvance 3 true) s0 == some (6, 4)) = true ∧ (resultOf (.lcAdvance 0 true) s0 == some (6, 4)) = true ∧ (resultOf (.lcAdvance 4 true) s0 == some (6, 4)) = true ∧
    tokenCheck s0 1 4 = 8 ∧ (resultOf .debugUnlock s0 == some (7, 8)) = true ∧ tokenCheck sDram 1 4 = 1 ∧
    (let s := sec (fun c => { c with lc := 2 }) s0
     s.sec.lc = 2 ∧ s.sec.debugOpen = false) := by decide +kernel
/-- A signature verifies where SLH-DSA's verification, which the spec names and does not write out (log 51), says so. -/
theorem wit_signature_verifies (s : State) (ctx : Nat) (msg b h : List Byte) (h0 : fieldN b 0 4 = 0x4753515A) (h1 : fieldN b 4 2 = 1) (h2 : fieldN b 6 1 = 1)
    (h3 : fieldN b 8 1 = ctx) (h4 : allZero b 9 23 = true) (h5 : signerAllowed s.sec.lc ctx (fieldN b 7 1) = true) (h6 : keyHash s.otp (fieldN b 7 1) = some h)
    (h7 : sha256 (seg b 0x20 64) = h) (h8 : Config.slhVerify (seg b 0x20 64) msg (ctxString ctx) (seg b 0x60 29792) = true) : sigCheck s ctx msg b = 0 := by
  simp [sigCheck, h0, h1, h2, h3, h4, h5, h6, h7, h8]
/-- A token is accepted: magic, version, kind and reserved bytes as R457 asks, signed, for this device and its challenge. -/
theorem wit_token_accepted (s : State) (h0 : areaBad s (secIn s) (128 + sigLen) = false) (h1 : fieldN (objBody s) 0 4 = 0x5452515A) (h2 : fieldN (objBody s) 4 2 = 1)
    (h3 : fieldN (objBody s) 6 1 = 1) (h4 : allZero (objBody s) 7 25 = true) (h5 : allZero (objBody s) 0x60 32 = true) (h6 : sigCheck s 4 (objBody s) (objSig s) = 0)
    (h7 : s.sec.idReady = true) (h8 : seg (objBody s) 0x20 32 = deviceId s) (h9 : seg (objBody s) 0x40 32 = s.sec.challenge) : tokenCheck s 1 4 = 0 := by
  simp [tokenCheck, tokenMalformed, h0, h1, h2, h3, h4, h5, h6, h7, h8, h9]

/-- Security Send or Receive of a protocol. -/
def secOp (o p : Nat) (data : List Byte := []) : Capsule :=
  { opc := o, cid := 9, cdw10 := p / 65536 * 16777216 + p % 65536 * 256, cdw11 := data.length, data := data }
def recv (p al : Nat) : Capsule := { secOp 0x82 p with cdw11 := al }
def sendOn (cap : Capsule) : State := { adm cap with regs := sDram.regs }
theorem wit_SecuritySendAndReceiveAreServed_send : Awake (adm (secOp 0x81 0xF00001 (zeros 32))) ∧
    (let cap := secOp 0x81 0xF00001 (List.replicate 32 5)
     Alone (freshCmd cap) 0 (adm cap) ∧ getCtrl (adm cap) 1 = some ctrl0 ∧ isAdmin 0x81 (freshCmd cap) = true ∧ secProtocol (freshCmd cap) = 0xF00001 ∧ cap.cdw11 = 32 ∧
     cap.data.length = 32 ∧ ends .secSendNonce (adm cap) = (some ok9, []) ∧ ((getCtrl (after .secSendNonce (adm cap)) 1).bind (·.nonce)) = some (List.replicate 32 5)) ∧
    (secOp 0x81 0xF00001 [1]).cdw11 ≠ 32 ∧ ends .secSendNonce (adm (secOp 0x81 0xF00001 [1])) = (some (.completion 0 9 stInvalidField false 0 0), []) ∧
    sendProtocol (secProtocol (freshCmd (secOp 0x81 0xF00002))) = false ∧
    ends .secSendNonce (adm (secOp 0x81 0xF00002)) = (some (.completion 0 9 stInvalidField false 0 0), []) := by decide +kernel
theorem wit_SecuritySendAndReceiveAreServed_objects : ∀ e ∈ [(Instr.secSendKeyMgmt, 3), (.secSendToken, 4)],
    (let cap := secOp 0x81 (0xF00000 + e.2) [8, 9]
     let s := sendOn cap
     Alone (freshCmd cap) 0 s ∧ getCtrl s 1 = some ctrl0 ∧ isAdmin 0x81 (freshCmd cap) = true ∧ secProtocol (freshCmd cap) = 0xF00000 + e.2 ∧
     secIn s + cap.data.length ≤ dramUsable s ∧ (after e.1 s).sec.sends = [(0, e.2)] ∧ memBytes (after e.1 s) dramBase 3 = [8, 9, 0]) := by decide +kernel
/-- Requests that no host waits for, in a device's queue of reports. -/
def waits (n : Nat) (s : State) : State := sec (fun c => { c with waiting := List.replicate n { cmd := none, al := 4, nonce := [] } }) s
theorem wit_SecuritySendAndReceiveAreServed_receive : isAdmin 0x82 (freshCmd (recv 0 9)) = true ∧ secProtocol (freshCmd (recv 0 9)) = 0 ∧
    ends .secRecvProtocols (adm (recv 0 9)) = (some ok9, []) ∧ receiveProtocol (secProtocol (freshCmd (recv 0xF00003 9))) = false ∧
    ends .secRecvProtocols (adm (recv 0xF00003 9)) = (some (.completion 0 9 stInvalidField false 0 0), []) ∧
    (let s := waits 15 (adm (recv 0xF00001 9))
     secProtocol (freshCmd (recv 0xF00001 9)) = 0xF00001 ∧ reportsWaiting s < 16 ∧ ((after .secRecvReport s).sec.waiting.map (·.al)).getLast? = some 9 ∧
     ((after .secRecvReport s).sec.waiting.map (·.al)).length = 16) ∧
    (let s := waits 16 (adm (recv 0xF00001 9))
     Alone (freshCmd (recv 0xF00001 9)) 0 s ∧ 16 ≤ reportsWaiting s ∧ ends .secRecvReport s = (some (.completion 0 9 stInterrupted false 0 0), [])) ∧
    (let s := flashPut 0x20000 [0x5A, 0x51, 0x49, 0x43] (adm (recv 0xF00002 4))
     Alone (freshCmd (recv 0xF00002 4)) 0 s ∧ secProtocol (freshCmd (recv 0xF00002 4)) = 0xF00002) ∧
    secProtocol (freshCmd (recv 0xF00004 4)) = 0xF00004 ∧ ends .secRecvChallenge (adm (recv 0xF00004 4)) = (some ok9, []) := by decide +kernel
theorem wit_certificate : fieldN (flashBytes (flashPut 0x20000 [0x5A, 0x51, 0x49, 0x43] (adm (recv 0xF00002 4))) 0x20000 30400) 0 4 = 0x4349515A := by
  have e : (30400 : Nat) = 4 + 30396 := rfl
  simp only [flashBytes, e, List.range_add, List.map_append]
  decide +kernel
theorem wit_SecuritySendAndReceiveAreServed_done :
    (let k : SecCmd := { op := 3, result := 0, out := [1, 2, 3], nonce := [4] }
     let w : ReportWait := { cmd := some 0, al := 2, nonce := [4] }
     let s := sec (fun c => { c with cmd := some k, waiting := [w] }) (adm (recv 0xF00001 2))
     s.cmd.cmds = [freshCmd (recv 0xF00001 2)] ∧ s.cmd.waits = [] ∧ capEnabled s 1 = false ∧ s.sec.cmd = some k ∧ s.sec.waiting = [w] ∧
     getCtx s 0 ≠ none ∧ (after .secCommandDone s).out.head? = some ok9 ∧ (after .secCommandDone s).out.getLast? = some (.c2hData 0 9 0 [1, 2]) ∧ (after .secCommandDone s).sec.waiting = []) ∧
    (∀ e ∈ [(4, 3), (6, 4), (7, 4)],
     let s := sec (fun c => { c with cmd := some { op := e.1, result := 9 }, sends := [(0, e.2)] }) (adm (secOp 0x81 (0xF00000 + e.2)))
     (after .secCommandDone s).out = [.completion 0 9 stInvalidField false 0 0] ∧ (after .secCommandDone s).sec.sends = []) := by decide +kernel

/-- A patch object of one word for sequencer 3 at DRAM's offset 0, being loaded into bank 1. -/
def patch1 : List Byte :=
  leBytes 4 0x434D515A ++ leBytes 2 1 ++ leBytes 2 1 ++ leBytes 4 9 ++ leBytes 4 7 ++ [8, 0] ++ leBytes 2 0x800 ++ leBytes 4 2 ++ zeros 40 ++ leBytes 6 (wordBits 0 (mw 0 8))
def loading (bs : List Byte) : State := setReg (aSeqRomVer 3) 7 (setSq 3 { loading := some 1 } (memWrite dramBase bs sDram))
theorem wit_PatchLoadsAreVerified : actPresent s0 3 = true ∧ (getSq s0 3).loading = none ∧ (getSq s0 3).active ≠ (1 : Fin 2) + 1 ∧ (getSq s0 3).pend ≠ some ((1 : Fin 2).val + 1) ∧
    (getSq (after (.patchLoad 3 1) s0) 3).loading = some 1 ∧ reg (after (.patchLoad 3 1) s0) (aSeqBankState 3 1) = 1 ∧
    (let s := sqIs { active := 2 }
     (getSq s 3).active = (1 : Fin 2).val + 1 ∧ reg (after (.patchLoad 3 1) s) (aSeqCount 3 8) = 1 ∧ (getSq (after (.patchLoad 3 1) s) 3).loading = none) ∧
    (getSq (sqIs { pend := some 2 }) 3).pend = some ((1 : Fin 2).val + 1) ∧ (getSq (sqIs { loading := some 0 }) 3).loading.isSome = true ∧
    (let s := sqIs { loading := some 1 }
     areaBad s (reg s (aSeqPloadOfs 3) * 4096) 64 = true ∧ regF (after (.patchLoadComplete 3) s) (aSeqBankState 3 1) 0 8 = 0x93) ∧
    (let s := loading (patch1.set 0 0)
     areaBad s (reg s (aSeqPloadOfs 3) * 4096) 64 = false ∧ patchHeader s 3 (dramBytes s (reg s (aSeqPloadOfs 3) * 4096) 64) = 1 ∧
     regF (after (.patchLoadComplete 3) s) (aSeqBankState 3 1) 0 8 = 0x13) := by decide +kernel
theorem wit_PatchLoadsAreVerified_object :
    let s := loading patch1
    (getSq s 3).loading = some (1 : Fin 2).val ∧ areaBad s (reg s (aSeqPloadOfs 3) * 4096) 64 = false ∧
    patchHeader s 3 (dramBytes s (reg s (aSeqPloadOfs 3) * 4096) 64) = 0 ∧ 1 = fieldN (dramBytes s (reg s (aSeqPloadOfs 3) * 4096) 64) 6 2 ∧
    areaBad s (reg s (aSeqPloadOfs 3) * 4096) (patchSigAt 1 + sigLen) = false ∧
    (patchWords (dramBytes s (reg s (aSeqPloadOfs 3) * 4096) (patchSigAt 1)) 1).all wordGood = true ∧
    (∀ i, i < 1 → allZero (dramBytes s (reg s (aSeqPloadOfs 3) * 4096) (patchSigAt 1)) (0x46 + 8 * i) 2 = true) ∧
    sigCheck s 2 (dramBytes s (reg s (aSeqPloadOfs 3) * 4096) (patchSigAt 1)) (dramBytes s (reg s (aSeqPloadOfs 3) * 4096 + patchSigAt 1) sigLen) ≠ 0 ∧
    mcFloor s.otp ≤ fieldN (dramBytes s (reg s (aSeqPloadOfs 3) * 4096) 64) 0x14 4 := by decide +kernel

/-- A state that keeps its canonical forms, and a step of it. -/
theorem wit_CanonicalFormsAreKept : FormsInv (memWrite dramBase [5] s0) := by decide +kernel
theorem wit_CanonicalFormsAreKept_step : ∃ t, step (memWrite dramBase [5] s0) = .next t := ⟨_, rfl⟩

end Sys2Proof.Tests
end

section
/-! PROOF. The soft reset of R67: what a write to SYS_RSTCTL does in each of its three cases, and what recognizing a source
of reset leaves in the power state of a running device. -/

namespace Sys2Proof.Machine

/-! ### Masks of sources -/

/-- The source added to a mask is in it. -/
theorem bit_addCause_self (i m : Nat) : bit (addCause i m) i = true := by
  have hlow : m % 2 ^ i < 2 ^ i := Nat.mod_lt _ (Nat.two_pow_pos i)
  have hsplit : addCause i m = m % 2 ^ i + 2 ^ i * (1 + 2 * (m / 2 ^ (i + 1))) := by
    have hhigh : m / 2 ^ (i + 1) * 2 ^ (i + 1) = 2 ^ i * (2 * (m / 2 ^ (i + 1))) := by
      rw [Nat.mul_comm, Nat.pow_succ, Nat.mul_assoc]
    have hone : 1 % 2 ^ 1 * 2 ^ i = 2 ^ i := Nat.one_mul _
    rw [Nat.mul_add, Nat.mul_one, ← Nat.add_assoc, ← hhigh, addCause, setBits, hone]
  have hdiv : addCause i m / 2 ^ i = 1 + 2 * (m / 2 ^ (i + 1)) := by
    rw [hsplit, Nat.add_mul_div_left _ _ (Nat.two_pow_pos i), Nat.div_eq_of_lt hlow, Nat.zero_add]
  rw [bit, hdiv, Nat.add_mul_mod_self_left]; rfl

/-! ### The power state through the power-fail sequence's start (R63) -/

/-- A loop whose every round leaves the power state alone leaves it alone. -/
theorem forTo_pwr {f : Nat → State → State} (hf : ∀ n s, (f n s).pwr = s.pwr) (n : Nat) (s : State) :
    (forTo f n s).pwr = s.pwr := by
  induction n with
  | zero => rfl
  | succ n ih => exact (hf n _).trans ih

@[simp] theorem appendMirror_pwr (r : Rec) (s : State) : (appendMirror r s).pwr = s.pwr := rfl

@[simp] theorem copyOne_pwr (s : State) : (copyOne s).pwr = s.pwr := by
  unfold copyOne; split <;> rfl

@[simp] theorem copyAll_pwr (n : Nat) (s : State) : (copyAll n s).pwr = s.pwr := by
  induction n generalizing s with
  | zero => rfl
  | succ n ih => exact (ih _).trans (copyOne_pwr s)

@[simp] theorem powerFailRecord_pwr (s : State) : (powerFailRecord s).pwr = s.pwr := by
  simp only [powerFailRecord]
  split
  · rfl
  · split <;> simp only [appendMirror_pwr, copyAll_pwr]

@[simp] theorem preApply_pwr (n : Nat) (s : State) : (preApply n s).pwr = s.pwr := by
  simp only [preApply]; split <;> rfl

@[simp] theorem preSafe_pwr (n : Nat) (s : State) : (preSafe n s).pwr = s.pwr := by
  simp only [preSafe, preApply_pwr]; split <;> rfl

@[simp] theorem mgtUpdate_pwr (n : Nat) (s : State) : (mgtUpdate n s).pwr = s.pwr := by
  simp only [mgtUpdate, preSafe_pwr, setHsl_pwr]
  split
  · exact incReg_pwr _ s
  · rfl

@[simp] theorem failSafe_pwr (n : Nat) (s : State) : (failSafe n s).pwr = s.pwr := by
  simp only [failSafe, mgtUpdate_pwr, setHsl_pwr]

/-- A source recognized on a running device: the sequence begins with that source alone, which from then on holds the
device in reset. -/
theorem recognize_running_pwr {s : State} (i : Nat) (h : s.pwr.phase = .running) :
    (recognize i s).pwr =
      { s.pwr with phase := .quiescing, recognized := addCause i 0, holding := addCause i s.pwr.holding } := by
  have hround : ∀ n t, (if actPresent t n then failSafe n t else t).pwr = t.pwr := fun n t => by
    split
    · exact failSafe_pwr n t
    · rfl
  simp only [recognize, h]
  rw [forTo_pwr hround, powerFailRecord_pwr]

/-! ### The write to SYS_RSTCTL (R67) -/

/-- SOFT_RST, bit 8 of the word written. -/
theorem bit_eight_iff {v : Nat} : bit v 8 = true ↔ v / 256 % 2 = 1 := beq_iff_eq

/-- KEY, the low byte of the word written. -/
theorem bits_low_byte (v : Nat) : bits v 0 8 = v % 256 := congrArg (· % 256) (Nat.div_one v)

theorem writeRstctl_keyed {v : Nat} (s : State) (hs : v / 256 % 2 = 1) (hk : v % 256 = 0x5A) :
    writeRstctl v s = recognize cSoft s := by
  rw [writeRstctl, if_pos (bit_eight_iff.mpr hs), if_pos ((bits_low_byte v).trans hk)]

theorem writeRstctl_wrongKey {v : Nat} (s : State) (hs : v / 256 % 2 = 1) (hk : v % 256 ≠ 0x5A) :
    writeRstctl v s = record srcSys 0x13 [v] s := by
  rw [writeRstctl, if_pos (bit_eight_iff.mpr hs), if_neg (bits_low_byte v ▸ hk)]

theorem writeRstctl_withoutSoftRst {v : Nat} (s : State) (hs : v / 256 % 2 = 0) : writeRstctl v s = s := by
  rw [writeRstctl, if_neg fun hb => by rw [bit_eight_iff, hs] at hb; contradiction]

theorem exec_softRst_running {s : State} (v : Nat) (h : s.pwr.phase = .running) :
    exec (.softRst v) s = .next (keep s (writeRstctl v s)) := act_next _ h

/-- A record made leaves what no ordinary command changes. -/
theorem keep_record (src code : Nat) (args : List Nat) (s : State) :
    keep s (record src code args s) = record src code args s := by
  rw [record_frame]; rfl

end Sys2Proof.Machine

namespace Sys2Proof

open Sys2Proof.Machine

/-- Settles O7: with its key SOFT_RST is the recognition of the soft source, with another KEY a record, and without SOFT_RST
no change. -/
theorem softResetNeedsItsKey : Obligations.SoftResetNeedsItsKey := by
  intro s v hawake
  rw [exec_softRst_running v hawake]
  refine ⟨fun hs hk => ⟨_, rfl, ?_⟩, fun hs hk => ?_, fun hs => ?_⟩
  · rw [keep_pwr, writeRstctl_keyed s hs hk, recognize_running_pwr cSoft hawake]
    exact ⟨rfl, bit_addCause_self _ _, bit_addCause_self _ _⟩
  · rw [writeRstctl_wrongKey s hs hk, keep_record]
  · rw [writeRstctl_withoutSoftRst s hs]; rfl

end Sys2Proof
end

section
/-! PROOF. The designated 64-bit counters of R98: where their low words stand, that the word above each is a plain register
of its own, and what a read of either word, or of both at once, answers and leaves. -/

namespace Sys2Proof.Machine

/-! ### Where the counters stand (R22, R98) -/

/-- Where the low words of the designated counters stand at most (R98), block by block, on a device with `acts` actuators: in
numbers, so that what else stands at the word above is decided by arithmetic. -/
inductive CounterLow (acts a : Nat) : Prop
  | sys (h : a = 0x10000008 ∨ a = 0x10000208 ∨ (0x10001000 ≤ a ∧ a < 0x10001800 ∧ a % 0x100 = 0x10))
  | link (lo : 0x12000000 ≤ a) (hi : a < 0x12040000) (first : 0x100 ≤ a % 0x10000) (last : a % 0x10000 ≤ 0x160)
      (h : a % 0x20 = 0 ∨ a % 0x20 = 8)
  | channel (aligned : a % 8 = 0)
      (h : (0x13000040 ≤ a ∧ a < 0x13000060) ∨
        (0x13001000 ≤ a ∧ a < 0x13001000 + acts * 0x100 ∧ (a % 0x100 = 8 ∨ a % 0x100 = 0x10)) ∨
        (0x13002000 ≤ a ∧ a < 0x13002000 + acts * 0x100 ∧ (a % 0x100 = 8 ∨ a % 0x100 = 0x10)))
  | calibration (lo : 0x15002000 ≤ a) (hi : a < 0x15002400) (h : a % 0x20 = 8 ∨ a % 0x20 = 0x10)
  | host (h : a = 0x16000110 ∨ a = 0x16000210 ∨ a = 0x17000008)
  | recorder (h : a = 0x18000008 ∨ a = 0x18000010 ∨ a = 0x18000038 ∨
      (0x18000200 ≤ a ∧ a < 0x18000280 ∧ a % 0x20 = 8) ∨ a = 0x1A000020 ∨ a = 0x1A000028)

theorem actCount_le (s : State) : actCount s ≤ 4 := by unfold actCount; split <;> decide

theorem counterLow_of_counter64 {s : State} {a v : Nat} (h : counter64 s a = some v) : CounterLow (actCount s) a := by
  simp only [counter64, List.any_eq_true, List.mem_range, Bool.or_eq_true, beq_iff_eq, aDramCeLo, aFecCorrLo,
    aTdmFramesLo, aL2CeLo, aGarnetIter, aCapWrLo, aChlConf, aChlIter, aWrWritten, aWrPass, aCalLastTbLo, aCalLastWallLo] at h
  split at h
  case isTrue htime => exact .sys (.inl htime)
  split at h
  case isTrue hseq => exact .host (.inr (.inr hseq))
  split at h
  case isTrue hhead => exact .recorder (.inl hhead)
  split at h
  case isTrue hmhead => exact .recorder (.inr (.inl hmhead))
  split at h
  case isTrue hwall => exact .recorder (.inr (.inr (.inl hwall)))
  split at h
  case isTrue hwide =>
    rcases hwide with h | h | h | h | h | ⟨c, hc, h⟩ | ⟨lo, hi, h⟩ | ⟨k, hk, h | h⟩ | ⟨n, hn, h⟩ | ⟨k, hk, h⟩
    · exact .sys (by omega)
    · exact .host (by omega)
    · exact .host (by omega)
    · exact .recorder (by omega)
    · exact .recorder (by omega)
    · exact .sys (by omega)
    · exact .link lo hi (by omega) (by omega) (by omega)
    · exact .channel (by omega) (by omega)
    · exact .recorder (by omega)
    · have hacts := actCount_le s
      exact .channel (by omega) (by omega)
    · exact .calibration (by omega) (by omega) (by omega)
  split at h
  case isTrue hlane =>
    obtain ⟨lo, hi, first, last, h⟩ := hlane
    exact .link lo hi first (by omega) (by omega)
  case isFalse => contradiction

/-- Every low word stands at a multiple of 8. -/
theorem CounterLow.aligned {acts a : Nat} (h : CounterLow acts a) : a % 8 = 0 := by cases h <;> omega

/-! ### The holding register, in the word above -/

theorem CounterLow.absentReg_add_four {s : State} {a : Nat} (h : CounterLow (actCount s) a) :
    absentReg s (a + 4) = false := by
  have h4 := actCount_le s
  simp only [absentReg, aChlCtl, aWrCtl, aSchCfg, aBasCmd, aAstCtl, Bool.or_eq_false_iff, Bool.and_eq_false_iff,
    decide_eq_false_iff_not]
  cases h <;> omega

/-- No indirect pair stands among the counters. -/
theorem CounterLow.isIndData_eq_false {acts a : Nat} (h : CounterLow acts a) : isIndData a = false := by
  simp only [isIndData, Bool.and_eq_false_iff, decide_eq_false_iff_not]
  cases h <;> omega

theorem CounterLow.isIndData_add_four {acts a : Nat} (h : CounterLow acts a) : isIndData (a + 4) = false := by
  simp only [isIndData, Bool.and_eq_false_iff, decide_eq_false_iff_not]
  cases h <;> omega

/-- A holding register is 0 after reset (R98). -/
theorem CounterLow.regReset_add_four {acts a : Nat} (h : CounterLow acts a) (h4 : acts ≤ 4) : regReset (a + 4) = 0 := by
  cases h <;> simp (disch := omega) only [regReset, if_pos, if_neg, ite_self, aWdogCfg, aThermCfg, aDramScrub, aRedCfg,
    aChanCtl, aDdbCfg, aShockCfg, aHostListen, aPortCfg, aCapTrig]

/-- The word above a low word is none of those that show something computed, and none that a stopped clock keeps as it last
crossed: it shows what its register holds. -/
theorem CounterLow.viewReg_add_four {s : State} {a : Nat} (h : CounterLow (actCount s) a) :
    viewReg s (a + 4) = reg s (a + 4) := by
  have h4 := actCount_le s
  rw [viewReg, h.absentReg_add_four, if_neg Bool.false_ne_true]
  cases h with
  | sys h =>
    rw [if_pos (by omega)]
    simp (disch := omega) only [readSys, if_neg, aSysId, aClkStatus, aRstcause, aThermStatus, aPwrStatus, aOspiCmd,
      aOspiStatus, aRedIslStatus, aRedCluState, aRedHealth, aRedDecRetired]
  | link lo hi first last h =>
    have hup : fromUp ((a + 4) / 0x10000 % 0x100) (a + 4) = false := by
      simp only [fromUp, aHslPaStat, aHslPaSense, aUpCrcLo, aDnFramesLo, Bool.or_eq_false_iff, Bool.and_eq_false_iff,
        decide_eq_false_iff_not, beq_eq_false_iff_ne, bne_eq_false_iff_eq]
      omega
    simp (disch := omega) only [readActBlock, if_neg, if_pos, hup, Bool.false_eq_true, if_false]
  | channel _ h =>
    simp (disch := omega) only [readChan, if_neg, if_pos, aShockStatus, aChlStatus, aWrStatus]
  | calibration lo hi h =>
    simp (disch := omega) only [readServo, if_neg, if_pos, aCalTemp, aCalDue, aCalPending]
  | host h =>
    simp (disch := omega) only [readHost, if_neg, if_pos, aCtxStatus, aPortStatus, aCmdState, aPoolStatus,
      aZoneOpenStatus, aJrnSlots, aJrnFree, aJrnRecordsFree, aJrnDeferHeld]
  | recorder h =>
    simp (disch := omega) only [readRec, if_neg, aStrataCtl, aStrataStatus, aStrataLife, aWallStatus, aRplCtl, aRplStatus,
      strataWindow, aSecState, aSecSvn, aSecCmd, aSecCmdStatus, aSecDeviceId, aTdmStatus]

/-- Registers lie between 0x10000000 and 0x20000000. -/
theorem regionOf_io_range {s : State} {a : Nat} (h : regionOf s a = .io) : 0x10000000 ≤ a ∧ a < 0x20000000 := by
  simp only [regionOf, ioRegion] at h
  repeat' split at h
  all_goals cases h <;> omega

/-- The blocks begin and end at multiples of 8, so both halves of a 64-bit register lie in one. -/
theorem regionOf_add_four {s : State} {a : Nat} (h8 : a % 8 = 0) (h : regionOf s a = .io) : regionOf s (a + 4) = .io := by
  obtain ⟨lo, hi⟩ := regionOf_io_range h
  have hpage : (a + 4) / 0x10000 = a / 0x10000 := by omega
  have hrange : ∀ lo hi, lo % 8 = 0 → hi % 8 = 0 → ((lo ≤ a + 4 ∧ a + 4 < hi) ↔ (lo ≤ a ∧ a < hi)) := by omega
  rw [← h]
  simp (disch := omega) only [regionOf, if_neg, if_pos]
  simp (disch := decide) only [ioRegion, hrange, hpage]

/-! ### Reads of a counter's two words (R97, R98) -/

theorem reg_lt (s : State) (a : Nat) : reg s a < 2 ^ 32 := (regW s a).isLt

theorem readReg_counterLow {s : State} {a v : Nat} (h : counter64 s a = some v) :
    readReg a s = (v % 2 ^ 32, setReg (a + 4) (v / 2 ^ 32) s) := by
  rw [readReg, h]

/-- The high word's address holds no counter of its own. -/
theorem CounterLow.counter64_add_four {acts a : Nat} (h : CounterLow acts a) (s : State) : counter64 s (a + 4) = none := by
  rw [Option.eq_none_iff_forall_ne_some]
  intro w hw
  have hlow := h.aligned
  have hhigh := (counterLow_of_counter64 hw).aligned
  omega

theorem CounterLow.readReg_add_four {s : State} {a : Nat} (h : CounterLow (actCount s) a) :
    readReg (a + 4) s = (reg s (a + 4), s) := by
  have hfifo : a + 4 ≠ aOspiData := by
    have h8 := h.aligned
    rw [aOspiData]
    omega
  rw [readReg, h.counter64_add_four, h.viewReg_add_four, Nat.mod_eq_of_lt (reg_lt s _)]
  exact if_neg hfifo

/-- A 32-bit read of a register that is no port answers what the register gives. -/
theorem readIo_word {s t : State} {a w : Nat} (source : Nat) (h4 : a % 4 = 0) (hind : isIndData a = false)
    (h : readReg a s = (w, t)) (hw : w < 2 ^ 32) : readIo source a 2 s = emit (.readData source w) t := by
  have ha : a / 4 * 4 = a := by omega
  have hall : bits w 0 (8 * 2 ^ 2) = w := (congrArg (· % 2 ^ 32) (Nat.div_one w)).trans (Nat.mod_eq_of_lt hw)
  simp only [readIo, ha, hind, h, h4, hall, Nat.mul_zero, Bool.false_eq_true, if_false]

/-- A 32-bit read of the low word returns it and latches the high word, whoever reads (R98). -/
theorem readIo_counterLow {s : State} {a v : Nat} (source : Nat) (h : counter64 s a = some v) :
    readIo source a 2 s = emit (.readData source (v % 2 ^ 32)) (setReg (a + 4) (v / 2 ^ 32) s) := by
  have hlow := counterLow_of_counter64 h
  have h8 := hlow.aligned
  exact readIo_word source (by omega) hlow.isIndData_eq_false (readReg_counterLow h) (Nat.mod_lt _ (by decide))

/-- A 32-bit read of the high word returns the holding register (R98). -/
theorem CounterLow.readIo_add_four {s : State} {a : Nat} (source : Nat) (h : CounterLow (actCount s) a) :
    readIo source (a + 4) 2 s = emit (.readData source (reg s (a + 4))) s := by
  have h8 := h.aligned
  exact readIo_word source (by omega) h.isIndData_add_four h.readReg_add_four (reg_lt s _)

/-- An aligned 64-bit read of a counter, which no fence keeps out, answers one snapshot (R98): its second half reads the
holding register that its first half has just latched. -/
theorem readPair_counterLow {s : State} {a v source : Nat} (h : counter64 s a = some v) (hlo : fenced s source a = false)
    (hhi : fenced s source (a + 4) = false) :
    readPair source a s = emit (.readData source (v % 2 ^ 64)) (setReg (a + 4) (v / 2 ^ 32) s) := by
  have hlow := counterLow_of_counter64 h
  have hhold : readReg (a + 4) (setReg (a + 4) (v / 2 ^ 32) s) =
      (v / 2 ^ 32 % 2 ^ 32, setReg (a + 4) (v / 2 ^ 32) s) := by
    rw [CounterLow.readReg_add_four (s := setReg (a + 4) (v / 2 ^ 32) s) hlow, reg_setReg_self]
  have hsnap : v % 2 ^ 32 + v / 2 ^ 32 % 2 ^ 32 * 2 ^ 32 = v % 2 ^ 64 := by omega
  simp only [readPair, halfRefused, hlo, hhi, hlow.isIndData_add_four, readReg_counterLow h, hhold, hsnap,
    Bool.false_eq_true, if_false]

/-! ### The commands that make them (R93, R98, R454) -/

/-- A read of a register that nothing refuses reaches its block. -/
theorem busAccess_io_read {s : State} {source a size : Nat} (e : MemErr)
    (hpmp : source < 64 → pmpFault s source a (2 ^ size) pmpR = false)
    (hok : accessRefused s source a size false = none) (hio : regionOf s a = .io) :
    busAccess source a size none e s = if size = 3 then readPair source a s else readIo source a size s := by
  have hpass : (decide (source < 64) && pmpFault s source a (2 ^ size) pmpR) = false := by
    rw [Bool.and_eq_false_imp, decide_eq_true_iff]
    exact hpmp
  simp only [busAccess, Option.isSome_none, Bool.false_eq_true, if_false, hpass, hok, hio]

/-- A hart's load from a counter's low word is one access of the bus. -/
theorem exec_counterLowRead {s : State} {a : BitVec 40} {v : Nat} (source : Fin 64) (wide : Bool) (h : Awake s)
    (hcount : counter64 s a.toNat = some v) :
    exec (.counterLowRead source a wide) s =
      .next (keep s (busAccess source a.toNat (if wide then 3 else 2) none .good s)) := by
  refine (act_next _ h).trans ?_
  rw [hcount, Option.isSome_some, if_pos rfl]

theorem exec_counterLowRead_word {s : State} {a : BitVec 40} {v : Nat} {source : Fin 64} (h : Awake s)
    (hcount : counter64 s a.toNat = some v) (hio : regionOf s a.toNat = .io)
    (hpmp : pmpFault s source a.toNat 4 pmpR = false) (hok : accessRefused s source a.toNat 2 false = none) :
    exec (.counterLowRead source a false) s =
      .next (emit (.readData source (v % 2 ^ 32)) (setReg (a.toNat + 4) (v / 2 ^ 32) s)) :=
  calc exec (.counterLowRead source a false) s
    _ = .next (keep s (busAccess source a.toNat 2 none .good s)) := exec_counterLowRead source false h hcount
    _ = .next (keep s (readIo source a.toNat 2 s)) := by
      rw [busAccess_io_read .good (fun _ => hpmp) hok hio, if_neg (by decide)]
    _ = _ := by rw [readIo_counterLow _ hcount]; rfl

theorem exec_counterLowRead_pair {s : State} {a : BitVec 40} {v : Nat} {source : Fin 64} (h : Awake s)
    (hcount : counter64 s a.toNat = some v) (hio : regionOf s a.toNat = .io)
    (hpmp : pmpFault s source a.toNat 8 pmpR = false) (hok : accessRefused s source a.toNat 3 false = none)
    (hlo : fenced s source a.toNat = false) (hhi : fenced s source (a.toNat + 4) = false) :
    exec (.counterLowRead source a true) s =
      .next (emit (.readData source (v % 2 ^ 64)) (setReg (a.toNat + 4) (v / 2 ^ 32) s)) :=
  calc exec (.counterLowRead source a true) s
    _ = .next (keep s (busAccess source a.toNat 3 none .good s)) := exec_counterLowRead source true h hcount
    _ = .next (keep s (readPair source a.toNat s)) := by
      rw [busAccess_io_read .good (fun _ => hpmp) hok hio, if_pos rfl]
    _ = _ := by rw [readPair_counterLow hcount hlo hhi]; rfl

/-- With no cause pending to end an operation, watching for one changes nothing (R385). -/
theorem watch_of_quiet {s : State} (h : Quiet s) : watch s = s := by
  have hone : ∀ n < 4, watchOne n s = s := fun n hn => by rw [watchOne, h n hn]
  simp only [watch, forTo, hone, Nat.reduceLT]

theorem noteSeverity_of_red {s t : State} (h : t.red = s.red) : noteSeverity s t = t := by rw [noteSeverity, h, if_pos rfl]

/-- A 32-bit read of a register by a reachable debug module (R454): what the read makes of the state stands, where it leaves
every lane and the redundancy logic alone. -/
theorem exec_debugModuleAccess_io_read {s t : State} {a : BitVec 40} (e : MemErr) (h : Awake s) (hquiet : Quiet s)
    (hdbg : debugReachable s = true) (htap : s.pwr.tapReset = false) (hok : accessRefused s 64 a.toNat 2 false = none)
    (hio : regionOf s a.toNat = .io) (hread : readIo 64 a.toNat 2 s = t) (hchan : t.chan = s.chan) (hred : t.red = s.red) :
    exec (.debugModuleAccess a 2 none e) s = .next (keep s t) := by
  have hbus : busAccess 64 a.toNat 2 none e s = t := by
    rw [busAccess_io_read e (fun hc => absurd hc (by decide)) hok hio, if_neg (by decide), hread]
  have hstill : Quiet t := fun n hn => by rw [getCh, hchan]; exact hquiet n hn
  calc exec (.debugModuleAccess a 2 none e) s
    _ = actAll s fun s => if debugReachable s && !s.pwr.tapReset then busAccess 64 a.toNat 2 none e s else s := rfl
    _ = .next (keep s (noteSeverity s (watch t))) := by
      rw [actAll, actSev_next _ h, hdbg, htap, Bool.not_false, Bool.and_self, if_pos rfl, hbus]
    _ = .next (keep s t) := by rw [watch_of_quiet hstill, noteSeverity_of_red hred]

end Sys2Proof.Machine

namespace Sys2Proof

open Sys2Proof.Machine

/-- Settles O37: a read of a counter's low word, by a hart or the debug module, latches its high word; the high word's address
holds a plain register, which a read of it and the second half of a 64-bit read show. -/
theorem designatedCountersAreReadCoherently : Obligations.DesignatedCountersAreReadCoherently := by
  intro s a v hawake hquiet hcount hio
  have hlow := counterLow_of_counter64 hcount
  have hhigh : (a + 4).toNat = a.toNat + 4 := by
    obtain ⟨-, hi⟩ := regionOf_io_range hio
    bv_omega
  have hlatch : reg (setReg (a.toNat + 4) (v / 2 ^ 32) s) (a.toNat + 4) = v / 2 ^ 32 % 2 ^ 32 := reg_setReg_self _ _ _
  refine ⟨fun source hpmp hok => ?_, fun hdbg htap hok e => ?_, fun hdbg htap hok e => ?_,
    fun source hpmp hok hlo hhi => ?_, ?_⟩
  · exact ⟨_, exec_counterLowRead_word hawake hcount hio hpmp hok, rfl, hlatch, rfl,
      fun b hb => reg_setReg_ne _ _ (List.ne_of_not_mem_cons hb)⟩
  · have hread := readIo_counterLow 64 hcount
    exact ⟨_, exec_debugModuleAccess_io_read e hawake hquiet hdbg htap hok hio hread rfl rfl, rfl, hlatch⟩
  · rw [← hhigh] at hok
    have hregion : regionOf s (a + 4).toNat = .io := hhigh ▸ regionOf_add_four hlow.aligned hio
    have hread : readIo 64 (a + 4).toNat 2 s = emit (.readData 64 (reg s (a.toNat + 4))) s := hhigh ▸ hlow.readIo_add_four 64
    exact ⟨_, exec_debugModuleAccess_io_read e hawake hquiet hdbg htap hok hregion hread rfl rfl, rfl, rfl⟩
  · exact ⟨_, exec_counterLowRead_pair hawake hcount hio hpmp hok hlo hhi, rfl, hlatch⟩
  · exact congrArg BitVec.toNat (hlow.regReset_add_four (actCount_le s))

end Sys2Proof
end

section
/-! PROOF. What the end of a track operation leaves alone (R376, R385): the sequencers, the records that one sequencer has
waiting in the recorder, the rate limit of a switch to ROM only, and the causes raised in the other lanes. First the stores
and operations that the engines share, then the journal and the commands in flight. -/

namespace Sys2Proof.Machine

/-! ### The view -/

/-- The part of the state that a switch of sequencer `m` to ROM only rests on (R387). -/
structure SeqView where
  seq : SMap Seqr
  waiting : List Rec
  rate : Nat
  stops : Nat → Option Nat

/-- The view of a state: the records of `m` that wait, and the cause raised in every lane but `m`. -/
def seqView (m : Nat) (s : State) : SeqView where
  seq := s.seq
  waiting := s.strata.queue.filter fun r => r.src == srcSeq m
  rate := rateOf s 0x142
  stops k := if k = m then none else (getCh s k).stop

variable {m : Nat}

/-- The view shows these fields alone. -/
theorem seqView_congr {s t : State} (hseq : t.seq = s.seq) (hstrata : t.strata = s.strata) (hregs : t.regs = s.regs)
    (hlanes : t.chan.lanes = s.chan.lanes) : seqView m t = seqView m s := by
  simp only [seqView, rateOf, regF, reg, regW, getCh, hseq, hstrata, hregs, hlanes]

theorem seqView_ite {c : Prop} [Decidable c] {s t u : State} (ht : seqView m t = seqView m s)
    (hu : seqView m u = seqView m s) : seqView m (if c then t else u) = seqView m s := by
  split
  · exact ht
  · exact hu

theorem seqView_foldl {α : Type} {f : State → α → State} (h : ∀ t x, seqView m (f t x) = seqView m t) (l : List α)
    (s : State) : seqView m (l.foldl f s) = seqView m s := by
  induction l generalizing s with
  | nil => rfl
  | cons x xs ih => exact (ih _).trans (h s x)

theorem seqView_forTo {f : Nat → State → State} (h : ∀ k t, seqView m (f k t) = seqView m t) (k : Nat) (s : State) :
    seqView m (forTo f k s) = seqView m s := by
  induction k with
  | zero => rfl
  | succ k ih => exact (h k _).trans ih

/-! ### Registers, memory and the units' own stores -/

/-- A write to any register but the one limit changes nothing of the view. -/
theorem seqView_setReg {a : Nat} (h : a ≠ aRateLimit 0x142) (v : Nat) (s : State) :
    seqView m (setReg a v s) = seqView m s := by
  simp only [seqView, rateOf, regF, reg_setReg_ne v s h.symm]; rfl

theorem seqView_setRegF {a : Nat} (h : a ≠ aRateLimit 0x142) (lo len v : Nat) (s : State) :
    seqView m (setRegF a lo len v s) = seqView m s := seqView_setReg h _ s

theorem seqView_incRegBy {a : Nat} (h : a ≠ aRateLimit 0x142) (k : Nat) (s : State) :
    seqView m (incRegBy a k s) = seqView m s := seqView_setReg h _ s

theorem seqView_incReg {a : Nat} (h : a ≠ aRateLimit 0x142) (s : State) : seqView m (incReg a s) = seqView m s :=
  seqView_setReg h _ s

@[simp] theorem seqView_setWide (a v : Nat) (s : State) : seqView m (setWide a v s) = seqView m s := rfl
@[simp] theorem seqView_incWideBy (a k : Nat) (s : State) : seqView m (incWideBy a k s) = seqView m s := rfl
@[simp] theorem seqView_emit (o : Out) (s : State) : seqView m (emit o s) = seqView m s := rfl
@[simp] theorem seqView_setCtx (i : Nat) (v : Option Ctx) (s : State) : seqView m (setCtx i v s) = seqView m s := rfl
@[simp] theorem seqView_setCtrl (i : Nat) (v : Option Ctrl) (s : State) : seqView m (setCtrl i v s) = seqView m s := rfl
@[simp] theorem seqView_setRec (i : Nat) (v : EntryRec) (s : State) : seqView m (setRec i v s) = seqView m s := rfl
@[simp] theorem seqView_setSlot (i : Nat) (v : Slot) (s : State) : seqView m (setSlot i v s) = seqView m s := rfl
@[simp] theorem seqView_setZone (g : Nat) (v : ZoneEnt) (s : State) : seqView m (setZone g v s) = seqView m s := rfl
@[simp] theorem seqView_setIZ (g : Nat) (v : IZone) (s : State) : seqView m (setIZ g v s) = seqView m s := rfl
@[simp] theorem seqView_setSched (n : Nat) (v : Sched) (s : State) : seqView m (setSched n v s) = seqView m s := rfl
@[simp] theorem seqView_setStream (k : Nat) (v : Stream) (s : State) : seqView m (setStream k v s) = seqView m s := rfl
@[simp] theorem seqView_setHsl (n : Nat) (v : Hsl) (s : State) : seqView m (setHsl n v s) = seqView m s := rfl
@[simp] theorem seqView_setEnt (e : Nat) (v : Option DefEnt) (s : State) : seqView m (setEnt e v s) = seqView m s := rfl

@[simp] theorem seqView_dramWrite (off : Nat) (bs : List Byte) (s : State) :
    seqView m (dramWrite off bs s) = seqView m s := by
  rw [dramWrite_frame]; rfl

theorem getCh_setCh (n : Nat) (v : Lane) (k : Nat) (s : State) :
    getCh (setCh n v s) k = if k = n then v else getCh s k := smGet_smSet _ _ _ _ _

/-- A lane's own changes do not show in its sequencer's view. -/
@[simp] theorem seqView_setCh (v : Lane) (s : State) : seqView m (setCh m v s) = seqView m s := by
  have hstops : (seqView m (setCh m v s)).stops = (seqView m s).stops := by
    funext k
    simp only [seqView, getCh_setCh]
    split <;> rfl
  exact congrArg (fun f => { seqView m s with stops := f }) hstops

@[simp] theorem seqView_freeBytes (k : Nat) (s : State) : seqView m (freeBytes k s).2 = seqView m s := by
  induction k generalizing s with
  | zero => rfl
  | succ k ih => exact (ih _).trans rfl

/-! ### The recorder (R424, R426, R427) -/

/-- A record of another source behind those that wait is none of the sequencer's. -/
theorem filter_append_other (r : Rec) (h : r.src ≠ srcSeq m) (q : List Rec) :
    (q ++ [r]).filter (fun r => r.src == srcSeq m) = q.filter fun r => r.src == srcSeq m := by
  have hother : [r].filter (fun r => r.src == srcSeq m) = [] := List.filter_cons_of_neg fun he => h (eq_of_beq he)
  rw [List.filter_append, hother, List.append_nil]

/-- A record of another source leaves the view as it is. -/
theorem seqView_enqueue {src : Nat} (h : src ≠ srcSeq m) (code : Nat) (args : List Nat) (s : State) :
    seqView m (enqueue src code args s) = seqView m s := by
  simp only [enqueue]
  split
  · refine congrArg (fun w => { seqView m s with waiting := w }) (filter_append_other _ ?_ s.strata.queue)
    exact h
  · exact seqView_incReg (by decide) _

theorem seqView_setBucket (src code : Nat) (b : Bucket) (s : State) :
    seqView m (setBucket src code b s) = seqView m s := rfl

theorem seqView_makeSuppressed {src : Nat} (h : src ≠ srcSeq m) (code : Nat) (s : State) :
    seqView m (makeSuppressed src code s) = seqView m s := by
  simp only [makeSuppressed]
  split
  · rfl
  · exact seqView_enqueue h _ _ _

theorem seqView_record {src : Nat} (h : src ≠ srcSeq m) (code : Nat) (args : List Nat) (s : State) :
    seqView m (record src code args s) = seqView m s := by
  simp only [record]
  split
  · rw [seqView_enqueue h, seqView_makeSuppressed h]
  · split
    · rw [seqView_setBucket, seqView_enqueue h, seqView_makeSuppressed h]
    · rw [seqView_setBucket, seqView_incReg (by decide)]

/-- The sources below 16 are no sequencer's (R422). -/
theorem ne_srcSeq {src : Nat} (h : src < 16) : src ≠ srcSeq m := by simp only [srcSeq]; omega

theorem seqView_record_cmd (code : Nat) (args : List Nat) (s : State) :
    seqView m (record srcCmd code args s) = seqView m s := seqView_record (ne_srcSeq (by decide)) _ _ _

/-! ### Capture and triggers (R438, R441) -/

theorem seqView_captureItem {k : Nat} (h : k < 4) (bs : List Byte) (s : State) :
    seqView m (captureItem k bs s) = seqView m s := by
  simp only [captureItem]
  split
  · rfl
  · split
    · exact seqView_incReg (by simp only [aCapDropped, aRateLimit]; omega) _
    · simp only [seqView_setStream, seqView_setWide, seqView_dramWrite]

@[simp] theorem seqView_triggerStream (b k : Nat) (s : State) : seqView m (triggerStream b k s) = seqView m s := by
  simp only [triggerStream]
  split
  · rfl
  · split <;> rw [seqView_setStream]

@[simp] theorem seqView_trigger (i : Nat) (s : State) : seqView m (trigger i s) = seqView m s := by
  simp only [trigger]
  split
  · exact seqView_forTo (seqView_triggerStream i) 4 s
  · rfl

/-! ### Events and faults (R148, R399) -/

@[simp] theorem seqView_postTo (e : Evt) (i : Nat) (s : State) : seqView m (postTo e i s) = seqView m s := by
  unfold postTo
  split
  · rfl
  · split
    · rfl
    · split <;> rfl

@[simp] theorem seqView_postEvent (e : Evt) (gate : Option Nat) (s : State) :
    seqView m (postEvent e gate s) = seqView m s := by
  refine seqView_foldl (fun t x => ?_) _ _
  cases x.2 with
  | none => rfl
  | some c => exact seqView_ite (seqView_postTo _ _ _) rfl

@[simp] theorem seqView_faultEvent (code unit event : Nat) (s : State) :
    seqView m (faultEvent code unit event s) = seqView m s :=
  calc seqView m (faultEvent code unit event s)
    _ = seqView m (record srcRed 0x40 _ s) :=
      (seqView_setReg (by decide) _ _).trans (seqView_congr rfl rfl rfl rfl)
    _ = seqView m s := seqView_record (ne_srcSeq (by decide)) _ _ _

/-! ### The journal (R164–R172) -/

@[simp] theorem seqView_writeDesc (h : Nat) (s : State) : seqView m (writeDesc h s) = seqView m s := by
  unfold writeDesc
  dsimp only
  split <;> rfl

@[simp] theorem seqView_syncDesc (s : State) : seqView m (syncDesc s) = seqView m s := seqView_writeDesc _ _

@[simp] theorem seqView_dropHosts (s : State) : seqView m (dropHosts s) = seqView m s := rfl

@[simp] theorem seqView_freeSlots (r : EntryRec) (s : State) : seqView m (freeSlots r s) = seqView m s :=
  seqView_foldl (fun _ _ => seqView_setSlot _ _ _) _ _

@[simp] theorem seqView_leaveJournal (i : Nat) (s : State) : seqView m (leaveJournal i s) = seqView m s := by
  simp only [leaveJournal]
  split
  · rfl
  · split
    · rw [seqView_syncDesc, seqView_setRec, seqView_freeSlots]
    · rw [seqView_syncDesc, seqView_dropHosts, seqView_foldl fun _ _ => seqView_setRec _ _ _, seqView_setRec, seqView_freeSlots]

@[simp] theorem seqView_freeCommand (q : Nat) (s : State) : seqView m (freeCommand q s) = seqView m s := by
  rw [freeCommand, seqView_syncDesc, seqView_dropHosts]
  exact seqView_foldl (fun t e => by rw [seqView_setRec, seqView_freeSlots]) _ _

/-! ### Zones and deferred errors (R151, R166, R190–R193) -/

@[simp] theorem seqView_setZState (g st : Nat) (s : State) : seqView m (setZState g st s) = seqView m s := rfl

@[simp] theorem seqView_finishByController (g : Nat) (s : State) :
    seqView m (finishByController g s) = seqView m s := by
  unfold finishByController
  split <;> rfl

@[simp] theorem seqView_noteAna (s : State) : seqView m (noteAna s) = seqView m s := by
  refine seqView_foldl (fun t g => ?_) _ _
  dsimp only
  split
  · rfl
  · exact seqView_postEvent _ _ _

@[simp] theorem seqView_setDegraded (n : Nat) (on : Bool) (s : State) :
    seqView m (setDegraded n on s) = seqView m s := by
  simp only [setDegraded]
  split
  · rfl
  · rw [seqView_noteAna, seqView_faultEvent]
    split
    · exact (seqView_congr rfl rfl rfl rfl).trans (seqView_record_cmd _ _ _)
    · exact seqView_record_cmd _ _ _

@[simp] theorem seqView_endDegraded (s : State) : seqView m (endDegraded s) = seqView m s := by
  unfold endDegraded
  split
  · exact seqView_forTo (fun n t => seqView_setDegraded n false t) 4 s
  · rfl

@[simp] theorem seqView_freeDeferred (i : Nat) (s : State) : seqView m (freeDeferred i s) = seqView m s := by
  simp only [freeDeferred, seqView_endDegraded, seqView_leaveJournal]
  rfl

theorem seqView_breach (broken kept seq : Nat) (h : broken = 2 ∨ broken = 3) (s : State) :
    seqView m (breach broken kept seq s) = seqView m s := by
  rw [breach, seqView_incReg (a := aBreach broken) (by simp only [aBreach, aRateLimit]; omega), seqView_record_cmd]

@[simp] theorem seqView_breachBlock (i : Nat) (all : Bool) (s : State) : seqView m (breachBlock i all s) = seqView m s := by
  simp only [breachBlock]
  split
  · rfl
  · split
    · rw [seqView_breach _ _ _ (.inl rfl), seqView_setRec]
    · rw [seqView_breach _ _ _ (.inr rfl), seqView_breach _ _ _ (.inl rfl), seqView_setRec]

@[simp] theorem seqView_deferRecord (i reason failed : Nat) (s : State) :
    seqView m (deferRecord i reason failed s) = seqView m s := by
  unfold deferRecord
  extract_lets r f zoned g s1 s2 d j j1 j2 mark j3 s3 s4 s5 s6
  have hzone : seqView m s2 = seqView m s := seqView_ite (seqView_finishByController g s1) rfl
  have hlog : seqView m s3 = seqView m s := (seqView_congr rfl rfl rfl rfl).trans hzone
  have hsync : seqView m s6 = seqView m s :=
    (seqView_syncDesc s5).trans ((seqView_trigger 5 s4).trans ((seqView_record_cmd _ _ s3).trans hlog))
  exact seqView_ite rfl (seqView_ite ((seqView_setDegraded _ _ s6).trans hsync) hsync)

/-! ### Commands and connections (R134, R137, R163, R194) -/

@[simp] theorem seqView_sendReady (k x : Nat) (s : State) : seqView m (sendReady k x s) = seqView m s := by
  induction k generalizing s with
  | zero => rfl
  | succ k ih =>
    unfold sendReady
    split
    · rfl
    · split
      · rfl
      · dsimp only
        split
        · rfl
        · rw [ih, seqView_setCtx, seqView_emit]

@[simp] theorem seqView_sendC2h (x q cid : Nat) (data : List Byte) (s : State) :
    seqView m (sendC2h x q cid data s) = seqView m s := by
  have hall : ∀ t, seqView m (sendAll x t) = seqView m t := fun t => by
    unfold sendAll
    split
    · exact seqView_sendReady _ _ _
    · rfl
  unfold sendC2h
  split
  · rfl
  · split
    · rfl
    · rw [hall, seqView_setCtx, seqView_emit]

@[simp] theorem seqView_putCmd (c : Cmd) (s : State) : seqView m (putCmd c s) = seqView m s := rfl
@[simp] theorem seqView_keepEntries (p : SchedEnt → Bool) (s : State) : seqView m (keepEntries p s) = seqView m s := rfl
@[simp] theorem seqView_dropCmd (q : Nat) (s : State) : seqView m (dropCmd q s) = seqView m s := rfl
@[simp] theorem seqView_pruneSched (s : State) : seqView m (pruneSched s) = seqView m s := rfl
@[simp] theorem seqView_trimStaged (s : State) : seqView m (trimStaged s) = seqView m s := rfl
@[simp] theorem seqView_limitStaged (p : Staged → Bool) (q : Nat) (s : State) :
    seqView m (limitStaged p q s) = seqView m s := rfl

@[simp] theorem seqView_noteError (c : Cmd) (status : Nat) (s : State) :
    seqView m (noteError c status s) = seqView m s := by
  unfold noteError
  split
  · rfl
  · split <;> rfl

@[simp] theorem seqView_postCompletion (c : Cmd) (status dw0 dw1 : Nat) (s : State) :
    seqView m (postCompletion c status dw0 dw1 s) = seqView m s := by
  have hsent : ∀ (x : Option Nat) (f : Nat → Out) (t : State),
      seqView m (match x with | some x => emit (f x) t | none => t) = seqView m t := fun x f t => by
    cases x <;> rfl
  simp only [postCompletion, seqView_dropCmd, seqView_noteError]
  split
  · exact (seqView_congr rfl rfl rfl rfl).trans ((hsent c.ctx _ _).trans (seqView_captureItem (by decide) _ s))
  · exact (hsent c.ctx _ _).trans (seqView_captureItem (by decide) _ s)

@[simp] theorem seqView_postEffective (k : Nat) (s : State) : seqView m (postEffective k s) = seqView m s := by
  induction k generalizing s with
  | zero => rfl
  | succ k ih =>
    unfold postEffective
    split
    · rfl
    · rw [ih, seqView_postCompletion]

@[simp] theorem seqView_postDue (s : State) : seqView m (postDue s) = seqView m s := seqView_postEffective _ _

@[simp] theorem seqView_markEffective (c : Cmd) (status : Nat) (s : State) :
    seqView m (markEffective c status s) = seqView m s := by
  rw [markEffective, seqView_postDue, seqView_putCmd]

/-- Records leaving the journal one after the other, the deferred ones with their entries (R172, R193). -/
theorem seqView_foldl_leaveJournal (l : List (Nat × EntryRec)) (s : State) :
    seqView m (l.foldl (fun t e => if e.2.state = 4 then freeDeferred e.1 t else leaveJournal e.1 t) s) = seqView m s :=
  seqView_foldl (fun _ _ => seqView_ite (seqView_freeDeferred _ _) (seqView_leaveJournal _ _)) l s

@[simp] theorem seqView_sweep (s : State) : seqView m (sweep s) = seqView m s := by
  rw [sweep, seqView_pruneSched, seqView_foldl_leaveJournal]

@[simp] theorem seqView_markGone (c : Cmd) (status : Nat) (s : State) : seqView m (markGone c status s) = seqView m s := by
  unfold markGone
  extract_lets t
  have hstale : seqView m t = seqView m s := by
    simp only [t]
    split
    · split
      · exact seqView_ite rfl rfl
      · rfl
    · rfl
  exact (seqView_congr rfl rfl rfl rfl).trans hstale

@[simp] theorem seqView_voidZone (g q : Nat) (s : State) : seqView m (voidZone g q s) = seqView m s := by
  rw [voidZone, seqView_pruneSched, seqView_foldl_leaveJournal]

@[simp] theorem seqView_zoneWritten (g : Nat) (s : State) : seqView m (zoneWritten g s) = seqView m s := by
  have hopen : ∀ (p : Prop) [Decidable p] (st : Nat) (t : State), seqView m (if p then setZState g st t else t) = seqView m t :=
    fun _ _ _ _ => seqView_ite rfl rfl
  exact (hopen _ _ _).trans (hopen _ _ s)

@[simp] theorem seqView_zmsEffect (c : Cmd) (g : Nat) (s : State) : seqView m (zmsEffect c g s) = seqView m s := by
  unfold zmsEffect
  extract_lets z t j t' n
  have hvoid : seqView m t = seqView m s := (seqView_limitStaged _ _ _).trans (seqView_voidZone _ _ _)
  have hreset : seqView m t' = seqView m s := (seqView_congr rfl rfl rfl rfl).trans hvoid
  split
  · exact seqView_ite rfl rfl
  · exact seqView_ite rfl rfl
  · exact seqView_ite rfl rfl
  · exact seqView_ite rfl hreset
  · refine seqView_ite ?_ rfl
    rw [seqView_record_cmd, seqView_setZState, seqView_voidZone]
  · rfl

@[simp] theorem seqView_zmsTakesEffect (c : Cmd) (s : State) : seqView m (zmsTakesEffect c s) = seqView m s := by
  rw [zmsTakesEffect, seqView_markEffective]
  exact seqView_foldl (fun t g => seqView_zmsEffect c g t) _ _

@[simp] theorem seqView_admitEntry (e : SchedEnt) (s : State) : seqView m (admitEntry e s) = seqView m s := by
  unfold admitEntry
  extract_lets held n d t
  refine seqView_ite rfl (seqView_ite ?_ rfl)
  rw [seqView_trimStaged]
  split <;> rfl

@[simp] theorem seqView_admitWaiting (s : State) : seqView m (admitWaiting s) = seqView m s :=
  seqView_ite rfl ((seqView_foldl (fun t e => seqView_admitEntry e t) _ _).trans (seqView_congr rfl rfl rfl rfl))

@[simp] theorem seqView_queueDestage (q : Nat) (s : State) : seqView m (queueDestage q s) = seqView m s :=
  seqView_foldl (fun _ _ => seqView_ite (seqView_admitEntry _ _) rfl) _ _

@[simp] theorem seqView_commitNow (c : Cmd) (s : State) : seqView m (commitNow c s) = seqView m s := by
  unfold commitNow
  extract_lets s1 s2 s3
  have hrecs : seqView m s1 = seqView m s := seqView_foldl (fun _ _ => seqView_setRec _ _ _) _ _
  have hdestage : seqView m s2 = seqView m s := by
    rw [seqView_limitStaged, seqView_queueDestage, seqView_syncDesc, hrecs]
  have hzone : seqView m s3 = seqView m s := by
    simp only [s3]
    split
    · rw [seqView_zoneWritten, hdestage]
    · exact hdestage
  refine seqView_ite ?_ ?_
  · rw [seqView_sweep, seqView_markGone, seqView_freeCommand]
  · rw [seqView_sweep, seqView_markEffective, hzone]

@[simp] theorem seqView_runDue (k : Nat) (s : State) : seqView m (runDue k s) = seqView m s := by
  induction k generalizing s with
  | zero => rfl
  | succ k ih =>
    unfold runDue
    split
    · rw [ih, seqView_zmsTakesEffect]
    · split
      · rw [ih, seqView_commitNow]
      · rw [seqView_admitWaiting, seqView_postDue]

@[simp] theorem seqView_progress (s : State) : seqView m (progress s) = seqView m s := seqView_runDue _ _

@[simp] theorem seqView_serveRead (c : Cmd) (s : State) : seqView m (serveRead c s) = seqView m s := by
  have hsend : ∀ data, seqView m (sendData c data s) = seqView m s := fun data => by
    unfold sendData
    split
    · exact seqView_sendC2h _ _ _ _ _
    · rfl
  refine seqView_ite ?_ rfl
  rw [finishRead, seqView_postCompletion]
  exact seqView_ite (hsend _) rfl

@[simp] theorem seqView_stageBlock (nsid lba : Nat) (data : List Byte) (s : State) :
    seqView m (stageBlock nsid lba data s) = seqView m s := by
  unfold stageBlock
  extract_lets _ t
  have hkept : seqView m t = seqView m s := seqView_ite rfl rfl
  exact (seqView_foldl (fun _ _ => seqView_serveRead _ _) _ _).trans hkept

@[simp] theorem seqView_returnBlocks (n : Nat) (e : SchedEnt) (blocks : List Nat) (s : State) :
    seqView m (returnBlocks n e blocks s) = seqView m s := seqView_ite rfl rfl

end Sys2Proof.Machine
end

section
/-! PROOF. What a lane's end of a read or a write leaves of the same view: decoding, the deferred-decode buffer, sectors and
groups, the report of a write, and the completion of an operation (R252–R277, R294, R376). -/

namespace Sys2Proof.Machine

variable {m : Nat}

/-! ### Uncorrectable blocks met (R88, R89) -/

@[simp] theorem seqView_noteUe (block : Nat) (s : State) : seqView m (noteUe block s) = seqView m s := by
  unfold noteUe
  split
  all_goals rw [seqView_record (ne_srcSeq (by decide)), seqView_incReg (by decide)]

@[simp] theorem seqView_noteRead (off n : Nat) (s : State) : seqView m (noteRead off n s) = seqView m s :=
  seqView_ite rfl (seqView_foldl (fun _ _ => seqView_noteUe _ _) _ _)

/-! ### The pool, results and captures of the channel (R255–R259, R375, R440) -/

@[simp] theorem seqView_dropJobs (p : Job → Bool) (s : State) : seqView m (dropJobs p s) = seqView m s := rfl

@[simp] theorem seqView_addJob (j : Job) (s : State) : seqView m (addJob j s) = seqView m s :=
  (seqView_congr rfl rfl rfl rfl).trans (seqView_ite (seqView_incReg (by decide) s) rfl)

@[simp] theorem seqView_charge (n cls k : Nat) (s : State) : seqView m (charge n cls k s) = seqView m s :=
  seqView_ite rfl rfl

/-- A lane's count raised. -/
theorem seqView_incRegBy_aChl (n : Nat) {j : Nat} (h : j < 58) (k : Nat) (s : State) :
    seqView m (incRegBy (aChl n j) k s) = seqView m s :=
  seqView_incRegBy (by simp only [aChl, aRateLimit]; omega) k s

theorem seqView_incReg_aChl (n : Nat) {j : Nat} (h : j < 58) (s : State) :
    seqView m (incReg (aChl n j) s) = seqView m s := seqView_incRegBy_aChl n h 1 s

@[simp] theorem seqView_postResult (slot rcode entry : Nat) (s : State) :
    seqView m (postResult m slot rcode entry s) = seqView m s :=
  seqView_ite (seqView_setCh _ _) (seqView_setCh _ _)

@[simp] theorem seqView_mapSecs (f : Sector → Sector) (s : State) : seqView m (mapSecs m f s) = seqView m s :=
  seqView_setCh _ _

@[simp] theorem seqView_updSec (slot : Nat) (f : Sector → Sector) (s : State) :
    seqView m (updSec m slot f s) = seqView m s := seqView_mapSecs _ _

@[simp] theorem seqView_stageData (stage : Option Nat) (piAt : Nat) (pi : Bool) (block : Option (Nat × Nat))
    (info : List Byte) (s : State) : seqView m (stageData stage piAt pi block info s) = seqView m s := by
  unfold stageData
  split
  · rfl
  · next a =>
    extract_lets s1 s2
    have hwritten : seqView m s2 = seqView m s :=
      seqView_ite ((seqView_dramWrite _ _ s1).trans (seqView_dramWrite _ _ s)) (seqView_dramWrite _ _ s)
    split
    · rw [seqView_stageBlock, hwritten]
    · exact hwritten

@[simp] theorem seqView_captureSector (n pset : Nat) (psetB : List Byte) (x : Sector) (e : CapExt) (s : State) :
    seqView m (captureSector n pset psetB x e s).2 = seqView m s := by
  simp only [captureSector]
  split
  · rfl
  · split
    · exact seqView_incReg (by decide) s
    · exact (seqView_captureItem (by decide) _ _).trans (seqView_congr rfl rfl rfl rfl)

/-! ### The deferred-decode buffer (R264–R268) -/

@[simp] theorem seqView_notePatrol (n weak : Nat) (bad : Bool) (s : State) :
    seqView m (notePatrol n weak bad s) = seqView m s := by
  unfold notePatrol
  extract_lets d
  split <;> rfl

@[simp] theorem seqView_setEntSt (e st source : Nat) (s : State) : seqView m (setEntSt e st source s) = seqView m s := by
  unfold setEntSt
  split
  · rfl
  · next x =>
    extract_lets s1 s2 s3 s4 s5
    have hpatrol : seqView m s2 = seqView m s :=
      seqView_ite ((seqView_notePatrol _ _ _ s1).trans (seqView_charge _ _ _ s)) (seqView_charge _ _ _ s)
    rw [seqView_setReg (by decide), seqView_dramWrite, seqView_dramWrite, seqView_setEnt, hpatrol]

@[simp] theorem seqView_closeEntJob (e : Nat) (s : State) : seqView m (closeEntJob e s) = seqView m s := by
  simp only [closeEntJob]
  split <;> rfl

@[simp] theorem seqView_defFail (e : Nat) (s : State) : seqView m (defFail e s) = seqView m s := by
  simp only [defFail]
  split
  · exact seqView_closeEntJob e s
  · split <;> rw [seqView_setEntSt, seqView_closeEntJob]

@[simp] theorem seqView_defNext (e : Nat) (s : State) : seqView m (defNext e s) = seqView m s := by
  unfold defNext
  split
  · rfl
  · next x =>
    extract_lets start
    have hstart : ∀ k c cs, seqView m (start k c cs) = seqView m s := fun k c cs => by
      rw [seqView_addJob, seqView_setEnt]
    split
    · exact hstart _ _ _
    · refine seqView_ite (seqView_defFail e s) ?_
      split
      · split
        · exact hstart _ _ _
        · rfl
      · rfl

@[simp] theorem seqView_defStart (e : Nat) (s : State) : seqView m (defStart e s) = seqView m s := by
  unfold defStart
  split
  · rfl
  · next x =>
    extract_lets s1 k s2
    refine seqView_ite (seqView_setEntSt _ _ _ _) ?_
    rw [seqView_defNext]
    refine (seqView_ite rfl ?_).trans (seqView_noteRead _ _ s)
    rw [seqView_dramWrite, seqView_incRegBy_aChl _ (by decide)]

@[simp] theorem seqView_entQueue (e : Nat) (s : State) : seqView m (entQueue e s) = seqView m s := by
  unfold entQueue
  split
  · exact seqView_ite ((seqView_defStart _ _).trans (seqView_setEntSt _ _ _ _)) rfl
  · rfl

@[simp] theorem seqView_entConfirm (e source : Nat) (info : List Byte) (s : State) :
    seqView m (entConfirm e source info s) = seqView m s := by
  unfold entConfirm
  split
  · rfl
  · refine seqView_ite (seqView_incReg_aChl _ (by decide) _) ?_
    rw [seqView_stageData, seqView_setEntSt, seqView_closeEntJob]

@[simp] theorem seqView_fillEntry (n : Nat) (x : Sector) (group : Bool) (s : State) :
    seqView m (fillEntry n x group s).2 = seqView m s := by
  unfold fillEntry
  extract_lets l d e st ent llr s1 off s2 s3 _ s4 s5
  have hfree : seqView m s1 = seqView m s := seqView_freeBytes 36864 s
  have hwritten : seqView m s3 = seqView m s :=
    (seqView_dramWrite _ _ s2).trans ((seqView_dramWrite _ _ s1).trans hfree)
  clear_value s3
  have hstored : seqView m s4 = seqView m s := (seqView_congr rfl rfl rfl rfl).trans hwritten
  have hentry : seqView m s5 = seqView m s :=
    (seqView_setReg (by decide) _ _).trans ((seqView_setReg (by decide) _ s4).trans hstored)
  split
  · rfl
  · split
    · exact seqView_incReg (by decide) s
    · exact seqView_ite hentry ((seqView_defStart _ _).trans hentry)

/-! ### Sectors and groups resolved (R252–R263) -/

theorem srcChl_ne_srcSeq (n : Nat) : srcChl n ≠ srcSeq n := by simp only [srcChl, srcSeq]; omega

@[simp] theorem seqView_closeCands (slot : Nat) (s : State) : seqView m (closeCands m slot s) = seqView m s := by
  simp only [closeCands, seqView_dropJobs, seqView_updSec]

@[simp] theorem seqView_countOtf (n : Nat) (pi : Bool) (x : Sector) (ok : Option Nat) (forced ab : Bool) (s : State) :
    seqView m (countOtf n pi x ok forced ab s) = seqView m s := by
  unfold countOtf
  extract_lets add rejects decoded s1 s2 s3 s4 s5 s6 s7
  have hadd : ∀ j k t, j < 58 → seqView m (add j k t) = seqView m t := fun j k t h =>
    seqView_ite rfl (seqView_incRegBy_aChl n h k t)
  have hcounts : seqView m s6 = seqView m s := by
    rw [hadd 7 _ _ (by decide), hadd 8 _ _ (by decide), hadd 9 _ _ (by decide), hadd 3 _ _ (by decide),
      hadd 2 _ _ (by decide), hadd 6 _ _ (by decide), seqView_charge, seqView_charge]
  split
  · rw [hadd 10 _ _ (by decide), hadd 11 _ _ (by decide), hadd 4 _ _ (by decide), hadd 5 _ _ (by decide),
      seqView_incWideBy, hcounts]
  · refine seqView_ite ?_ ?_
    · rw [hadd 12 _ _ (by decide), hcounts]
    · rw [hadd 0 _ _ (by decide), hadd 1 _ _ (by decide), hcounts]

@[simp] theorem seqView_releaseMember (x : Sector) (s : State) : seqView m (releaseMember m x s) = seqView m s := by
  unfold releaseMember
  refine seqView_ite rfl ?_
  extract_lets s1
  have hposted : seqView m s1 = seqView m s := seqView_mapSecs _ _
  split
  · rw [seqView_postResult, seqView_entQueue, hposted]
  · rw [seqView_postResult]
    exact seqView_ite ((seqView_notePatrol _ _ _ _).trans hposted) hposted

@[simp] theorem seqView_releaseGroup (g : Nat) (s : State) : seqView m (releaseGroup m g s) = seqView m s :=
  seqView_foldl (fun t x => seqView_releaseMember x t) _ _

@[simp] theorem seqView_parityConfirm (x : Sector) (info : List Byte) (s : State) :
    seqView m (parityConfirm m x info s) = seqView m s := by
  unfold parityConfirm
  extract_lets d s1 s2 s3
  have hconfirmed : seqView m s2 = seqView m s :=
    (seqView_mapSecs _ _).trans (seqView_incReg_aChl m (by decide) s)
  refine seqView_ite hconfirmed ?_
  rw [seqView_postResult]
  simp only [s3]
  split
  · rw [seqView_entConfirm, hconfirmed]
  · rw [seqView_stageData, hconfirmed]

@[simp] theorem seqView_recoverGroup (g : Nat) (s : State) : seqView m (recoverGroup m g s) = seqView m s := by
  unfold recoverGroup
  extract_lets l d slots all f lost acc once s1
  have honce : ∀ v, seqView m (setCh m v s) = seqView m s := fun v => seqView_setCh v s
  refine seqView_ite rfl (seqView_ite ?_ ?_)
  · rw [seqView_releaseGroup, honce]
  rcases f with _ | ⟨x, _ | ⟨y, _ | ⟨z, zs⟩⟩⟩
  · rfl
  · refine seqView_ite ?_ ?_
    · rw [seqView_parityConfirm, honce]
    · rw [seqView_releaseGroup, seqView_incReg_aChl m (by decide), honce]
  · exact seqView_ite rfl ((seqView_addJob _ _).trans (honce _))
  · exact (seqView_releaseGroup _ _).trans (honce _)

@[simp] theorem seqView_groupCheck (g : Nat) (s : State) : seqView m (groupCheck m g s) = seqView m s :=
  seqView_ite (seqView_releaseGroup g s) (seqView_recoverGroup g s)

@[simp] theorem seqView_resolveRead (slot : Nat) (ok : Option Nat) (forced ab : Bool) (s : State) :
    seqView m (resolveRead m slot ok forced ab s) = seqView m s := by
  unfold resolveRead
  extract_lets s1 l d pi grp
  have hclosed : seqView m s1 = seqView m s := seqView_closeCands slot s
  split
  · exact hclosed
  · next x _ =>
    extract_lets its s2 s3 s4 waits fe s5 cap s6 s7 s8
    split
    · next e _ =>
      extract_lets s9 s10 fin s11 s12
      have hentry : seqView m s9 = seqView m s1 := by
        simp only [s9]
        split
        · rw [seqView_dramWrite, seqView_setEnt]
        · rfl
      have hcharged : seqView m s10 = seqView m s := (seqView_charge _ _ _ _).trans (hentry.trans hclosed)
      split
      · rw [seqView_postResult, seqView_entConfirm, seqView_updSec]
        exact seqView_ite hcharged ((seqView_incReg_aChl m (by decide) _).trans hcharged)
      · refine seqView_ite ?_ ?_
        all_goals rw [seqView_postResult, seqView_updSec, hcharged]
    · have hcounted : seqView m s2 = seqView m s := (seqView_countOtf _ _ _ _ _ _ _).trans hclosed
      split
      · rw [seqView_groupCheck]
        refine seqView_ite ?_ ?_
        · rw [seqView_postResult, seqView_updSec, hcounted]
        · rw [seqView_postResult, seqView_stageData, seqView_updSec, hcounted]
      · have hweak : seqView m s4 = seqView m s := seqView_ite ((seqView_notePatrol _ _ _ _).trans hcounted) hcounted
        have hcap : seqView m cap.2 = seqView m s :=
          (seqView_captureSector _ _ _ _ _ _).trans ((seqView_fillEntry _ _ _ _).trans hweak)
        have hfailed : seqView m s7 = seqView m s :=
          (seqView_updSec _ _ _).trans ((seqView_record (srcChl_ne_srcSeq m) _ _ _).trans hcap)
        have hposted : seqView m s8 = seqView m s := seqView_ite ((seqView_postResult _ _ _ _).trans hfailed) hfailed
        refine seqView_ite ((seqView_postResult _ _ _ _).trans ((seqView_updSec _ _ _).trans hcounted))
          (seqView_ite ((seqView_groupCheck _ _).trans hposted) ?_)
        split
        · exact (seqView_releaseMember _ _).trans hposted
        · exact hposted

@[simp] theorem seqView_abandonUnarmed (s : State) : seqView m (abandonUnarmed m s) = seqView m s := by
  unfold abandonUnarmed
  extract_lets l left ahead t
  have hcounted : seqView m t = seqView m s := seqView_setCh _ _
  exact seqView_ite hcounted ((seqView_incRegBy_aChl m (by decide) _ _).trans hcounted)

@[simp] theorem seqView_endRead (s : State) : seqView m (endRead m s) = seqView m s := by
  unfold endRead
  extract_lets par spent s1 open_ s2
  have hcharged : seqView m s1 = seqView m s := (seqView_charge _ _ _ _).trans (seqView_dropJobs _ _)
  have hresolved : seqView m s2 = seqView m s := by
    rw [seqView_abandonUnarmed]
    exact (seqView_foldl (fun t k => seqView_resolveRead k none false true t) _ _).trans hcharged
  exact (seqView_foldl (fun t g => seqView_releaseGroup g t) _ _).trans hresolved

/-! ### The end of a write (R277, R294, R295) -/

@[simp] theorem seqView_storeCarry (n : Nat) (s : State) : seqView m (storeCarry n s) = seqView m s := by
  unfold storeCarry
  extract_lets l d g open_
  refine seqView_ite rfl ?_
  split
  · exact seqView_dramWrite _ _ _
  · rfl

@[simp] theorem seqView_advanceMedia (i : Nat) (r : EntryRec) (s : State) :
    seqView m (advanceMedia i r s) = seqView m s := seqView_ite rfl rfl

@[simp] theorem seqView_reportRecord (i : Nat) (outs : List (Nat × Nat)) (s : State) :
    seqView m (reportRecord i outs s) = seqView m s := by
  unfold reportRecord
  extract_lets r un open_ lost n c e placed
  refine seqView_ite rfl (seqView_ite (seqView_ite ?_ ?_) (seqView_ite ?_ (seqView_ite ?_ (seqView_ite ?_ ?_))))
  · rw [seqView_deferRecord, seqView_breachBlock]
  · exact seqView_deferRecord _ _ _ _
  · exact seqView_deferRecord _ _ _ _
  · rw [seqView_setSched, seqView_setRec]
  · rw [seqView_leaveJournal, seqView_advanceMedia]
  · exact seqView_setRec _ _ _

@[simp] theorem seqView_reportWrite (n : Nat) (s : State) : seqView m (reportWrite n s) = seqView m s := by
  unfold reportWrite
  extract_lets l d outs t
  rw [seqView_progress, seqView_sweep]
  exact seqView_foldl (fun t i => seqView_reportRecord i _ t) _ _

@[simp] theorem seqView_endWrite (n : Nat) (s : State) : seqView m (endWrite n s) = seqView m s := by
  simp only [endWrite, seqView_setHsl, seqView_reportWrite, seqView_storeCarry, seqView_dropJobs]

/-! ### The end of an operation (R376, R393, R439) -/

@[simp] theorem seqView_traceItem (n kind from_ to_ cond : Nat) (s : State) :
    seqView m (traceItem n kind from_ to_ cond s) = seqView m s := seqView_captureItem (by decide) _ s

@[simp] theorem seqView_endMedia (n : Nat) (s : State) : seqView m (endMedia n s) = seqView m s := by
  unfold endMedia
  split
  · rfl
  · next e =>
    extract_lets all
    split
    · exact seqView_returnBlocks _ _ _ _
    · exact seqView_ite rfl rfl
    · rfl

@[simp] theorem seqView_complete (n : Nat) (rec_ : List Byte) (s : State) :
    seqView m (complete n rec_ s) = seqView m s := by
  unfold complete
  extract_lets i t
  rw [seqView_setRegF (a := aSeqCplIdx n) (by simp only [aSeqCplIdx, aRateLimit]; omega), seqView_dramWrite]

end Sys2Proof.Machine
end

section
/-! PROOF. The fourth microcode fault of a patch bank within a second (R387): the word ends by a forced end, if an operation is
in hand, the recorder still has room for the record of the switch, and the switch leaves ROM only. -/

namespace Sys2Proof.Machine

/-! ### The sequencers as the end of an operation leaves them -/

theorem getSq_setSq (n : Nat) (v : Seqr) (k : Nat) (s : State) :
    getSq (setSq n v s) k = if k = n then v else getSq s k := smGet_smSet _ _ _ _ _

@[simp] theorem getSq_setSq_self (n : Nat) (v : Seqr) (s : State) : getSq (setSq n v s) n = v := smGet_smSet_self _ _ _ _

theorem getSq_congr {s t : State} (h : t.seq = s.seq) (n : Nat) : getSq t n = getSq s n := by rw [getSq, getSq, h]

theorem getCh_congr {s t : State} (h : t.chan = s.chan) (n : Nat) : getCh t n = getCh s n := by rw [getCh, getCh, h]

theorem getSq_of_seqView {m : Nat} {s t : State} (h : seqView m t = seqView m s) (n : Nat) : getSq t n = getSq s n :=
  getSq_congr (congrArg SeqView.seq h) n

@[simp] theorem setSq_chan (n : Nat) (v : Seqr) (s : State) : (setSq n v s).chan = s.chan := rfl
@[simp] theorem setSq_strata (n : Nat) (v : Seqr) (s : State) : (setSq n v s).strata = s.strata := rfl

/-- Nothing of the view but the sequencers changes with one of them. -/
theorem seqView_setSq (m n : Nat) (v : Seqr) (s : State) :
    seqView m (setSq n v s) = { seqView m s with seq := smSet (fun _ => {}) (seqView m s).seq n v } := rfl

/-! ### Records of the sequencer's own -/

/-- The view of a sequencer that has at most `k` records waiting, no limit on the record of a switch to ROM only, and no cause
raised in any other lane. -/
structure SeqView.Ready (k : Nat) (v : SeqView) : Prop where
  rate : v.rate = 0
  waiting : v.waiting.length ≤ k
  stops : ∀ i < 4, v.stops i = none

variable {m k : Nat} {s : State}

theorem SeqView.Ready.setSq (n : Nat) (v : Seqr) (h : (seqView m s).Ready k) : (seqView m (setSq n v s)).Ready k :=
  ⟨h.rate, h.waiting, h.stops⟩

theorem SeqView.Ready.of_eq {t : State} (h : (seqView m s).Ready k) (ht : seqView m t = seqView m s) :
    (seqView m t).Ready k := ht ▸ h

theorem SeqView.Ready.mono {v : SeqView} {j : Nat} (h : v.Ready k) (hj : k ≤ j) : v.Ready j :=
  ⟨h.rate, Nat.le_trans h.waiting hj, h.stops⟩

/-- A record of the sequencer's own is one more that waits, at the most. -/
theorem SeqView.Ready.enqueue (code : Nat) (args : List Nat) (h : (seqView m s).Ready k) :
    (seqView m (enqueue (srcSeq m) code args s)).Ready (k + 1) := by
  obtain ⟨hrate, hwaiting, hstops⟩ := h
  simp only [Machine.enqueue]
  split
  · refine ⟨hrate, ?_, hstops⟩
    simp only [seqView, List.filter_append, List.length_append]
    exact Nat.add_le_add hwaiting (List.length_filter_le _ _)
  · exact (SeqView.Ready.of_eq ⟨hrate, hwaiting, hstops⟩ (seqView_incReg (by decide) _)).mono (Nat.le_succ k)

theorem SeqView.Ready.makeSuppressed (code : Nat) (h : (seqView m s).Ready k) :
    (seqView m (makeSuppressed (srcSeq m) code s)).Ready (k + 1) := by
  simp only [Machine.makeSuppressed]
  split
  · exact h.mono (Nat.le_succ k)
  · exact (h.enqueue _ _).of_eq (seqView_setBucket _ _ _ _)

/-- An event of the sequencer's own makes two records at the most: itself, and the count of those suppressed before it. -/
theorem SeqView.Ready.record (code : Nat) (args : List Nat) (h : (seqView m s).Ready k) :
    (seqView m (record (srcSeq m) code args s)).Ready (k + 2) := by
  have hmade := (h.makeSuppressed code).enqueue code args
  simp only [Machine.record]
  split
  · exact hmade
  · split
    · exact hmade.of_eq (seqView_setBucket _ _ _ _)
    · refine (h.mono (Nat.le_add_right k 2)).of_eq ?_
      rw [seqView_setBucket, seqView_incReg (by decide)]

/-- What waits in the recorder goes on waiting while another record is made. -/
theorem mem_queue_record {r : Rec} (src code : Nat) (args : List Nat) (s : State) (h : r ∈ s.strata.queue) :
    r ∈ (record src code args s).strata.queue := by
  have henqueue : ∀ c a (t : State), r ∈ t.strata.queue → r ∈ (enqueue src c a t).strata.queue := fun c a t ht => by
    simp only [enqueue]
    split
    · exact List.mem_append_left _ ht
    · exact ht
  have hsuppressed : r ∈ (makeSuppressed src code s).strata.queue := by
    simp only [makeSuppressed]
    split
    · exact h
    · exact henqueue _ _ _ h
  simp only [record]
  split
  · exact henqueue _ _ _ hsuppressed
  · split
    · exact henqueue _ _ _ hsuppressed
    · exact h

/-- A switch to ROM only is recorded while its code is not limited and its source's queue has room (R424, R426). -/
theorem exists_mem_queue_record (args : List Nat) (h : (seqView m s).Ready 6) :
    ∃ r ∈ (record (srcSeq m) 0x142 args s).strata.queue, r.src = srcSeq m ∧ r.code = 0x142 := by
  have hunlimited : (neverLimited 0x142 || rateOf s 0x142 == 0) = true := Bool.or_eq_true_iff.mpr (.inr (beq_iff_eq.mpr h.rate))
  have hroom : ((makeSuppressed (srcSeq m) 0x142 s).strata.queue.filter fun r => r.src == srcSeq m).length < 8 :=
    Nat.lt_succ_of_le (h.makeSuppressed 0x142).waiting
  rw [record, if_pos hunlimited]
  simp only [enqueue]
  rw [if_pos hroom]
  exact ⟨_, List.mem_append_right _ (List.mem_singleton_self _), rfl, rfl⟩

/-! ### The end of an operation (R376, R385) -/

/-- Nothing changes but regs, wide, mem, bad, cap. -/
theorem captureItem_frame (k : Nat) (bs : List Byte) (s : State) :
    captureItem k bs s =
      { s with regs := (captureItem k bs s).regs, wide := (captureItem k bs s).wide, mem := (captureItem k bs s).mem,
               bad := (captureItem k bs s).bad, cap := (captureItem k bs s).cap } := by
  unfold captureItem
  dsimp only
  split
  · rfl
  · split
    · rfl
    · rw [dramWrite_frame]; rfl

@[simp] theorem captureItem_seq (k : Nat) (bs : List Byte) (s : State) : (captureItem k bs s).seq = s.seq :=
  (congrArg State.seq (captureItem_frame k bs s)).trans rfl
@[simp] theorem captureItem_chan (k : Nat) (bs : List Byte) (s : State) : (captureItem k bs s).chan = s.chan :=
  (congrArg State.chan (captureItem_frame k bs s)).trans rfl
@[simp] theorem captureItem_strata (k : Nat) (bs : List Byte) (s : State) : (captureItem k bs s).strata = s.strata :=
  (congrArg State.strata (captureItem_frame k bs s)).trans rfl

theorem trigger_chan (i : Nat) (s : State) : (trigger i s).chan = s.chan := by
  have hstream : ∀ k t, (triggerStream i k t).chan = t.chan := fun k t => by
    simp only [triggerStream]
    split
    · rfl
    · split <;> rfl
  unfold trigger
  split
  · simp only [forTo, hstream]
  · rfl

/-- A sequencer between operations. -/
def Seqr.idle (q : Seqr) : Seqr := { q with inOp := false, loaded := none }

/-- The first half of an operation's end: the lane's part of it, a write's or a read's. -/
def endLane (n : Nat) (s : State) : State := if (getCh s n).write then endWrite n s else endMedia n (endRead n s)

/-- The second half of an operation's end: its completion record, and lane, sequencer and scheduler free again. -/
def freeActuator (n : Nat) (rec_ : List Byte) (l : Lane) (s : State) : State :=
  let s := complete n rec_ s
  let s := setSq n (getSq s n).idle (setCh n l s)
  let s := setSched n { getSched s n with running := [] } s
  setRegF (aSeqCtl n) 1 1 0 (incReg (aSeqCount n 0) s)

theorem endOp_eq_freeActuator (n status code : Nat) (s : State) :
    ∃ rec_ l, l.stop = none ∧ endOp n status code s = freeActuator n rec_ l (endLane n s) :=
  ⟨_, { idleLane (getCh (endLane n s) n) with dsc := _ }, rfl, rfl⟩

theorem seqView_endLane (n : Nat) (s : State) : seqView n (endLane n s) = seqView n s :=
  seqView_ite (seqView_endWrite n s) ((seqView_endMedia n _).trans (seqView_endRead s))

theorem seqView_freeActuator (n : Nat) (rec_ : List Byte) (l : Lane) (s : State) :
    seqView n (freeActuator n rec_ l s) = seqView n (setSq n (getSq s n).idle s) := by
  have hcomplete : seqView n (complete n rec_ s) = seqView n s := seqView_complete n rec_ s
  rw [freeActuator, seqView_setRegF (a := aSeqCtl n) (by simp only [aSeqCtl, aRateLimit]; omega),
    seqView_incReg (a := aSeqCount n 0) (by simp only [aSeqCount, aRateLimit]; omega), seqView_setSched, seqView_setSq,
    seqView_setCh, hcomplete, getSq_of_seqView hcomplete, seqView_setSq]

theorem getCh_freeActuator (n : Nat) (rec_ : List Byte) (l : Lane) (s : State) :
    getCh (freeActuator n rec_ l s) n = l := by
  have hchan : (freeActuator n rec_ l s).chan = (setCh n l (complete n rec_ s)).chan := by
    simp only [freeActuator, setRegF_chan, incReg_chan, setSched_chan, setSq_chan]
  rw [getCh_congr hchan, getCh_setCh, if_pos rfl]

/-- The end of an operation shows in the sequencers as its own between operations. -/
theorem seqView_endOp (n status code : Nat) (s : State) :
    seqView n (endOp n status code s) = seqView n (setSq n (getSq s n).idle s) := by
  obtain ⟨rec_, l, -, hend⟩ := endOp_eq_freeActuator n status code s
  have hlane := seqView_endLane n s
  rw [hend, seqView_freeActuator, seqView_setSq, hlane, getSq_of_seqView hlane, seqView_setSq]

/-- An operation that has ended leaves no cause raised in its lane. -/
theorem getCh_endOp_stop (n status code : Nat) (s : State) : (getCh (endOp n status code s) n).stop = none := by
  obtain ⟨rec_, l, hl, hend⟩ := endOp_eq_freeActuator n status code s
  rw [hend, getCh_freeActuator, hl]

/-- Execution resumes at ENTRY with the return stack empty (R385). -/
def resume (n : Nat) (s : State) : State :=
  setSq n { getSq s n with stack := [], pc := entryOf s n, waiting := false } s

theorem forcedEnd_eq_resume (n status : Nat) (s : State) :
    ∃ a b, forcedEnd n status s = resume n (trigger 3 (endOp n status 0 (traceItem n 4 a b status
      (record (srcSeq n) 0x140 [status, status] (incReg (aSeqCount n 1) s))))) := ⟨_, _, rfl⟩

/-- A forced end makes two records at the most and leaves the sequencer between operations, with no cause raised in its lane. -/
theorem forcedEnd_ready (status : Nat) (h : (seqView m s).Ready k) :
    (seqView m (forcedEnd m status s)).Ready (k + 2) ∧ (getCh (forcedEnd m status s) m).stop = none ∧
      (getSq (forcedEnd m status s) m).inOp = false := by
  obtain ⟨a, b, hend⟩ := forcedEnd_eq_resume m status s
  rw [hend]
  have hcounted : (seqView m (incReg (aSeqCount m 1) s)).Ready k :=
    h.of_eq (seqView_incReg (by simp only [aSeqCount, aRateLimit]; omega) s)
  have hrecorded := (hcounted.record 0x140 [status, status]).of_eq (seqView_traceItem m 4 a b status _)
  generalize traceItem m 4 a b status _ = t at hrecorded ⊢
  have hended : seqView m (trigger 3 (endOp m status 0 t)) = seqView m (setSq m (getSq t m).idle t) :=
    (seqView_trigger _ _).trans (seqView_endOp _ _ _ _)
  refine ⟨((hrecorded.setSq m _).of_eq hended).setSq m _, ?_, ?_⟩
  · rw [resume, getCh_congr (setSq_chan _ _ _), getCh_congr (trigger_chan _ _), getCh_endOp_stop]
  · rw [resume, getSq_setSq_self, getSq_of_seqView hended, getSq_setSq_self]
    rfl

/-! ### The switch to ROM only (R387, R391) -/

theorem entryOf_romOnly {n : Nat} (h : (getSq s n).active = 0) : entryOf s n = 0 := by rw [entryOf, h]

/-- A sequencer that has just left its bank for ROM only. -/
def Seqr.romOnly (q : Seqr) : Seqr :=
  { q with active := 0, pend := none, stack := [], waiting := false, faultAt := [], pc := 0 }

/-- The first half of a switch to ROM only: the sequencer and its registers. -/
def leaveBank (n : Nat) (s : State) : State :=
  setReg (aSeqVerActive n) 0 (setReg (aSeqBankSel n) 0
    (setSq n { getSq s n with active := 0, pend := none, stack := [], waiting := false, faultAt := [] } s))

/-- The whole switch: then execution goes to the new ENTRY, with a record and a trace item. -/
theorem switchBank_zero_eq (n : Nat) (s : State) :
    ∃ args a b, switchBank n 0 s = traceItem n 6 a b 0 (record (srcSeq n) 0x143 args (incReg (aSeqCount n 6)
      (setSq n { getSq (leaveBank n s) n with pc := entryOf (leaveBank n s) n } (leaveBank n s)))) := ⟨_, _, _, rfl⟩

theorem getSq_leaveBank (n : Nat) (s : State) : getSq (leaveBank n s) n =
    { getSq s n with active := 0, pend := none, stack := [], waiting := false, faultAt := [] } := by
  have hseq : ∀ a v b w t, (setReg a v (setReg b w t)).seq = t.seq := fun _ _ _ _ _ => rfl
  rw [leaveBank, getSq_congr (hseq _ _ _ _ _), getSq_setSq_self]

theorem getSq_switchBank_zero (n : Nat) (s : State) : getSq (switchBank n 0 s) n = (getSq s n).romOnly := by
  obtain ⟨args, a, b, hswitch⟩ := switchBank_zero_eq n s
  have hentry : entryOf (leaveBank n s) n = 0 := entryOf_romOnly (by rw [getSq_leaveBank])
  rw [hswitch, traceItem, getSq_congr (captureItem_seq _ _ _), getSq_congr (record_seq _ _ _ _),
    getSq_congr (incReg_seq _ _), getSq_setSq_self, hentry, getSq_leaveBank]
  rfl

theorem switchBank_zero_chan (n : Nat) (s : State) : (switchBank n 0 s).chan = s.chan := by
  obtain ⟨args, a, b, hswitch⟩ := switchBank_zero_eq n s
  simp only [hswitch, traceItem, captureItem_chan, record_chan, incReg_chan, setSq_chan, leaveBank, setReg_chan]

theorem mem_queue_switchBank_zero {r : Rec} (n : Nat) (s : State) (h : r ∈ s.strata.queue) :
    r ∈ (switchBank n 0 s).strata.queue := by
  obtain ⟨args, a, b, hswitch⟩ := switchBank_zero_eq n s
  rw [hswitch, traceItem, captureItem_strata]
  exact mem_queue_record _ _ _ _ (by simpa only [incReg_strata, setSq_strata, leaveBank, setReg_strata] using h)

/-! ### The fourth fault (R386, R387) -/

/-- A microcode fault counted, recorded and noted with its time. -/
def noteFault (n cause : Nat) (times : List Nat) (s : State) : State :=
  setSq n { getSq s n with faultAt := times } (record (srcSeq n) 0x141 [(getSq s n).pc, cause] (incReg (aSeqCount n 3) s))

/-- The word that faults ends: by a forced end in an operation, and else execution resumes at ENTRY (R385, R386). -/
def endWord (n : Nat) (inOp : Bool) (s : State) : State :=
  if inOp then forcedEnd n 7 s else setSq n { getSq s n with pc := entryOf s n, waiting := false } s

/-- The fourth fault of a patch bank within a second is followed by the record of the switch and the switch. -/
theorem mcFault_eq_switchBank {n : Nat} (cause : Nat) (hactive : (getSq s n).active ≠ 0)
    (hthree : 3 ≤ ((getSq s n).faultAt.filter fun a => decide (s.now - a < 1000000000)).length) :
    ∃ times args t, mcFault n cause s = switchBank n 0 t ∧
      ∃ red, t = { record (srcSeq n) 0x142 args (endWord n (getSq s n).inOp (noteFault n cause times s)) with red := red } :=
  ⟨_, _, _, if_pos ⟨hactive, Nat.succ_le_succ hthree⟩, _, rfl⟩

/-- The word ended leaves the sequencer between operations and room for the record of the switch. -/
theorem endWord_ready (cause : Nat) (times : List Nat) (hready : (seqView m s).Ready 2) (hstop : (getCh s m).stop = none) :
    let t := endWord m (getSq s m).inOp (noteFault m cause times s)
    (seqView m t).Ready 6 ∧ (getCh t m).stop = none ∧ (getSq t m).inOp = false := by
  have hcounted : (seqView m (incReg (aSeqCount m 3) s)).Ready 2 :=
    hready.of_eq (seqView_incReg (by simp only [aSeqCount, aRateLimit]; omega) s)
  have hnoted : (seqView m (noteFault m cause times s)).Ready 4 := (hcounted.record 0x141 _).setSq m _
  have hlane : getCh (noteFault m cause times s) m = getCh s m := getCh_congr (by
    simp only [noteFault, setSq_chan, record_chan, incReg_chan]) m
  have hsq : (getSq (noteFault m cause times s) m).inOp = (getSq s m).inOp := by rw [noteFault, getSq_setSq_self]
  generalize noteFault m cause times s = t at hnoted hlane hsq ⊢
  cases hop : (getSq s m).inOp with
  | true => exact forcedEnd_ready 7 hnoted
  | false =>
    refine ⟨(hnoted.setSq m _).mono (by decide), ?_, ?_⟩
    · rw [endWord, if_neg Bool.false_ne_true, getCh_congr (setSq_chan _ _ _), hlane, hstop]
    · rw [endWord, if_neg Bool.false_ne_true, getSq_setSq_self]
      exact hsq.trans hop

/-- A microcode fault of a patch bank that has three more within the second leaves ROM only, with the record of the switch
waiting and no cause raised in any lane. -/
theorem mcFault_fourth (cause : Nat) (hactive : (getSq s m).active ≠ 0)
    (hthree : 3 ≤ ((getSq s m).faultAt.filter fun a => decide (s.now - a < 1000000000)).length)
    (hready : (seqView m s).Ready 2) (hstop : (getCh s m).stop = none) :
    (∃ q : Seqr, q.inOp = false ∧ getSq (mcFault m cause s) m = q.romOnly) ∧
      (∃ r ∈ (mcFault m cause s).strata.queue, r.src = srcSeq m ∧ r.code = 0x142) ∧
      ∀ i < 4, (getCh (mcFault m cause s) i).stop = none := by
  obtain ⟨times, args, u, hfault, red, hu⟩ := mcFault_eq_switchBank cause hactive hthree
  obtain ⟨hended, hfree, hinOp⟩ := endWord_ready cause times hready hstop
  rw [hfault]
  generalize endWord m (getSq s m).inOp (noteFault m cause times s) = t at hended hfree hinOp hu
  have hseq : u.seq = t.seq := by rw [hu]; exact record_seq _ _ _ _
  have hchan : u.chan = t.chan := by rw [hu]; exact record_chan _ _ _ _
  obtain ⟨r, hr, hrec⟩ := exists_mem_queue_record args hended
  have hwaits : r ∈ u.strata.queue := by rw [hu]; exact hr
  refine ⟨⟨getSq t m, hinOp, ?_⟩, ⟨r, mem_queue_switchBank_zero m u hwaits, hrec⟩, fun i hi => ?_⟩
  · rw [getSq_switchBank_zero, getSq_congr hseq]
  · rw [getCh_congr ((switchBank_zero_chan m u).trans hchan)]
    by_cases him : i = m
    · rw [him, hfree]
    · exact (if_neg him).symm.trans (hended.stops i hi)

/-- SEQ_BANK_SEL reads the switch requested, and without one the bank that is active (R391, R396). -/
theorem viewReg_seqBankSel (n : Fin 4) (s : State) :
    viewReg s (aSeqBankSel n) = (getSq s n).pend.getD (getSq s n).active := by
  have habsent : absentReg s (aSeqBankSel n) = false := by
    simp only [absentReg, aSeqBankSel, aChlCtl, aWrCtl, aSchCfg, aBasCmd, aAstCtl, Bool.or_eq_false_iff,
      Bool.and_eq_false_iff, decide_eq_false_iff_not]
    omega
  have hunit : aSeqBankSel n / 0x10000 % 0x100 = n := by simp only [aSeqBankSel]; omega
  have hoffset : aSeqBankSel n % 0x10000 = 0x10 := by simp only [aSeqBankSel]; omega
  rw [viewReg, habsent, if_neg Bool.false_ne_true, if_neg (by simp only [aSeqBankSel]; omega),
    if_pos (by simp only [aSeqBankSel]; omega)]
  simp only [readActBlock, hunit, hoffset]
  rw [if_neg (by simp only [aSeqBankSel]; omega), if_neg (by decide), if_pos trivial]

/-- A word that the control store's code cannot correct is a microcode fault (R386). -/
theorem exec_mwNop_uncorrectable {n : Fin 4} {w : MWord} (hawake : s.pwr.phase = .running) (hpresent : actPresent s n = true)
    (hen : regB s (aSeqCtl n) 0 = true) (hword : wordAt s n (wordBits 0 w) = true) (herr : w.err = .uncorrectable) :
    exec (.mwNop n w) s = .next (keep s (watch (mcFault n 4 s))) :=
  calc exec (.mwNop n w) s
    _ = execMwNop n w s := rfl
    _ = .next (keep s (watch (mcFault n 4 s))) := by
      rw [execMwNop, runWord, actOp, act_next _ hawake]
      simp only [hpresent, hen, hword, herr, Bool.not_true, Bool.or_false, Bool.false_eq_true, if_false, if_true]

end Sys2Proof.Machine

namespace Sys2Proof

open Sys2Proof.Machine

/-- Settles O48: the word that cannot be corrected is the bank's fourth fault, so the sequencer leaves it for ROM only; its queue
has room for the record of the switch whatever the forced end has recorded before. -/
theorem patchBanksFallBackToRom : Obligations.PatchBanksFallBackToRom := by
  intro s n w hawake hquiet hpresent hen hword herr hactive hthree hrate hwaiting
  have hready : (seqView n s).Ready 2 := ⟨hrate, hwaiting, fun i hi => by
    simp only [seqView]
    split
    · rfl
    · exact hquiet i hi⟩
  obtain ⟨⟨q, hinOp, hq⟩, ⟨r, hr, hrec⟩, hcalm⟩ := mcFault_fourth 4 hactive hthree hready (hquiet n n.isLt)
  have hnext := exec_mwNop_uncorrectable hawake hpresent hen hword herr
  rw [watch_of_quiet hcalm] at hnext
  have hsq : getSq (keep s (mcFault n 4 s)) n = q.romOnly := (getSq_congr (keep_seq _ _) _).trans hq
  refine ⟨_, hnext, ?_, ?_, ?_, ?_, ?_, r, hr, hrec⟩
  · rw [hsq]; rfl
  · rw [viewReg_seqBankSel, hsq]; rfl
  · rw [hsq]; rfl
  · rw [hsq]; exact hinOp
  · rw [hsq]; rfl

end Sys2Proof
end
